-- ==== Sys2Proof/Word.lean ====
section
/-! DEFINITION. Words, bytes and the plainest arithmetic of them. -/
namespace Sys2Proof

/-- A byte. -/
abbrev Byte := BitVec 8

/-- A SCLK tick count (01 R25: the counter does not wrap in service). -/
abbrev Tick := Nat

/-- A sparse table: pairs of key and value, keys strictly rising; an absent key reads as the table's default. -/
abbrev Tbl (α : Type) := List (Nat × α)

/-- The smallest multiple of `m` that is at least `n`. -/
def roundUp (n m : Nat) : Nat := (n + m - 1) / m * m

/-- The quotient rounded up. -/
def ceilDiv (n m : Nat) : Nat := (n + m - 1) / m

/-- 1 for true. -/
def bit (b : Bool) : Nat := if b then 1 else 0

/-- The two's complement value of the low `w` bits of `n`. -/
def signed (w n : Nat) : Int :=
  if n % 2 ^ w < 2 ^ (w - 1) then (n % 2 ^ w : Nat) else (n % 2 ^ w : Nat) - (2 ^ w : Nat)

/-- The low `w` bits of an integer in two's complement. -/
def unsign (w : Nat) (i : Int) : Nat := (i % ((2 ^ w : Nat) : Int)).toNat

/-- The lesser of `n` and `2^w − 1`: a saturating field. -/
def sat (w n : Nat) : Nat := min n (2 ^ w - 1)

end Sys2Proof
end

