-- ==== Sys2Proof/Syntax.lean ====
section
/-! DEFINITION. The commands of the block: one constructor for each row of the opcode table, with the operands each row
carries, and the types of those operands. What a read of host memory returned, what a sensor or an engine measured and
what a frame or record held are operands (notes/assumptions 3, 4). -/
namespace Sys2Proof

/-- A 64-byte command packet (02 Table 2-13), byte 0 in bits [7:0]. -/
abbrev Packet := BitVec 512

/-- The parameter blocks of a request as they lie in host memory: the I/O block (64 bytes, or 96 when sealed; 03 Table 3-6)
and the tree block (320 bytes, or 352 when sealed; 05 Table 5-7). -/
structure Blocks where
  io   : BitVec 768
  tree : BitVec 2816
deriving DecidableEq, Repr

/-- Status codes (02 Table 2-27). -/
inductive Status where
  | done | doneAtHem | deadlineFallback | deadlineUnreachable | budgetExhausted | tableFull | badOpcode | badParam
  | badState | dataError | integrityMismatch | tenantGone | keyStale | accessDenied | stateLost | diverged | thermalAbort
  | powerAbort | cancelled | busy | fwCheckFail | fwSigFail | fwRollbackRefused | halfMast
deriving DecidableEq, Repr

/-- What a read of a command in flight is for: a request by its slot, or another command by its number. -/
inductive Target where
  | req (slot : Nat)
  | cmd (cid : Nat)
deriving DecidableEq, Repr

namespace Machine

/-- The element formats of 04 Table 4-1. -/
inductive Elem where
  | e4m3 | e5m2 | e3m2 | e2m3 | e2m1 | mxint8 | mxint4 | int8 | fp16 | bf16 | fp32
deriving DecidableEq, Repr

/-- Array modes (04 Table 4-2) and fold modes (04 Table 4-4). -/
inductive ArrayMode where
  | bits4 | bits8 | bits16
deriving DecidableEq, Repr
inductive Fold where
  | full | quad | sixteen
deriving DecidableEq, Repr

/-- A place in a core store, a half store or the LPDDR4X of a half (04 R142), or in the output buffer of the request. -/
inductive Place where
  | core (core addr : Nat)
  | half (half addr : Nat)
  | lpddr (half addr : Nat)
  | output (off : Nat)
deriving DecidableEq, Repr

/-- Lane by lane operations of the vector unit (04 Table 4-6): FP32 arithmetic, compare and select, functions, and INT32. -/
inductive VecOp where
  | fma | add | sub | mul | min | max | abs | neg | eq | lt | le | select | exp2 | log2 | rcp | rsqrt
  | iadd | isub | iand | ior | ixor | shl | shr | sar | ieq | ilt
deriving DecidableEq, Repr

end Machine

open Machine

/-- A run of elements in a core store: their format, where their element plane and their scale plane start, and whether they have
scales (04 R123, R125). -/
structure Plane where
  fmt     : Elem
  elems   : Nat
  scales  : Nat
  blocked : Bool
deriving DecidableEq, Repr

/-- One operation of the units that run a pattern (04, 05, 06): what a pattern image tells them to do is Adtoic's and no part of the
manual, so the operations come as operands (notes/assumptions 109). `k` is a logical core; `reg` one of the 64 registers of a lane. -/
inductive UnitOp where
  /-- the core DMA engine copies bytes, at the end of a cycle's accesses (04 R142) -/
  | copy (k : Nat) (dst src : Place) (bytes : Nat)
  /-- the core DMA engine stores bytes that a read of host memory returned -/
  | hostRead (k : Nat) (dst : Place) (bytes data : Nat)
  /-- weight staging of sub-array `sub` (04 R128, R129), and its change of tile -/
  | loadTile (k sub : Nat) (mode : ArrayMode) (fold : Fold) (src : Plane)
  | swapTile (k sub : Nat)
  /-- edge registers are cleared for new dot products -/
  | clearEdge (k first n : Nat)
  /-- a pass of one vector of `n` reduction elements against the tile in use -/
  | pass (k sub n : Nat) (src : Plane)
  /-- the vector unit reads an edge register's FP32 result, or its INT32 result -/
  | edgeRead (k entry lane reg : Nat) (int32 : Bool)
  /-- the vector unit loads and stores lanes, converted from and to a format -/
  | vload (k lane n reg addr : Nat) (fmt : Elem)
  | vstore (k lane n reg addr : Nat) (fmt : Elem)
  /-- MX quantisation of 32 lanes into one block -/
  | quantise (k lane reg : Nat) (dst : Plane)
  | vec (k lane n : Nat) (op : VecOp) (dst a b c : Nat)
  /-- SUM or MAX across lanes, into the first -/
  | reduce (k lane n : Nat) (max : Bool) (dst src : Nat)
  /-- SMX_STEP and SMX_FINAL on rows of FP32 in the core store; `first`: the row begins -/
  | smxStep (k state scores n factor : Nat) (first : Bool)
  | smxFinal (k state row n : Nat)
  /-- an atomic operation on a line (04 R143) -/
  | atomic (k : Nat) (max : Bool) (line : Place) (mask : BitVec 16) (operand : BitVec 512)
  /-- the K and V entry of a position of a layer is written (05 R154, R156); `ex` is the example of an ADAPT_STEP -/
  | kvWrite (k layer ex pos addr : Nat)
  /-- the fused pass of query rows `q0` onward of a head of a layer (05 R149); `keep` is where an ADAPT_STEP keeps scores and states -/
  | attend (k layer head ex q0 rows : Nat) (q : Plane) (out keep : Nat)
  /-- the weights of the backward pass of the same rows (05 R182) -/
  | backward (k layer head ex q0 rows : Nat) (q : Plane) (keep out : Nat)
  /-- one output row of a channel of a convolution layer, on a core (06 R189 to R196) or on a picot engine (06 R210 to R215) -/
  | convRow (k layer co oy x : Nat) (weights : Plane) (out : Nat) (fmt : Elem)
  | picotRow (half layer co oy : Nat) (x weights : Place) (scales : Nat) (out : Place) (fmt : Elem)
  /-- an interleaved input becomes planar (06 R187) -/
  | planar (k c h w : Nat) (fmt : Elem) (src dst : Nat)
  /-- argmax over the channels of a planar tensor (06 R216) -/
  | argmax (half c h w : Nat) (fmt : Elem) (blocked : Bool) (src : Place) (dst : Place) (values : Option Place)
deriving DecidableEq, Repr

/-- Where the mask of an attention layer comes from (05 Table 5-4). -/
inductive MaskSource where
  | causal
  | pattern
  | request
deriving DecidableEq, Repr

/-- The declared figures of one attention layer (05 Table 5-1): `heads` KV heads stored in format `kv`, the PV operand format `pv`
(05 R149), the half that runs it, its mask source, the pricking of a PATTERN layer as a length and bytes, and the offset of that of a
REQUEST layer in the input (05 Table 5-4). -/
structure AttnLayer where
  headDim : Nat
  kvBytes : Nat
  heads   : Nat
  kv      : Elem
  blocked : Bool
  pv      : Elem
  half    : Nat
  source  : MaskSource
  image   : Nat × Nat
  offset  : Nat
deriving DecidableEq, Repr

/-- Padding modes (06 Table 6-1). -/
inductive PadMode where
  | zero
  | replicate
  | reflect
deriving DecidableEq, Repr

/-- One axis of a convolution (06 Table 6-1). -/
structure ConvAxis where
  extent : Nat
  k      : Nat
  s      : Nat
  d      : Nat
  before : Nat
  after  : Nat
deriving DecidableEq, Repr

/-- The two forms of a picot layer (06 Table 6-8). -/
inductive PicotForm where
  | first
  | last
deriving DecidableEq, Repr

/-- Input modes of the first-layer form (06 R213). -/
inductive ColourMode where
  | rgb | grey | yuv
deriving DecidableEq, Repr

/-- What a layer reads: planar tensors, an interleaved host input of a format with or without scales (06 R187), or decoded planes, with the range (full) and
matrix (BT.601) that the pattern declares in place of the stream's, and NEAREST (06 R213, R214). -/
inductive LayerIn where
  | planar
  | interleaved (fmt : Elem) (blocked : Bool)
  | decoded (mode : ColourMode) (full bt601 : Option Bool) (nearest : Bool)
deriving DecidableEq, Repr

/-- Where a layer's output lies (06 Table 6-8). -/
inductive LayerOut where
  | cores | lpddr | buffer
deriving DecidableEq, Repr

/-- One convolution layer of a vision stage as the image declares it (06 Tables 6-1, 6-3, 6-8): element formats and array mode,
`bandRows` the heights of its bands, `slots` the slots of its halo paths by boundary and `cutSlots` those at the stripe cut. -/
structure ConvLayer where
  v        : ConvAxis
  h        : ConvAxis
  cin      : Nat
  cout     : Nat
  groups   : Nat
  pad      : PadMode
  act      : Elem
  actBlocked : Bool
  wgt      : Elem
  wgtBlocked : Bool
  mode     : ArrayMode
  input    : LayerIn
  output   : LayerOut
  picot    : Option PicotForm
  bandRows : List Nat
  slots    : List Nat
  cutSlots : Nat
deriving DecidableEq, Repr

/-- What the blocks of a pattern image that Adtoic writes declare to the module (08 R258 leaves their coding to Adtoic). A reduced plan
names its core and gives the heights of the other cores of its half (06 R205). -/
structure Plan where
  cores     : List Nat
  attn      : List AttnLayer
  vocab     : Nat
  conv      : List ConvLayer
  striped   : Bool
  banded    : Bool
  reduced   : List (Nat × List Nat)
  rebalance : Bool
  heights   : List Nat
  picture   : Option (Nat × Nat)
deriving DecidableEq, Repr

/-- How LPDDR4X, SRAM or flash answered one read (08 R244, R255, R261). -/
inductive EccResult where
  | clean
  | corrected
  | uncorrectable
deriving DecidableEq, Repr, Inhabited

/-- How a line of LPDDR4X read against its check bytes (08 R244): symbols in error, and whether the read reached another line. -/
structure LineRead where
  symbols   : Nat
  wrongLine : Bool
deriving DecidableEq, Repr

/-- The objects of 08 Table 8-8. -/
inductive MemObject where
  | stagedPattern (slot : Nat)
  | residentPattern (slot : Nat)
  | kv (seqIdx position : Nat)
  | applique (index : Nat)
  | gradBuffer (index : Nat)
  | picture (stream buffer : Nat)
  | requestEntry (slot : Nat)
  | sentinelEntry (slot : Nat)
  | pageList (seqIdx : Nat)
  | other
deriving DecidableEq, Repr

/-- What an ordinary read or boundary check met (08 R245, R246, R265, R268, Table 8-6, 09 R288). -/
inductive MemError where
  | lpddr (channel line : Nat) (r : LineRead) (obj : MemObject)
  | sramCorrected (unit : Nat)
  | uncorrectable (source half unit arg : Nat) (obj : MemObject)
  | crcBoundary (unit : Nat)
  | aesMismatch
  | pageOwner (half page : Nat)
deriving DecidableEq, Repr

/-- What a request's units report when its work ends (03 R84, R98, 05 R176, R177, R185): the number of output bytes and those bytes
as a little-endian number, for an ADAPT_STEP its loss, positions and gradient, and the operations of its units since they last reported:
each inner list holds what they ask for in one cycle (04 R142); `empties` is the count of empty rows of a run on the partner's cores
(10 R308). -/
structure WorkResult where
  outBytes  : Nat
  data      : Nat
  loss      : BitVec 32
  positions : Nat
  ops       : List (List UnitOp)
  grads     : List (BitVec 32)
  empties   : Nat
deriving DecidableEq, Repr

/-- A syntax element, or a value derived from it and used as an index or address: its value, and the least and greatest that the
standard and the stream's declared limits allow (07 R229). -/
abbrev Parsed := Int × Int × Int

/-- What the parameter sets of a stream say of its pictures (07 R218, R228, Table 7-7): PROFILE as Table 7-3 codes it, coded size, bits,
references, the side of a unit in luma samples, HEVC High tier, frame_mbs_only_flag 0, AV1 monochrome, range, COLOUR and WINDOW. -/
structure ParamSet where
  profile    : Nat
  width      : Nat
  height     : Nat
  bits       : Nat
  refs       : Nat
  unit       : Nat
  highTier   : Bool
  interlaced : Bool
  mono       : Bool
  fullRange  : Bool
  colour     : BitVec 8
  window     : BitVec 64
deriving DecidableEq, Repr

/-- A parameter set as it is parsed: its number, its nuh_layer_id, its elements and what it says. -/
structure SetRead where
  id    : Nat
  layer : Nat
  elems : List Parsed
  body  : ParamSet
deriving DecidableEq, Repr

/-- One picture of a feed as its headers describe it (07 R218, R228, R232): what the decoder must know before it selects a buffer.
`set` is the parameter set it activates; `refs` what its reference lists name, long-term or not, by order count (HEVC, H.264), `slots`
the reference slots they name (AV1); `marks` the pictures the standard's reference process marks before the picture is decoded: long-term,
short-term, or none; `showExisting` the slot that a show_existing_frame names. -/
structure PictureHead where
  sets   : List SetRead
  set    : Nat
  order  : BitVec 32
  ptype  : Nat
  output : Bool
  grain  : Bool
  largeScale : Bool
  refs   : List (Bool × BitVec 32)
  slots  : List Nat
  marks  : List (Nat × Option Bool)
  showExisting : Option Nat
deriving DecidableEq, Repr

/-- A unit as the decoder meets it: its raster index, its elements, whether the data held all of it, the bytes of the pool that its
prediction reads, and the samples and motion data it writes, as (pool address, bytes, data) (07 R228 to R230). -/
structure UnitRead where
  raster : Nat
  elems  : List Parsed
  whole  : Bool
  reads  : List (Nat × Nat)
  writes : List (Nat × Nat × Nat)
deriving DecidableEq, Repr

/-- A slice (HEVC, H.264) or tile (AV1): its nuh_layer_id, and its units in decoding order. -/
structure SliceRead where
  layer : Nat
  units : List UnitRead
deriving DecidableEq, Repr

/-- A picture as it is decoded (07 R222, R229 to R232): its slices, what the standard's reference process makes of earlier pictures and of
it once it is decoded, AV1 refresh_frame_flags, and whether it is the last picture of its feed. -/
structure PictureDone where
  slices   : List SliceRead
  marks    : List (Nat × Option Bool)
  shortRef : Bool
  longRef  : Bool
  refresh  : BitVec 8
  last     : Bool
deriving DecidableEq, Repr

/-- An access unit as an encoder makes it (07 R238): its delimiter, parameter sets and slices, each with its start code, as a number of
bytes and those bytes. -/
structure AccessUnit where
  delimiter : Nat × Nat
  vps    : Nat × Nat
  sps    : Nat × Nat
  pps    : Nat × Nat
  slices : List (Nat × Nat)
deriving DecidableEq, Repr

/-- States of a request (03 Table 3-2); a free slot has no entry. -/
inductive ReqState where
  | admitted | queued | running | preempted | verifying | replied | retiring
deriving DecidableEq, Repr

/-- The part of a request that REQ_VERIFY adds (05 Tables 5-6, 5-7): tokens and parents of its candidates, the path a
GREEDY pass accepts, its bonus token, and the rows of the pass, row 0 first. -/
structure Verify where
  greedy  : Bool
  tokens  : List Nat
  parents : List Nat
  path    : List Nat
  bonus   : Nat
  rows    : List (List (BitVec 32))
deriving DecidableEq, Repr

/-- The part of a request that ADAPT_STEP adds (05 Table 5-12), with the gradient its work produced. -/
structure Adapt where
  apply    : Bool
  examples : Nat
  maxLen   : Nat
  lr       : BitVec 32
  momentum : BitVec 32
  grads    : List (BitVec 32)
deriving DecidableEq, Repr

/-- A request table entry (03 Table 3-1) with what the module must keep beside it; an absent slot is FREE. `counted` is how many of its
positions and generated tokens USED counts so far (R107), `table`: it runs on the bias table path (05 R167), `empties` how many empty rows
its passes have met (05 R177), `lent`: it runs on the partner's cores, or as a copy on this module's for the partner (10 R308). -/
structure Req where
  gen      : Nat
  st       : ReqState
  opcode   : Nat
  cls      : Nat
  tenant   : Nat
  mirror   : Bool
  account  : Nat
  ring     : Nat
  order    : Nat
  ordered  : Bool
  queue    : Nat
  tag      : BitVec 64
  seqNo    : BitVec 32
  fence    : Option (BitVec 32)
  pattern  : Nat
  patHandle : Nat
  applique : Option (Nat × Nat)
  deadline : Option Tick
  doorbell : Tick
  guard    : Nat
  hemPolicy : Nat
  minHem   : Nat
  deepest  : Nat
  charged  : Nat
  used     : Nat
  counted  : Nat
  number   : Nat
  seqIdx   : Option Nat
  baseLen  : Nat
  inUnits  : Nat
  genTokens : Nat
  cands    : Nat
  verify   : Option Verify
  adapt    : Option Adapt
  keyGen   : Nat
  bufFlags : BitVec 8
  inCrc    : BitVec 32
  inOk     : Bool
  outAddr  : Nat
  ioAddr   : Nat
  picture  : Option (Nat × Nat)
  cores    : List Nat
  result   : Option (Status × Nat × BitVec 64 × BitVec 16)
  final    : Option Status
  stopped  : Bool
  ran      : Bool
  partner  : Bool
  fast     : Bool
  table    : Bool
  empties  : Nat
  lent     : Bool
deriving DecidableEq, Repr

/-- What a REQUEST record carries (10 Table 10-6): the entry, with what its parameter blocks in host memory say, its ticks in the
sender's LOCAL_TIME, and the balance of its account. -/
structure MirrorReq where
  entry     : Req
  seqHandle : Nat
  fallback  : Option Tick
  cutoff    : Option Tick
  balance   : Int
deriving DecidableEq, Repr

/-- The payloads of mirrored records (10 Table 10-6). -/
inductive RecBody where
  | fetch (head : Nat) (slots : List (Nat × BitVec 64 × BitVec 32))
  | request (e : MirrorReq)
  | result (status : Status) (detail : Nat) (value : BitVec 64) (committed : Nat)
  | final (status : Status) (balance : Int) (committed : Nat)
  | kv (layer first count data : Nat)
  | sequence (gen state committed pattern : Nat) (applique : Option (Nat × Nat)) (tenant : Nat)
  | budget (balance : Int) (windowStart : Nat)
  | fence (gen tenant : Nat) (value : BitVec 64) (allocated : Bool)
  | setup (packet : Packet) (block : Nat) (status : Status) (detail : Nat) (value : BitVec 64) (applicable : Bool)
  | command (opcode : Nat) (tag : BitVec 64) (seqNo : BitVec 32) (closed : Bool)
deriving DecidableEq, Repr

/-- A mirrored record as it arrives (10 Table 10-5); `tagOk` is the AES-GCM verdict, `crcOk` the CRC-32C verdict. -/
structure Record where
  key       : Nat
  commitSeq : Nat
  burgee    : BitVec 16
  slot      : Nat
  crc       : BitVec 32
  tagOk     : Bool
  crcOk     : Bool
  body      : RecBody
deriving DecidableEq, Repr

namespace Machine

/-! ### Objects that a resilvering copies (10 Table 10-12a) -/

inductive RingState where
  | active | error | defunct | destroying
deriving DecidableEq, Repr

/-- A ring context (02 R48-R50); an absent ring is FREE. `stamps` are the latched tails beyond the fetched head with their
doorbell times, oldest first; `visible` counts the slots made visible since creation. -/
structure Ring where
  st        : RingState
  base      : Nat
  sizeLog2  : Nat
  cls       : Nat
  tenant    : Option Nat
  account   : Nat
  queue     : Nat
  fast      : Bool
  headAddr  : Option Nat
  fetched   : Nat
  visible   : Nat
  pending   : Bool
  stamps    : List (Nat × Tick)
  destroyers : List Nat
  partnerUpTo : Nat
deriving DecidableEq, Repr

structure Fence where
  gen    : Nat
  tenant : Nat
  value  : BitVec 64
deriving DecidableEq, Repr

/-- Figures of ACCOUNT_SET (02 Table 2-32). -/
structure Figures where
  refill   : Nat
  cap      : Nat
  reserve  : Nat
  windowMs : Nat
deriving DecidableEq, Repr

structure Account where
  tenant  : Nat
  fig     : Figures
  pending : Option Figures
  balance : Int
  window  : Tick
  lastAdmit : Option Tick
deriving DecidableEq, Repr

/-- The items of 02 Table 2-31. -/
structure CfgVals where
  guard : Nat
  slice : Nat
  scrub : Nat
  mask  : Nat
deriving DecidableEq, Repr

/-- Tier below residence, and the way a pattern is resident (01 R19, 03 R111-R114). -/
inductive Residence where
  | none | rotating | pinned
deriving DecidableEq, Repr

/-- A pattern of the model store (03 R109 to R114): `damaged` how a staging ends that meets its damaged block (08 R261). -/
structure Pattern where
  gen      : Nat
  tenant   : Nat
  blocks   : Nat
  digest   : BitVec 256
  summary  : BitVec 1024
  plan     : Plan
  damaged  : Option (Status × Nat)
  staged   : Bool
  res      : Residence
  sram     : Bool
  leaving  : Bool
  want     : Option Nat
  staging  : Option Nat
  loading  : Option Nat
  evicting : Option Nat
  migrated : Tbl Nat
deriving DecidableEq, Repr

structure Applique where
  gen      : Nat
  pattern  : Nat
  tenant   : Nat
  bytes    : Nat
  prevBytes : Nat
  nextBytes : Nat
  fmt      : Elem
  current  : Nat
  weights  : List (BitVec 32)
  previous : Option (Nat × List (BitVec 32))
  place    : Option Target
  next     : Option (List (BitVec 32))
  loading  : Bool
  retiring : Bool
  tag      : Nat
  grads    : List (BitVec 32)
  momenta  : List (BitVec 32)
deriving DecidableEq, Repr

inductive SeqState where
  | open | awaitingCommit | broken | closing
deriving DecidableEq, Repr

/-- The provisional entries a LOGITS_OUT pass left (05 R173): base L + U, parents of the candidates, producing request. -/
structure Provisional where
  base    : Nat
  parents : List Nat
  slot    : Nat
  gen     : Nat
deriving DecidableEq, Repr

structure Sequence where
  gen       : Nat
  pattern   : Nat
  tenant    : Nat
  applique  : Option (Nat × Nat)
  st        : SeqState
  committed : Nat
  prov      : Option Provisional
  mirrored  : Bool
  closer    : Option Nat
  freed     : Nat
deriving DecidableEq, Repr

/-- A buffer of a pool with its marks (07 Table 7-5), its bytes in the layout of R222, whether its picture was generated (R232), and what the
report of its picture says of its samples: bits, COLOUR and full range (Table 7-7). -/
structure Buf where
  shortRef : Bool
  longRef  : Bool
  outPend  : Bool
  hold     : Nat
  picture  : Option Nat
  order    : BitVec 32
  window   : BitVec 64
  replied  : Bool
  feed     : Option Nat
  grey     : Bool
  data     : Nat
  bits     : Nat
  colour   : BitVec 8
  full     : Bool
deriving DecidableEq, Repr

/-- A decode stream (07 R219 to R236): `sets` the parameter sets in force (R229), `slots` the buffers in AV1's 8 reference slots, `named` the tick
at which an admission last named one of its pictures, and `picked` that of its last buffer selection (R225). -/
structure Stream where
  gen     : Nat
  ring    : Nat
  tenant  : Nat
  codec   : Nat
  profile : Nat
  level   : Nat
  half    : Nat
  width   : Nat
  height  : Nat
  bits    : Nat
  maxRef  : Nat
  allowDrop : Bool
  engine  : Nat
  rate    : Nat
  sets    : Tbl ParamSet
  bufs    : List Buf
  slots   : List (Option Nat)
  nextPic : Nat
  named   : Option Tick
  picked  : Option Tick
  dropsReply  : Nat
  dropsReport : Nat
  feeds   : List Nat
  closing : Option Nat
deriving DecidableEq, Repr

/-- An entry of a ROI list (07 Table 7-13), in units of 16 pixels. -/
structure Roi where
  x : Nat
  y : Nat
  w : Nat
  h : Nat
  offset : Int
deriving DecidableEq, Repr

/-- A frame that an encoder has accepted: its command, the samples of its source, luma then Cb then Cr, and its regions (07 R237, R239). -/
structure Frame where
  cid     : Nat
  samples : List Nat
  rois    : List Roi
deriving DecidableEq, Repr

/-- An encoder: the settings of 07 Table 7-11, its next frame number, and the frames since its last IDR picture (0: none yet). -/
structure Encoder where
  gen     : Nat
  ring    : Nat
  tenant  : Nat
  codec   : Nat
  profile : Nat
  level   : Nat
  half    : Nat
  width   : Nat
  height  : Nat
  bits    : Nat
  rc      : Nat
  qpMin   : Int
  qpMax   : Int
  qpI     : Int
  qpP     : Int
  idrEvery : Nat
  target  : Nat
  maxKbps : Nat
  vbvMs   : Nat
  slices  : Nat
  engine  : Nat
  rate    : Nat
  frameNo : Nat
  sinceIdr : Nat
  frames  : List Frame
  closing : Option Nat
deriving DecidableEq, Repr

/-- One key generation of a tenant (09 R282-R285). `pageKey` is the DRBG draw that made PAGE_KEY. -/
structure KeyGen where
  num     : Nat
  pageKey : Nat
  bufKey  : Option (BitVec 256)
  outKey  : Option (BitVec 256)
  nonce   : Nat
deriving DecidableEq, Repr

inductive TenantState where
  | absent | active | removing
deriving DecidableEq, Repr

structure Tenant where
  st      : TenantState
  epoch   : Nat
  cur     : Option KeyGen
  prev    : Option KeyGen
  next    : Option KeyGen
  keyless : Bool
  remover : Option Nat
deriving DecidableEq, Repr

/-- A partition entry (09 Table 9-14). -/
structure PartEntry where
  cores     : Nat
  decode    : Nat
  encoders  : Nat
  selvage   : Nat
  hsWest    : Nat
  hsEast    : Nat
  pagesWest : Nat
  pagesEast : Nat
  requests  : Nat
  sequences : Nat
  fences    : Nat
  appliques : Nat
deriving DecidableEq, Repr

/-- What phase 2 of a resilvering copies (10 Table 10-12a): tenants without their keys, the partition table, configuration, rings, accounts,
fences, sequences, streams and encoders without pictures, patterns and appliqués with their images; and the COMMIT_SEQ it stands at. -/
structure Copied where
  at_     : Nat
  tenants : Tbl Tenant
  parts   : Option (List PartEntry)
  cfg     : CfgVals
  rings   : Tbl Ring
  accts   : Tbl Account
  fences  : Tbl Fence
  seqs    : Tbl Sequence
  streams : Tbl Stream
  encs    : Tbl Encoder
  pats    : Tbl Pattern
  apps    : Tbl Applique
deriving DecidableEq, Repr

end Machine

/-- What a partner answered during PAIR_BIND (10 R300): its quote's figures and the verdicts on its chain and signature. -/
structure PartnerQuote where
  serial    : BitVec 128
  pairId    : BitVec 32
  role      : Nat
  pairPolicy : Nat
  verified  : Bool
  signer    : BitVec 256
  fwMajor   : Nat
  isoPolicy : Nat
  maxParts  : Nat
  secretA   : BitVec 256
  secretB   : BitVec 256
deriving DecidableEq, Repr

/-- What the hardware does during one start (11 Table 11-2): channels whose training fails twice, halves and bridge found faulted, the verdicts of the
self-tests, and the stage (row of Table 11-2) that overruns, if any. -/
structure StartEnv where
  channelsFailed : List Nat
  halvesFaulted  : List Nat
  bridgeDown     : Bool
  arrayFail      : Bool
  attnFail       : Bool
  orFault        : Bool
  overrun        : Option Nat
deriving DecidableEq, Repr

/-- Die-to-die links (01 Table 1-3). -/
inductive DieLink where
  | memory (half : Nat)
  | hub (half : Nat)
  | bridge
deriving DecidableEq, Repr

/-- A block of a pattern image as it arrives (08 Table 8-5): its trailer's BLOCK, IMAGE_ID and CRC, and the CRC-32C computed
over it. -/
structure BlockRead where
  block    : Nat
  imageId  : BitVec 32
  crc      : BitVec 32
  computed : BitVec 32
deriving DecidableEq, Repr

/-- A pattern image as PATTERN_STORE reads it: bytes 0x0000 to 0x00BF of block 0 (08 Table 8-4), the trailers of its blocks in
order, block 0 first, and the SHA3-256 computed over blocks 1 onward. -/
structure ImageRead where
  header : BitVec 1536
  blocks : List BlockRead
  digest : BitVec 256
deriving DecidableEq, Repr

/-- The reason a staging copy ends (08 R261). -/
inductive StageEnd where
  | complete
  | ldpcFail (block : Nat)
  | checkFail (block : Nat)
deriving DecidableEq, Repr

/-- The commands: one constructor for each row of spec/opcode_table.json, in its order. A `cid` is the number of a command
in flight, from 1, a `slot` a request table slot. -/
inductive Instr where
  | doorbellWrite (w64 : Bool) (v : BitVec 64)
  | replyDoorbellWrite (w64 : Bool) (v : BitVec 64)
  | adminRingEnable (sizeLog2 : BitVec 5) (desc : BitVec 256)
  | adminRingDisable (sizeLog2 : BitVec 5)
  | registerWrite (off : BitVec 16) (w64 : Bool) (v : BitVec 64)
  | localTimeRead (upper w64 : Bool)
  | ringFetchVisit (kinds : Tbl (List Bool))
  | commandFetched (ring : Nat) (pkt : Packet) (sealedObj : BitVec 608) (blocks : Option Blocks)
  | fetchReadFailed (ring : Nat)
  | pcieReadError (t : Target)
  | orderedRelease (cid : Nat)
  | replyAccept (queue : Nat)
  | eventBacklogDrain
  | requestReady (slot : Nat)
  | requestDispatch (slot : Nat) (pricks : List (Nat × Nat)) (lend : Bool)
  | requestResume (slot : Nat)
  | hemComplete (slot hem : Nat) (ops : List (List UnitOp))
  | verifyPassComplete (slot : Nat) (rows : List (List (BitVec 32))) (ops : List (List UnitOp))
  | requestWorkComplete (slot : Nat) (w : WorkResult)
  | inCrcCheck (slot : Nat) (crc : BitVec 32) (sealedGen : Nat) (tagOk : Bool)
  | fallbackTick (slot : Nat)
  | hemCutoff (slot : Nat) (w : WorkResult)
  | sweepComplete
  | requestUnitsStopped (slot ran : Nat)
  | requestRetired (slot : Nat)
  | budgetRefill (account : Nat)
  | sliceStart
  | patternSramRelease (pattern : Nat)
  | nop (cid : Nat)
  | identify (cid : Nat)
  | getHealth (cid : Nat)
  | setConfig (cid : Nat)
  | configCommit (cid : Nat)
  | ringCreate (cid : Nat) (desc : BitVec 256)
  | ringDestroy (cid : Nat)
  | ringDestroyComplete (ring : Nat)
  | accountSet (cid : Nat)
  | resetUnitModule (cid : Nat)
  | resetUnitHalf (cid : Nat)
  | resetUnitCore (cid : Nat)
  | resetUnitComplete (cid : Nat)
  | shutdown (cid : Nat)
  | shutdownComplete
  | patternStore (cid : Nat) (image : ImageRead)
  | patternStoreComplete (cid : Nat) (plan : Plan)
  | patternStage (cid : Nat)
  | patternStageComplete (cid : Nat) (e : StageEnd)
  | patternReside (cid : Nat)
  | patternResideComplete (cid : Nat)
  | patternEvict (cid : Nat)
  | patternEvictComplete (cid : Nat)
  | appliqueLoad (cid : Nat)
  | appliqueReplace (cid : Nat)
  | appliqueLoadComplete (cid : Nat) (crc : BitVec 32) (fmt : Elem) (weights : List (BitVec 32))
  | appliqueRetire (cid : Nat)
  | reqSubmit (cid : Nat) (blocks : Blocks)
  | reqAppend (cid : Nat) (blocks : Blocks)
  | reqVerify (cid : Nat) (blocks : Blocks)
  | reqCommit (cid : Nat)
  | reqCommitWaitEnd (cid : Nat)
  | reqCancel (cid : Nat)
  | reqQuery (cid : Nat)
  | seqClose (cid : Nat)
  | seqCloseComplete (seqIdx : Nat)
  | adaptStep (cid : Nat) (blocks : Blocks)
  | streamOpen (cid : Nat)
  | streamFeed (cid : Nat) (crc : BitVec 32) (sealedGen : Nat) (tagOk : Bool)
  | pictureDecodeStart (engine : Nat) (p : PictureHead)
  | pictureDecodeEnd (engine : Nat) (p : PictureDone)
  | decodeWatchdog (engine : Nat) (done : Nat) (p : PictureDone)
  | streamClose (cid : Nat)
  | streamCloseComplete (stream : Nat)
  | encOpen (cid : Nat)
  | encFrame (cid : Nat) (rois : BitVec 6144) (source sealedGen : Nat) (tagOk : Bool)
  | encFrameComplete (cid : Nat) (au : AccessUnit) (baseQp : Int)
  | encClose (cid : Nat)
  | fenceAlloc (cid : Nat)
  | fenceFree (cid : Nat)
  | fenceFreeComplete (cid : Nat)
  | fenceSignal (cid : Nat)
  | fenceWait (cid : Nat)
  | fenceWaitDone (cid : Nat)
  | fenceWaitLimit (cid : Nat)
  | tenantCreate (cid : Nat)
  | tenantRemove (cid : Nat)
  | tenantRemoveComplete (cid : Nat)
  | keyInstall (cid : Nat) (block : BitVec 18688)
  | keyRotate (cid : Nat) (block : BitVec 18688)
  | restitchPage (half page : Nat)
  | attestQuote (cid : Nat) (nonce : BitVec 256)
  | partitionSet (cid : Nat) (block : BitVec 2048)
  | pairBind (cid : Nat)
  | pairBindComplete (cid : Nat) (q : PartnerQuote)
  | pairStatus (cid : Nat)
  | resilverStart (cid : Nat)
  | resilverPhaseComplete (bytes : Nat) (copy : Option Copied) (descs : Tbl (BitVec 256))
  | pairSwitchback (cid compared : Nat) (sent : List (Nat × Nat)) (taken diverged : List Record)
  | pairSwitchbackComplete (cid : Nat)
  | pairAudit (cid compared : Nat) (sent : List (Nat × Nat)) (taken diverged : List Record)
  | pairUnbind (cid : Nat)
  | fwWriteBlock (cid : Nat) (data : Nat)
  | fwVerify (cid : Nat)
  | fwActivateKeep (cid : Nat)
  | activationPauseEnd (formatOf : Nat) (changed : BitVec 16)
  | activationPauseTimeout
  | fwActivateFull (cid : Nat)
  | fwQuery (cid : Nat)
  | trialComplete
  | loopbackSet (cid : Nat)
  | loopbackEnd (cid : Nat) (mismatched compared : Nat)
  | traceConfig (cid : Nat)
  | bobbinRead (cid : Nat)
  | counterRead (cid : Nat)
  | counterArm (cid : Nat)
  | counterDisarm (cid : Nat)
  | marginScan (cid : Nat)
  | selftestRun (cid : Nat)
  | powerOn
  | start (env : StartEnv) (formatOf : Nat) (changed : BitVec 16)
  | startComplete
  | startFailure
  | startRetry
  | startStageTimeout (row : Nat)
  | startFailsClear
  | perstAssert
  | perstDeassert
  | hotReset
  | linkDisable
  | linkUp (speed width : Nat)
  | functionLevelReset
  | d3hotEntry
  | d3hotTaken
  | d3hotExit
  | busMasterDisable
  | busMasterEnable
  | feedPresent (feed : Bool) (mv : Nat)
  | feedLost (feed : Bool) (otherMv : Nat)
  | holdUpEnd
  | latchOpen
  | slotIdChange (pins : BitVec 4)
  | syspllLockLoss
  | refclkFail
  | livenessMark (processor : Nat)
  | wedge
  | watchdogReset
  | heartbeatSend
  | halyardAFrameRx (frame : BitVec 256)
  | halyardBFrameRx (idles : Nat) (chars : List (Bool × Byte))
  | partnerLost
  | mirrorRecordRx (r : Record)
  | recordAckRx (commitSeq : Nat)
  | recordAckTimeout
  | setupAppliedReport (cid : Nat) (applied : Bool)
  | mirrorLinkLost
  | recoveryWindowClose (half : Nat)
  | sensorSample (readings : List (Option Int))
  | throttleRelease (core : Nat)
  | migrationReturn (pattern : Nat)
  | powerWindow (slow : Bool) (milliwatts : Nat) (coreW blockW : List Nat) (feedMv : Nat × Nat)
  | powerStepDown (mean100us : Nat)
  | powerStepUp
  | flowSample (mlPerMin : Option Nat)
  | flowCapUpdate (meanMlPerMin : Nat)
  | orderlyShutdownDrainEnd
  | coolantHoldEnd
  | coolantHoldTimeout
  | droopStretch (core : Nat)
  | marginWindowEnd (supplyMv slackPs : List Nat)
  | opticalSample (tx rx : List Int)
  | lpddrRefresh (channel : Nat)
  | retraining (channel : Nat) (ok : Bool) (eye : Option (Nat × Nat))
  | halfMapRebuilt (half : Nat)
  | eccWindowEnd
  | lpddrScrub (channel line : Nat) (r : LineRead)
  | sramScrub (unit word : Nat) (r : EccResult) (sentinelSlot : Option Nat)
  | flashPatrol (pattern block : Nat) (r : EccResult) (heavy : Bool)
  | eccRepairComplete (half unit arg : Nat)
  | dieLinkFault (l : DieLink)
  | halfFault (half : Nat)
  | haloRowWrite (path frame row layer bytes : Nat) (down : Bool) (data : Nat)
  | haloRowRead (path frame row layer : Nat)
  | frameEnd (pattern : Nat) (half : Nat) (spent : List Nat) (lastRow : Bool)
  | smbusIdentity
  | smbusState
  | smbusTime
  | smbusSensors (first count : Nat)
  | smbusPower
  | smbusBobbin (unit start count : Nat)
  | smbusAlertResponse
  | jtagChallenge
  | jtagUnlock (root : Nat) (key sig : Nat)
  | jtagOpen
  | traceCounterSample
  | traceSync
  | latchClose
  | pairBindTimeout (cid : Nat)
  | jtagFuseProgram (field : Nat) (value : Nat)
  | memoryErrorOnAccess (t : Option Target) (e : MemError)
  | channelPhyFault (channel : Nat)
  | selftestEnd (cid : Nat) (mismatches first : Nat)
  | fwBlockWritten (cid : Nat)
  | fwVerifyComplete (cid : Nat)
  | marginScanComplete (cid : Nat) (tx rx : List Int) (eyes : List (Nat × Nat))
  | mirrorLinkUp
deriving DecidableEq, Repr

end Sys2Proof
end

