-- ==== Sys2Proof/Decode.lean ====
section
/-! DEFINITION. Words of the opcode table. -/
namespace Sys2Proof

/-- The command that a word spells by the table's bits. Every row of the table is an event with no bits (its `fields` are
empty), so no word spells one. -/
def decodeTableWord (_nbits _w : Nat) : Option Instr := none

end Sys2Proof
end

