-- ==== Sys2Proof/Config.lean ====
section
/-! DEFINITION. What the spec leaves to the implementation or leaves open. Every constant here that has no body is a
free value: a claim holds whatever it is (notes/assumptions 5, 6, 15). -/
namespace Sys2Proof.Config

/-- A value the spec does not state, one for each number (the step reads and advances `State.free`). -/
opaque freeValue : Nat → BitVec 64

/-- What a reserved BAR0 offset reads as (00 R6), by offset and time. -/
opaque reservedRead : Nat → Nat → BitVec 64

/-- What the reserved bits of a register of BAR0 read as (00 R6), by offset and time. -/
opaque reservedBits : Nat → Nat → BitVec 64

/-- The reserved bits of REPLY_FLAGS (00 R6), by queue and count of the reply. -/
opaque replyReserved : Nat → Nat → BitVec 16

/-- SHA3-256 of the `n` bytes held, little-endian, in a number. -/
opaque sha3 : (n : Nat) → (data : Nat) → BitVec 256

/-- ML-DSA-65 verification with an empty context string: public key, message digest, signature. -/
opaque mldsaVerify : (key : Nat) → (digest : BitVec 256) → (sig : Nat) → Bool

/-- The DIK public key and a DIK signature of a digest (09 Table 9-2, R280). -/
opaque dikSign : (seed : BitVec 256) → (digest : BitVec 256) → Nat

/-- ML-KEM-768 encapsulation key of a key pair (09 Table 9-2). -/
opaque kemEk : (seed : BitVec 256) → Nat

/-- ML-KEM-768 decapsulation: the shared secret. -/
opaque kemDecaps : (seed : BitVec 256) → (ct : Nat) → BitVec 256

/-- Opening of an AES-256-GCM object: key, nonce, additional data, `n` bytes of ciphertext, tag. -/
opaque gcmOpen : (key : BitVec 256) → (nonce : Nat) → (aad : Nat) → (n : Nat) → (ct : Nat) → (tag : Nat) → Option Nat

/-- Sealing of an AES-256-GCM object: key, nonce, additional data, `n` bytes of plaintext; the ciphertext and, above it, the tag. -/
opaque gcmSeal : (key : BitVec 256) → (nonce : Nat) → (aad : Nat) → (n : Nat) → (pt : Nat) → Nat

/-- The `n`-th output of the DRBG since the entropy source was last seeded (09 R278). -/
opaque drbg : Nat → BitVec 512

/-- INT32 shifts (0 left, 1 right, 2 arithmetic right) by 32 or more, which 04 Table 4-6 leaves open. -/
opaque longShift : Nat → BitVec 32 → BitVec 32 → BitVec 32

/-- The L2 norm of a gradient is rounded up, of the two FP32 values beside it (05 Table 5-13 gives no rounding). -/
opaque normUp : List (BitVec 32) → Bool

/-- EXP2, LOG2, RCP and RSQRT of a binary32 pattern as computed; the model takes it where it lies within the bounds of 04 Table 4-7. -/
opaque exp2Approx : BitVec 32 → BitVec 32
@[inherit_doc exp2Approx] opaque log2Approx : BitVec 32 → BitVec 32
@[inherit_doc exp2Approx] opaque rcpApprox : BitVec 32 → BitVec 32
@[inherit_doc exp2Approx] opaque rsqrtApprox : BitVec 32 → BitVec 32

/-- The motion entry of a block that is intra, with no motion (07 R232); R222 gives its 16 bytes and no coding. -/
opaque intraMotion : BitVec 128

/-- The mean QP of a frame is rounded up, by the sum and number of its block QPs; 07 Table 7-12 gives no rounding. -/
opaque meanQpUp : Int → Nat → Bool

/-- The FP32 entry of a test bias (table 2 to 15, bucket) carried in the firmware image (11 R343). -/
opaque testBias : Nat → Nat → BitVec 32

/-- The DIK certificate and the manufacturing CA certificate as kept in boot NOR (09 R279): length, and bytes as a number. -/
opaque dikCert : Nat × Nat
@[inherit_doc dikCert] opaque caCert : Nat × Nat

/-- The module is a CZ-SK8-AM, the coated variant (00 R1). -/
opaque coated : Bool

/-- Half store bytes of working state one request of a pattern (index, half) keeps while it is in flight: activations and
pricking stores, which Adtoic declares in blocks the manual does not describe (03 R111, 08 R258). -/
opaque workingState : Nat → Nat → Nat

/-- Core store bytes of a pattern's part on a logical core of its plan, which Adtoic declares likewise (12 R379). -/
opaque corePart : Nat → Nat → Nat

/-- How a read of a line with more than three symbols in error ends, by their number; 08 R244 says nothing of more than three. -/
opaque manySymbols : Nat → EccResult

/-- The flash channel on which the store placed block 0 of a pattern's image (08 R260). -/
opaque flashChannel : Nat → Nat

/-- Samples per second that the loop-back of the video engines takes; the manual gives its picture size and no rate (14 Table 14-1). -/
opaque loopRate : Nat

/-- Reference buffers an encoder keeps, less 1, by width, height and bits; the manual does not state their number
(notes/assumptions 30). -/
opaque encoderBuffers : Nat → Nat → Nat → Nat

end Sys2Proof.Config
end

