-- ==== Sys2Proof/Machine/Crc.lean ====
section
/-! DEFINITION. The CRC-32C of 08 R264 over bytes held little-endian in a number. -/
namespace Sys2Proof.Machine

/-- One bit of the reflected Castagnoli division (08 R264). -/
def crcBit (c : Nat) : Nat := if c % 2 = 1 then (c >>> 1) ^^^ 0x82F63B78 else c >>> 1

/-- One byte folded into the remainder. -/
def crcByte (c b : Nat) : Nat :=
  crcBit (crcBit (crcBit (crcBit (crcBit (crcBit (crcBit (crcBit (c ^^^ b))))))))

/-- The first `n` bytes of `data` folded into the remainder `c`. -/
def crcLoop : Nat → Nat → Nat → Nat
  | 0, _, c => c
  | n + 1, data, c => crcLoop n (data >>> 8) (crcByte c (data % 256))

/-- CRC-32C of the `n` bytes of `data`: initial value and final XOR 0xFFFF_FFFF (08 R264). -/
def crc32c (n data : Nat) : Nat := crcLoop n data 0xFFFFFFFF ^^^ 0xFFFFFFFF

end Sys2Proof.Machine
end

