-- ==== Sys2Proof/Machine/State.lean ====
section
/-! DEFINITION. The state of the module: every register, table, buffer and mode the spec names, as plain data, and the
queue of waiting commands. INVENTORY.md lists each field with the rule that names it. -/
namespace Sys2Proof.Machine

/-- The machine stops. -/
inductive Fault where
  /-- Raised by REGISTER_WRITE for an offset that is not naturally aligned (02 R32 forbids the access to the host and gives
  it no effect). Safe: the hardware may go on. -/
  | misalignedAccess
deriving DecidableEq, Repr

/-- No meaning. -/
inductive Refusal where
  /-- Raised by exec's arm of a command that has no meaning yet. Safe. -/
  | notModelled (mnemonic : String)
deriving DecidableEq, Repr

/-! ### Clock, link and BAR0 (01 R23-R26, 02 Tables 2-1 to 2-12, 13 R389-R396) -/

structure Clocks where
  localTime : Tick
  shadow    : Option (BitVec 32)
  sclk      : Bool
  syspll    : Bool
deriving DecidableEq, Repr

/-- Power state of the function (13 R393); `entering` holds the tick of the PowerState write. -/
inductive DState where
  | d0
  | entering (t0 : Tick)
  | d3hot
deriving DecidableEq, Repr

structure Link where
  perst     : Bool
  up        : Bool
  disabled  : Bool
  busMaster : Bool
  dstate    : DState
  speed     : Nat
  width     : Nat
  msixTable : Tbl (BitVec 128)
  pba       : List Nat
  slotPins  : BitVec 4
  slotId    : BitVec 4
  latchOpen : Bool
deriving DecidableEq, Repr

structure Bar where
  adminBase : BitVec 64
  sizeLog2  : BitVec 5
  enable    : Bool
  replyBase : BitVec 64
  dropCount : Nat
  dropRing  : BitVec 20
  dropCause : BitVec 8
deriving DecidableEq, Repr

/-- STATE of DEVICE_STATE (02 Table 2-4). -/
inductive DevState where
  | booting | ready | degraded | updating | halfMast | shutdown
deriving DecidableEq, Repr

/-- Reasons of a failed start (02 Table 2-5, 11 Table 11-3). -/
inductive Reason where
  | none | fwSig | fwCheck | lpddrTrain | selftestArray | selftestAttn | fuseError | configDiverged | thermal | powerFeed
  | watchdog
deriving DecidableEq, Repr

/-- What began a shutdown: a command, the latch, entry to D3hot, or falling flow (02 R74, 12 R382, 13 R387 R393). -/
inductive StopBy where
  | cmd (cid : Nat) | latch | d3hot | flow
deriving DecidableEq, Repr

/-- A start in progress (11 R340): its t1, the failure it ran into, and the row of Table 11-2 that overruns. -/
structure StartRun where
  t1   : Tick
  fail : Option Reason
  overrun : Option Nat
deriving DecidableEq, Repr

/-- The module as a whole (02 Tables 2-4, 2-5, 11 R340-R358); `format` is the configuration format of the running image (11 R363). -/
structure Dev where
  on          : Bool
  state       : DevState
  resetSource : Nat
  activeSlot  : Nat
  format      : Nat
  startDue    : Bool
  start       : Option StartRun
  retryAt     : Option Tick
  watchdogReset : Bool
  serviceSince : Option Tick
  stopping    : Option StopBy
  latchDue    : Bool
  update      : Option (Nat × Tick)
deriving DecidableEq, Repr

/-! ### Rings, queues and commands (02) -/

/-- A slot read that has been issued (02 R55). -/
structure SlotRead where
  ring     : Nat
  order    : Nat
  doorbell : Tick
  isReq    : Bool
deriving DecidableEq, Repr

/-- A bound reply queue (02 R41-R45). `unread` lists the written replies the host has not consumed, oldest first, true for an event. -/
structure RQueue where
  base     : Nat
  sizeLog2 : Nat
  msix     : Bool
  vector   : Nat
  tailAddr : Nat
  tail     : Nat
  unread   : List Bool
  reserved : Nat
  lastTick : Option Tick
deriving DecidableEq, Repr

/-- What a final reply brings about when the arbiter accepts it; `cancelled` counts in the REQ_CANCEL that submitted it. -/
inductive OnAccept where
  | none
  | applyConfig
  | appliqueCurrent (index : Nat)
  | keyCurrent (tenant : Nat)
  | resetModule (source : Nat)
  | endShutdown
  | cancelled (cid : Nat)
deriving DecidableEq, Repr

/-- A candidate final reply waiting at the arbiter (03 R92, Table 3-8). -/
structure Cand where
  target : Target
  gen    : Nat
  queue  : Nat
  tag    : BitVec 64
  seqNo  : BitVec 32
  status : Status
  flags  : BitVec 16
  detail : Nat
  value  : BitVec 64
  tick   : Tick
  sweep  : Bool
  act    : OnAccept
deriving DecidableEq, Repr

/-- An event (02 Tables 2-17, 2-18). -/
structure Event where
  code   : Nat
  object : Nat
  status : Status
  detail : Nat
  value  : BitVec 64
deriving DecidableEq, Repr

/-- The reply arbiter and the events of queue 0 (02 R45, R46). -/
structure Arbiter where
  cands   : List Cand
  events  : List Event
  backlog : List Event
  lost    : Nat
deriving DecidableEq, Repr

/-- A command other than a request between fetch and final reply, or a request before admission. -/
inductive Phase where
  /-- waits under ORDERED (02 R59) -/
  | ordered
  /-- may begin -/
  | ready
  /-- has begun -/
  | begun
  /-- its final reply has been submitted -/
  | replied
deriving DecidableEq, Repr

/-- Commands in flight are numbered from 1: where a field names a command, 0 names none. `given` is the active's outcome, for a
command that a standby applies from a SETUP record (10 R304). -/
structure Cmd where
  ring     : Nat
  order    : Nat
  pkt      : Packet
  doorbell : Tick
  tenant   : Option Nat
  queue    : Nat
  phase    : Phase
  since    : Tick
  keyGen   : Nat
  partner  : Bool
  given    : Option (Status × Nat × BitVec 64)
  aux      : List Nat
deriving DecidableEq, Repr

/-! ### Requests, sentinel, fences, accounts (03, 02) -/

/-- A sentinel entry (03 R89); `lost` when both stored copies are uncorrectable (08 R257). -/
structure SEntry where
  gen      : Nat
  seqHandle : Nat
  queue    : Nat
  tag      : BitVec 64
  seqNo    : BitVec 32
  fallback : Option Tick
  cutoff   : Option Tick
  deepest  : Nat
  final    : Bool
  mirror   : Bool
  armed    : Bool
  lost     : Bool
deriving DecidableEq, Repr

/-- What a sweep leads to when it completes (03 Table 3-9, R97, 02 R73, 11 R345, 12 R380). -/
inductive AfterSweep where
  | nothing | resetModule (source : Nat) | cutHub
deriving DecidableEq, Repr

structure Sentinel where
  entries  : Tbl SEntry
  fallbacks : Nat
  hubStall : Bool
  alive    : Bool
  sweep    : Option AfterSweep
deriving DecidableEq, Repr

/-- Values staged by SET_CONFIG: (CONFIG_ID, value). -/
structure Cfg where
  live   : CfgVals
  staged : Tbl Nat
deriving DecidableEq, Repr

/-! ### Patterns, appliqués, sequences, pages (03, 05, 08, 09) -/

/-- What a page of LPDDR4X holds (05 R154 R155, 09 R287). -/
inductive PageUse where
  | kv (seqIdx layer number : Nat) (provisional hot : Bool)
  | pageList (seqIdx : Nat)
  | pattern (index : Nat)
  | applique (index version : Nat)
  | buffers (index : Nat)
  | pool (stream : Nat)
  | encoder (index : Nat)
  | scratch (slot layer number : Nat)
  | released
deriving DecidableEq, Repr

/-- An owned page with its tag (09 Table 9-11); an absent page is free. -/
structure Page where
  tenant    : Nat
  epoch     : Nat
  parity    : Nat
  restitching : Bool
  use       : PageUse
deriving DecidableEq, Repr

/-! ### Video (07) -/

/-- The picture an engine is decoding (07 R224, R231, R232): how many references were generated for it, whether a show_existing_frame shows
it, its headers, what its parameter set says, and whether that set and the frame shown were there. -/
structure Decoding where
  stream   : Nat
  cid      : Nat
  buffer   : Nat
  picture  : Nat
  start    : Tick
  generated : Nat
  showing  : Bool
  known    : Bool
  head     : PictureHead
  set      : ParamSet
deriving DecidableEq, Repr

/-! ### Security, tenants, pair (09, 10) -/

/-- The cells and the shadow of the fuse block (09 R272, Table 9-1). -/
structure Fuses where
  cellA  : BitVec 4096
  cellB  : BitVec 4096
  cellC  : BitVec 4096
  shadow : BitVec 4096
deriving DecidableEq, Repr

structure Security where
  dik         : Bool
  kem         : Option Nat
  draws       : Nat
  debugOpened : Bool
  jtagOpen    : Bool
  challenge   : Option (BitVec 256)
  challengeAt : Tick
deriving DecidableEq, Repr

inductive PairMode where
  | unpaired | activeStandby | resilvering | solo | degraded
deriving DecidableEq, Repr

inductive Role where
  | none | active | standby | spare
deriving DecidableEq, Repr

/-- What one halyard has heard: latched valid frames of the last 1,200 ticks, as (tick, PROGRESS), newest first. -/
abbrev Heard := List (Tick × Nat)

/-- A record sent and not yet acknowledged (10 R311), and what waits for it (R312, R313). -/
structure Unacked where
  commitSeq : Nat
  tick      : Tick
  onAck     : Option Cand
  fence     : Option (Nat × Nat × BitVec 64)
  cid       : Option Nat
deriving DecidableEq, Repr

/-- A RESULT or FINAL held by the standby for a mirrored request (10 R312, R313). -/
structure HeldResult where
  status : Status
  detail : Nat
  value  : BitVec 64
  committed : Nat
deriving DecidableEq, Repr

structure Pair where
  mode      : PairMode
  role      : Role
  partnerRole : Role
  pairId    : BitVec 32
  serial    : BitVec 128
  keyA      : Option (BitVec 256)
  keyB      : Option (BitVec 256)
  commitSeq : Nat
  unacked   : List Unacked
  offset    : Int
  heardA    : Heard
  heardB    : Heard
  since     : Tick
  partnerDying : Bool
  lastCause : Nat
  dyingSent : Option Nat
  leaves    : Bool
  copies    : Bool
  lastTakeover : Nat
  diverged  : Nat
  phase     : Nat
  storeLeft : Nat
  binding   : Option (Nat × Tick)
  resilver  : Option Nat
  switching : Option Nat
  handover  : Bool
  linkUp    : Bool
  nextBeat  : Tick
  held      : Tbl (Nat × BitVec 32)
  results   : Tbl HeldResult
  openCmds  : List (Nat × Nat × Nat × BitVec 64 × BitVec 32)
  setups    : List (Nat × BitVec 64 × BitVec 32)
  awaiting  : List (Nat × Cand)
  waiting   : List Record
  recordsSent : Nat
  progress  : Nat
  marks     : List Nat
  lastAdvance : Tick
  wedged    : Bool
deriving DecidableEq, Repr

/-! ### Boot NOR (11) -/

/-- A configuration copy (11 Table 11-11, R361, R362). -/
inductive CfgCopy where
  | blank
  | invalid
  | valid (format count : Nat) (items : Tbl Nat)
deriving DecidableEq, Repr

/-- A firmware slot: written blocks with the CRC-32C each was written with, the verified mark, the command acting on it. -/
structure FwSlot where
  blocks   : Tbl (Nat × BitVec 32)
  verified : Bool
  busy     : Option Nat
deriving DecidableEq, Repr

/-- The activation record (11 Table 11-6). -/
structure ActRecord where
  seqNo   : Nat
  slot    : Nat
  trial   : Bool
  aFailed : Bool
  bFailed : Bool
deriving DecidableEq, Repr

structure Nor where
  act        : Option ActRecord
  startFails : Nat
  lastReason : Reason
  copies     : List CfgCopy
  previous   : List CfgCopy
  slotA      : FwSlot
  slotB      : FwSlot
deriving DecidableEq, Repr

/-! ### Power, thermal control, memory, halves (12, 08, 01) -/

structure Feed where
  present : Bool
  mv      : Nat
deriving DecidableEq, Repr

structure Power where
  feedA   : Feed
  feedB   : Feed
  holdUp  : Option Tick
  pFast   : Nat
  pSlow   : Nat
  capMw   : Nat
  overs   : Nat
  underSince : Option Tick
  stepping : Bool
  steppedAt : Option Tick
  coreW   : List Nat
  blockW  : List Nat
  coarseW : Nat
  coarseAt : Tick
deriving DecidableEq, Repr

/-- Why a core is halted: Tj, a lost sensor pair, RESET_UNIT, a running self-test, a failed self-test (12 R375, R379, 14 R416). -/
inductive HaltCause where
  | tj | sensors | reset (cid : Nat) | test (cid : Nat) | failed
deriving DecidableEq, Repr

/-- A weight tile as the operand staging holds it: its mode, fold and format, and its elements and scale bytes as they are packed in the
core store (04 R128, R129, Table 4-3). -/
structure Tile where
  mode   : ArrayMode
  fold   : Fold
  fmt    : Elem
  elems  : Nat
  scales : Option Nat
deriving DecidableEq, Repr

/-- The two tiles of a sub-array: the one in use and the one loaded beside it, and the array cycles that the one in use has streamed (04 R128). -/
structure Staging where
  inUse : Option Tile
  next  : Option Tile
  streamed : Nat
deriving DecidableEq, Repr

/-- An edge register: 640 bits, the lowest of weight 2^−286, what NaN and infinities its products have held, and the running FP32 value
of the 16-bit path (04 R133, R137, Table 4-5). -/
structure Edge where
  sum  : BitVec 640
  nan  : Bool
  pinf : Bool
  ninf : Bool
  run  : Option (BitVec 32)
deriving DecidableEq, Repr

/-- A logical core: dividers, halt, sensors' verdicts, margins, and the contents of its store and registers (04 R133, R138,
R142) as sparse tables whose absent entries read zero: a byte of the store by address, a register by 64 × lane + register. `bias` are the
bias tables copied into its store (05 R166), `trees` the tree prickings of the requests it runs, one ancestor mask a candidate (05 R171). -/
structure Core where
  ceiling   : Nat
  powerDiv  : Nat
  halted    : Option HaltCause
  suspect   : Bool
  bothOut   : Bool
  differSince : Option Tick
  tj        : Int
  below     : Option Tick
  stretches : Nat
  stretchLast : Nat
  stretchCycles : Nat
  supplyMv  : Nat
  slackPs   : Nat
  store     : Tbl Byte
  vregs     : Tbl (BitVec 32)
  edge      : Tbl Edge
  tiles     : Tbl Staging
  bias      : Tbl (List (BitVec 32))
  trees     : Tbl (List (BitVec 64))
deriving DecidableEq, Repr

structure Hold where
  t0    : Tick
  bound : Bool
  okSince : Option Tick
deriving DecidableEq, Repr

structure Thermal where
  sensors : List (Option Int)
  flows   : List (Tick × Nat)
  outlets : List (Tick × Int)
  tripped : Option Nat
  hold    : Option Hold
  drain   : Option Tick
deriving DecidableEq, Repr

structure Channel where
  corrected : Nat
  uncorrectable : Nat
  retrainFails : Nat
  eyeW      : Nat
  eyeH      : Nat
  refreshAt : Tick
deriving DecidableEq, Repr

/-- LPDDR4X: `data` holds its bytes at half × 2^37 + half-local address, where they are not 0 (notes/assumptions 110). -/
structure Memory where
  inService : BitVec 128
  bridgeDown : Bool
  channels  : Tbl Channel
  badLines  : List (Nat × Nat)
  eccWindow : Tick
  eccClean  : Bool
  data      : Tbl Byte
deriving DecidableEq, Repr

/-- A pricking in a half's pricking store: of a PATTERN layer, or of a REQUEST layer for the request in a slot (05 Table 5-4); its length
and bytes. -/
structure PrickCopy where
  pattern : Nat
  slot    : Option Nat
  layer   : Nat
  bytes   : Nat × Nat
deriving DecidableEq, Repr

/-- A half: `store` holds the bytes of its half store by address, `hot` those of the half store copies of KV pages, by the address they
have in LPDDR4X (05 R156), `diagonal` the rows of the shared diagonal tile, none before it is built (05 R163, R169). -/
structure Half where
  faulted    : Bool
  heldBy     : Option Nat
  rebuilding : Bool
  window     : Bool
  store      : Tbl Byte
  hot        : Tbl Byte
  diagonal   : List (BitVec 512)
  pricks     : List PrickCopy
deriving DecidableEq, Repr

/-! ### Halo rows and stages (06) -/

structure HaloRow where
  frame : Nat
  row   : Nat
  layer : Nat
  bytes : Nat
  down  : Bool
  data  : Nat
deriving DecidableEq, Repr

/-- A halo path: FULL slots from the head, the producer's credits, and the last ROW sent in the frame (06 R200, Table 6-6). -/
structure HaloPath where
  slots   : Nat
  full    : List HaloRow
  credits : Nat
  last    : Option Nat
deriving DecidableEq, Repr

/-- A vision stage of a resident pattern: frame number, heights in force, core whose reduced plan runs (06 R202, R205, R207), the tick
its frame began unless every slot is EMPTY between two frames, the ticks each core has waited in it and since when one waits (06 R204, R206),
and whether the half has flushed an ended frame that another half has still to flush (06 R202). -/
structure Stage where
  frame   : Nat
  heights : List Nat
  reduced : Option Nat
  began   : Option Tick
  waited  : Tbl Nat
  waits   : Tbl Tick
  flushed : Bool
deriving DecidableEq, Repr

/-! ### Health, bobbins, counters, trace, service ports (14, 13) -/

/-- Margin windows (12 R385, 14 R425): whether a 1 s window of the current 3,600 s was beyond WARN or ACT, its start, the
latest optical samples, and how far the worst sample of the current 1 s window lies (0 within WARN, 1, 2 beyond ACT). -/
structure Margins where
  warnDirty : Bool
  actDirty  : Bool
  window    : Tick
  tx        : List Int
  rx        : List Int
  optical   : Nat
deriving DecidableEq, Repr

structure Health where
  bits    : BitVec 12
  margins : Margins
  alert   : Bool
deriving DecidableEq, Repr

structure BobRec where
  time    : Tick
  dropped : Nat
  code    : Nat
  arg     : Nat
deriving DecidableEq, Repr

/-- One unit's bobbin (14 R417): stored records newest first, count posted, waiting records oldest first, drops since. -/
structure Bobbin where
  recs   : List BobRec
  posted : Nat
  queue  : List BobRec
  drops  : Nat
deriving DecidableEq, Repr

structure Bobbins where
  units : Tbl Bobbin
  last  : Nat
deriving DecidableEq, Repr

structure Trace where
  on      : Bool
  flags   : Nat
  mask    : Nat
  period  : Nat
  sent    : Nat
  dropped : Nat
  nextSync : Tick
  nextSample : Tick
deriving DecidableEq, Repr

/-- A loop-back in progress (14 R412). -/
structure Loop where
  cid    : Nat
  iface  : Nat
  depth  : Nat
  target : Nat
  until_ : Tick
deriving DecidableEq, Repr

structure Service where
  tallies : Tbl Nat
  prof    : Option (Tbl Nat)
  trace   : Trace
  loops   : List Loop
  bias     : Tbl (List (BitVec 32))
  window  : Tbl Nat
  windowAt : Tick
deriving DecidableEq, Repr

/-- What the module has put out, oldest first: replies, tail and head words, messages and data written to host memory, BAR0
read data, frames and records to the partner, SMBus and JTAG data, trace records, UART lines. -/
inductive Tx where
  | reply (queue slot : Nat) (bytes : BitVec 256)
  | tailWord (addr count : Nat)
  | headWord (addr count : Nat)
  | msix (vector : Nat)
  | host (addr len data : Nat)
  | barRead (v : BitVec 64)
  | halyardA (frame : BitVec 256)
  | halyardB (frame : BitVec 128) (cutsShort : Bool)
  | record (nonce : Nat) (r : Record)
  | copied (c : Copied)
  | ack (commitSeq : Nat)
  | applied (ring : Nat) (tag : BitVec 64) (ok : Bool)
  | smbus (len data : Nat)
  | smbusNak
  | jtag (challenge : BitVec 256)
  | jtagStatus (opened : Bool)
  | trace (lane : Nat) (record : BitVec 128)
  | uart (code arg : Nat)
deriving DecidableEq, Repr

/-- The module. -/
structure State where
  clk     : Clocks
  link    : Link
  bar     : Bar
  dev     : Dev
  rings   : Tbl Ring
  served  : List Nat
  reads   : List SlotRead
  queues  : Tbl RQueue
  arb     : Arbiter
  cmds    : Tbl Cmd
  nextCid : Nat
  reqs    : Tbl Req
  reqGens : Tbl Nat
  nextReq : Nat
  sent    : Sentinel
  fences  : Tbl Fence
  fenceGens : Tbl Nat
  accts   : Tbl Account
  cfg     : Cfg
  pats    : Tbl Pattern
  patGens : Tbl Nat
  sliceAt : Option Tick
  apps    : Tbl Applique
  appGens : Tbl Nat
  seqs    : Tbl Sequence
  seqGens : Tbl Nat
  pages   : Tbl Page
  streams : Tbl Stream
  streamGens : Tbl Nat
  engines : Tbl Decoding
  encs    : Tbl Encoder
  encGens : Tbl Nat
  encoding : Tbl Nat
  fuses   : Fuses
  sec     : Security
  tenants : Tbl Tenant
  parts   : Option (List PartEntry)
  pair    : Pair
  nor     : Nor
  power   : Power
  cores   : List Core
  thermal : Thermal
  mem     : Memory
  halves  : List Half
  halo    : Tbl HaloPath
  stages  : Tbl Stage
  health  : Health
  bob     : Bobbins
  svc     : Service
  tx      : List Tx
  free    : Nat
  pending : List Instr
deriving DecidableEq, Repr

/-! ### Reset -/

def Clocks.reset : Clocks := { localTime := 0, shadow := none, sclk := true, syspll := true }

/-- 13 R389: PERST# is asserted until the host drives it high (notes/assumptions 9). -/
def Link.reset : Link :=
  { perst := true, up := false, disabled := false, busMaster := false, dstate := .d0, speed := 0, width := 0,
    msixTable := [], pba := [], slotPins := 0, slotId := 0, latchOpen := false }

def Bar.reset : Bar :=
  { adminBase := 0, sizeLog2 := 0, enable := false, replyBase := 0, dropCount := 0, dropRing := 0, dropCause := 0 }

def Dev.reset : Dev :=
  { on := true, state := .booting, resetSource := 0, activeSlot := 0, format := 1, startDue := true, start := none,
    retryAt := none, watchdogReset := false, serviceSince := none, stopping := none, latchDue := false, update := none }

def Sentinel.reset : Sentinel := { entries := [], fallbacks := 0, hubStall := false, alive := false, sweep := none }

/-- The defaults of 02 Table 2-31. -/
def CfgVals.defaults : CfgVals := { guard := 2000, slice := 10, scrub := 24, mask := 0 }

def Security.reset : Security :=
  { dik := false, kem := none, draws := 0, debugOpened := false, jtagOpen := false, challenge := none, challengeAt := 0 }

def Pair.reset : Pair :=
  { mode := .unpaired, role := .none, partnerRole := .none, pairId := 0, serial := 0, keyA := none, keyB := none, commitSeq := 0, unacked := [],
    offset := 0, heardA := [], heardB := [], since := 0, partnerDying := false, lastCause := 0, dyingSent := none,
    leaves := false, copies := false, lastTakeover := 0, diverged := 0, phase := 0, storeLeft := 0, binding := none, resilver := none,
    switching := none, handover := false, linkUp := false, nextBeat := 0, held := [], results := [], openCmds := [],
    setups := [], awaiting := [], waiting := [], recordsSent := 0, progress := 0, marks := [], lastAdvance := 0, wedged := false }

/-- The fuse bits of the model's module: DEPLOYED, PARTITION_ALLOWED, 8 partitions, DEBUG_POLICY AUTH, PAIR_POLICY OPEN, West
P4 and East P0 disabled (01 Table 1-4, first module), all strings zero, FUSE_CRC correct (notes/assumptions 8). -/
def fuseBitsBase : Nat :=
  2 ^ 1219 + 2 ^ 1222 + 3 * 2 ^ 1223 + 2 ^ 1225 + 2 ^ 1236 + 2 ^ 1237

/-- The bits FUSE_CRC covers, packed (09 Table 9-1): [1151:0], then [1535:1222]. -/
def fuseCrcInput (bits : Nat) : Nat := bits % 2 ^ 1152 + (bits >>> 1222) % 2 ^ 314 * 2 ^ 1152

def Fuses.reset : Fuses :=
  let b := BitVec.ofNat 4096 (fuseBitsBase + crc32c 184 (fuseCrcInput fuseBitsBase) * 2 ^ 1536)
  { cellA := b, cellB := b, cellC := b, shadow := 0 }

def FwSlot.empty : FwSlot := { blocks := [], verified := false, busy := none }

/-- Boot NOR as the model's module leaves the factory: configuration erased (11 R362), record naming slot A, slots as
notes/assumptions 8 says. -/
def Nor.reset : Nor :=
  { act := some { seqNo := 1, slot := 0, trial := false, aFailed := false, bFailed := false }, startFails := 0,
    lastReason := .none, copies := [.blank, .blank, .blank], previous := [.blank, .blank, .blank],
    slotA := { FwSlot.empty with verified := true }, slotB := FwSlot.empty }

def Power.reset : Power :=
  { feedA := { present := true, mv := 54000 }, feedB := { present := true, mv := 54000 }, holdUp := none, pFast := 0,
    pSlow := 0, capMw := 1300000, overs := 0, underSince := none, stepping := false, steppedAt := none, coreW := List.replicate 8 0,
    blockW := List.replicate 6 0, coarseW := 0, coarseAt := 0 }

def Core.reset : Core :=
  { ceiling := 4, powerDiv := 4, halted := none, suspect := false, bothOut := false, differSince := none, tj := 1600,
    below := none, stretches := 0, stretchLast := 0, stretchCycles := 0, supplyMv := 750, slackPs := 60, store := [],
    vregs := [], edge := [], tiles := [], bias := [], trees := [] }

/-- Sensors 0x00 to 0x33 in units of 1/64 °C, flow in 0.001 L/min (notes/assumptions 10). -/
def Thermal.reset : Thermal :=
  { sensors := (List.range 52).map fun i => some (if i = 0x32 then 3000 else 1600), flows := [], outlets := [],
    tripped := none, hold := none, drain := none }

def Memory.reset : Memory :=
  { inService := BitVec.allOnes 128, bridgeDown := false, channels := [], badLines := [], eccWindow := 0, eccClean := true, data := [] }

def Half.reset : Half :=
  { faulted := false, heldBy := none, rebuilding := false, window := false, store := [], hot := [], diagonal := [], pricks := [] }

def Margins.reset : Margins :=
  { warnDirty := false, actDirty := false, window := 0, tx := List.replicate 8 (-100), rx := List.replicate 8 (-245),
    optical := 0 }

def Trace.off : Trace :=
  { on := false, flags := 0, mask := 0, period := 0, sent := 0, dropped := 0, nextSync := 0, nextSample := 0 }

def Service.reset : Service :=
  { tallies := [], prof := none, trace := Trace.off, loops := [], bias := [],
    window := [], windowAt := 0 }

/-- The module right after module power-good: SCLK runs, LOCAL_TIME is 0, DEVICE_STATE is BOOTING, nothing has started. -/
def State.reset : State :=
  { clk := Clocks.reset, link := Link.reset, bar := Bar.reset, dev := Dev.reset, rings := [], served := [0, 0, 0, 0],
    reads := [], queues := [], arb := { cands := [], events := [], backlog := [], lost := 0 }, cmds := [], nextCid := 1,
    reqs := [], reqGens := [], nextReq := 0, sent := Sentinel.reset, fences := [], fenceGens := [], accts := [],
    cfg := { live := CfgVals.defaults, staged := [] }, pats := [], patGens := [], sliceAt := none, apps := [],
    appGens := [], seqs := [], seqGens := [], pages := [], streams := [], streamGens := [], engines := [], encs := [],
    encGens := [], encoding := [], fuses := Fuses.reset, sec := Security.reset, tenants := [], parts := none, pair := Pair.reset,
    nor := Nor.reset, power := Power.reset, cores := List.replicate 8 Core.reset, thermal := Thermal.reset,
    mem := Memory.reset, halves := [Half.reset, Half.reset], halo := [], stages := [],
    health := { bits := 0, margins := Margins.reset, alert := false }, bob := { units := [], last := 0x1D },
    svc := Service.reset, tx := [], free := 0, pending := [] }

end Sys2Proof.Machine
end

