-- ==== Sys2Proof/Machine/Ops.lean ====
section
/-! DEFINITION. Named operations over the state: sparse tables, byte fields, what leaves the module, bobbins, events,
health bits, candidates and final replies, records to the partner, pages, and the module reset. -/
namespace Sys2Proof.Machine

/-! ### Sparse tables -/

/-- The entry of a key. -/
def tget {α : Type} : Tbl α → Nat → Option α
  | [], _ => none
  | (j, v) :: t, k => if j = k then some v else tget t k

/-- The entry of a key, or the table's default. -/
def tgetD {α : Type} (t : Tbl α) (k : Nat) (d : α) : α := (tget t k).getD d

/-- The table with the entry of a key set. -/
def tset {α : Type} : Tbl α → Nat → α → Tbl α
  | [], k, v => [(k, v)]
  | (j, w) :: t, k, v =>
    if k < j then (k, v) :: (j, w) :: t else if k = j then (k, v) :: t else (j, w) :: tset t k v

/-- The table without the entry of a key. -/
def tdel {α : Type} (t : Tbl α) (k : Nat) : Tbl α := t.filter fun e => !decide (e.1 = k)

/-- The table with the entry of a key changed, where it has one. -/
def tmod {α : Type} (t : Tbl α) (k : Nat) (f : α → α) : Tbl α :=
  match tget t k with
  | some v => tset t k (f v)
  | none => t

/-- The table with every entry changed. -/
def tmap {α : Type} (t : Tbl α) (f : Nat → α → α) : Tbl α := t.map fun e => (e.1, f e.1 e.2)

/-- Keys rise strictly: the canonical form of a sparse table. -/
def twf {α : Type} (t : Tbl α) : Bool := decide (t.Pairwise fun a b => a.1 < b.1)

/-- The lowest key below `n` that has no entry. -/
def tfree {α : Type} (t : Tbl α) (n : Nat) : Option Nat :=
  ((List.range (min n (t.length + 1))).filter fun k => (tget t k).isNone).head?

/-! ### Byte fields and packing (00 R5: little-endian) -/

/-- The `len` bytes from offset `off` of `b`. -/
def bytesAt {n : Nat} (b : BitVec n) (off len : Nat) : Nat := (b.toNat >>> (8 * off)) % 2 ^ (8 * len)

/-- Bits [hi:lo] of a number. -/
def bitsOf (v hi lo : Nat) : Nat := (v >>> lo) % 2 ^ (hi + 1 - lo)

/-- Bit `i` of a number. -/
def bitOf (v i : Nat) : Bool := v.testBit i

/-- Fields of given byte lengths laid out from the lowest address. -/
def pack : List (Nat × Nat) → Nat
  | [] => 0
  | (len, v) :: r => v % 2 ^ (8 * len) + pack r * 2 ^ (8 * len)

/-- The byte length of packed fields. -/
def packLen (l : List (Nat × Nat)) : Nat := (l.map Prod.fst).sum

/-! ### Codes -/

/-- 02 Table 2-27. -/
def statusCode : Status → Nat
  | .done => 0x0000 | .doneAtHem => 0x0001 | .deadlineFallback => 0x0010 | .deadlineUnreachable => 0x0011
  | .budgetExhausted => 0x0020 | .tableFull => 0x0021 | .badOpcode => 0x0030 | .badParam => 0x0031
  | .badState => 0x0032 | .dataError => 0x0040 | .integrityMismatch => 0x0041 | .tenantGone => 0x0050
  | .keyStale => 0x0051 | .accessDenied => 0x0052 | .stateLost => 0x0060 | .diverged => 0x0061
  | .thermalAbort => 0x0070 | .powerAbort => 0x0071 | .cancelled => 0x0080 | .busy => 0x0090
  | .fwCheckFail => 0x00A0 | .fwSigFail => 0x00A1 | .fwRollbackRefused => 0x00A2 | .halfMast => 0x00F0

/-- 02 Table 2-4. -/
def stateCode : DevState → Nat
  | .booting => 0 | .ready => 1 | .degraded => 2 | .updating => 3 | .halfMast => 4 | .shutdown => 5

/-- 02 Table 2-5. -/
def reasonCode : Reason → Nat
  | .none => 0 | .fwSig => 1 | .fwCheck => 2 | .lpddrTrain => 3 | .selftestArray => 4 | .selftestAttn => 5
  | .fuseError => 6 | .configDiverged => 7 | .thermal => 8 | .powerFeed => 9 | .watchdog => 10

/-- 10 Table 10-1. -/
def modeCode : PairMode → Nat
  | .unpaired => 0 | .activeStandby => 1 | .resilvering => 2 | .solo => 3 | .degraded => 4

/-- 02 Table 2-10. -/
def roleCode : Role → Nat
  | .none => 0 | .active => 1 | .standby => 2 | .spare => 3

/-- 03 Table 3-2. -/
def reqStateCode : ReqState → Nat
  | .admitted => 1 | .queued => 2 | .running => 3 | .preempted => 4 | .verifying => 5 | .replied => 6 | .retiring => 7

/-- The order of 03 Table 3-8 among candidates of one handle in one tick. -/
def candRank : Status → Nat
  | .done | .doneAtHem => 1
  | .dataError | .integrityMismatch | .keyStale => 2
  | .tenantGone => 3
  | .stateLost | .diverged => 4
  | .cancelled => 5
  | _ => 6

/-- 03 Table 3-2, column In flight. -/
def inFlightState : ReqState → Bool
  | .running | .preempted | .verifying => true
  | _ => false

/-- States from ADMITTED to VERIFYING (03 R77). -/
def liveState : ReqState → Bool
  | .replied | .retiring => false
  | _ => true

/-! ### Small state access -/

/-- LOCAL_TIME. -/
def now (s : State) : Tick := s.clk.localTime

def emit (x : Tx) (s : State) : State := { s with tx := s.tx ++ [x] }

/-- Data written to host memory for a command; memory requests stop while Bus Master Enable is 0 (13 R394). -/
def writeHost (addr len data : Nat) (s : State) : State :=
  if s.link.busMaster then emit (.host addr len (data % 2 ^ (8 * len))) s else s

/-- The next free value (notes/assumptions 6). -/
def freeWord (s : State) : BitVec 64 := Config.freeValue s.free

def stepFree (s : State) : State := { s with free := s.free + 1 }

/-- The `k`-th of the free values a report uses for its reserved bytes. -/
def spare (s : State) (k : Nat) : Nat := (Config.freeValue (s.free + k)).toNat

/-- The free values of a report are used up. -/
def useSpares (n : Nat) (s : State) : State := { s with free := s.free + n }

def coreOf (s : State) (k : Nat) : Core := s.cores.getD k Core.reset

def modCore (k : Nat) (f : Core → Core) (s : State) : State :=
  { s with cores := s.cores.set k (f (coreOf s k)) }

def halfOf (s : State) (h : Nat) : Half := s.halves.getD h Half.reset

def modHalf (h : Nat) (f : Half → Half) (s : State) : State :=
  { s with halves := s.halves.set h (f (halfOf s h)) }

/-- The half of a logical core (01 R11). -/
def halfOfCore (k : Nat) : Nat := k / 4

/-- 12 R368: the larger of the two dividers. -/
def divider (c : Core) : Nat := max c.ceiling c.powerDiv

/-- The contents of a core's store, registers, tiles and edge are gone. -/
def Core.wiped (c : Core) : Core := { c with store := [], vregs := [], edge := [], tiles := [], bias := [], trees := [] }

/-- 01 R18: in service unless faulted, held by RESET_UNIT or rebuilding its map. -/
def halfInService (s : State) (h : Nat) : Bool :=
  let x := halfOf s h
  !x.faulted && x.heldBy.isNone && !x.rebuilding

def modReq (slot : Nat) (f : Req → Req) (s : State) : State := { s with reqs := tmod s.reqs slot f }
def modCmd (cid : Nat) (f : Cmd → Cmd) (s : State) : State := { s with cmds := tmod s.cmds cid f }
def modRing (r : Nat) (f : Ring → Ring) (s : State) : State := { s with rings := tmod s.rings r f }
def modEntry (slot : Nat) (f : SEntry → SEntry) (s : State) : State :=
  { s with sent := { s.sent with entries := tmod s.sent.entries slot f } }
def modSeq (i : Nat) (f : Sequence → Sequence) (s : State) : State := { s with seqs := tmod s.seqs i f }
def modPat (i : Nat) (f : Pattern → Pattern) (s : State) : State := { s with pats := tmod s.pats i f }
def modApp (i : Nat) (f : Applique → Applique) (s : State) : State := { s with apps := tmod s.apps i f }
def modStream (i : Nat) (f : Stream → Stream) (s : State) : State := { s with streams := tmod s.streams i f }
def modPair (f : Pair → Pair) (s : State) : State := { s with pair := f s.pair }
def modNor (f : Nor → Nor) (s : State) : State := { s with nor := f s.nor }
def modDev (f : Dev → Dev) (s : State) : State := { s with dev := f s.dev }

/-- A module of a bound pair (10 Table 10-1). -/
def bound (s : State) : Bool := s.pair.mode != .unpaired

/-- The hub runs: powered, and REFCLK and SCLK with it (01 R24, 12 R380). -/
def hubOn (s : State) : Bool := s.dev.on && s.clk.sclk

/-- DEVICE_STATE is READY or DEGRADED. -/
def serving (s : State) : Bool := s.dev.state == .ready || s.dev.state == .degraded

/-- 08 R254, 01 R9, R18: what puts a serving module in DEGRADED. -/
def impaired (s : State) : Bool :=
  s.halves.any (·.faulted) || s.mem.bridgeDown || decide (s.mem.inService ≠ BitVec.allOnes 128)

/-- A loop-back of Table 14-1 holds an interface, which serves nothing else (14 R412); PCIe depth 1 runs beside service. -/
def looped (s : State) (iface target : Nat) : Bool :=
  s.svc.loops.any fun l => l.iface = iface && l.target = target && !(l.iface = 0 && l.depth = 1)

/-- A loop-back holds a flash channel: images, which lie on all of them, wait (08 R260, 14 R412). -/
def flashLooped (s : State) : Bool := (List.range 16).any fun c => looped s 5 c

/-! ### Bobbins and counters (14 R417-R419) -/

/-- The bobbin of a unit. -/
def bobOf (s : State) (unit : Nat) : Bobbin :=
  tgetD s.bob.units unit { recs := [], posted := 0, queue := [], drops := 0 }

/-- A unit posts an event into its queue of 16 records; a record that finds it full is dropped (14 R417). -/
def bobPost (unit code arg : Nat) (s : State) : State :=
  let b := bobOf s unit
  let b' := if b.queue.length < 16 then
      { b with queue := b.queue ++ [{ time := now s, dropped := 0, code := code, arg := arg }] }
    else { b with drops := b.drops + 1 }
  { s with bob := { s.bob with units := tset s.bob.units unit b' } }

/-- A 64-bit counter's key: its ID and INDEX (14 Table 14-8). -/
def ctr (id index : Nat) : Nat := id * 65536 + index

/-- A fault tally rises. -/
def tally (id index n : Nat) (s : State) : State :=
  let k := ctr id index
  { s with svc := { s.svc with tallies := tset s.svc.tallies k ((tgetD s.svc.tallies k 0 + n) % 2 ^ 64) } }

/-- A profiling counter rises while armed (14 R419, R420). -/
def profile (id index n : Nat) (s : State) : State :=
  match s.svc.prof with
  | none => s
  | some p => { s with svc := { s.svc with prof := some (tset p (ctr id index) ((tgetD p (ctr id index) 0 + n) % 2 ^ 64)) } }

/-! ### Events and health (02 R46, 14 R424) -/

/-- Events of queue 0 that hold one of its 64 event slots: written and not consumed, or waiting at the arbiter. -/
def eventsHeld (s : State) : Nat :=
  s.arb.events.length + (((tget s.queues 0).map fun q => q.unread.count true).getD 0)

/-- Room for one more event in queue 0, which must be bound. -/
def eventRoom (s : State) : Bool := (tget s.queues 0).isSome && decide (eventsHeld s < 64)

/-- Once the held events have gone, EVENTS_LOST with the number discarded takes the next event slot, before any newer event (02
R46). -/
def postLost (s : State) : State :=
  if s.arb.backlog.isEmpty && s.arb.lost != 0 && eventRoom s then
    let e : Event := { code := 0xFF, object := 0, status := .done, detail := 0, value := BitVec.ofNat 64 s.arb.lost }
    { s with arb := { s.arb with events := s.arb.events ++ [e], lost := 0 } }
  else s

/-- The event is put to the arbiter, held in the backlog of 256, or discarded and counted (02 R46). -/
def holdEvent (e : Event) (s : State) : State :=
  if eventRoom s && s.arb.backlog.isEmpty then { s with arb := { s.arb with events := s.arb.events ++ [e] } }
  else if s.arb.backlog.length < 256 then { s with arb := { s.arb with backlog := s.arb.backlog ++ [e] } }
  else { s with arb := { s.arb with lost := s.arb.lost + 1 } }

/-- An event is posted behind those that wait and behind a pending EVENTS_LOST. -/
def putEvent (e : Event) (s : State) : State := holdEvent e (postLost s)

/-- EVENT_MASK suppresses codes 1 to 7 (02 R46, Table 2-31). -/
def masked (code : Nat) (s : State) : Bool := decide (1 ≤ code ∧ code ≤ 7) && s.cfg.live.mask.testBit (code - 1)

def putUnmasked (e : Event) (s : State) : State := if masked e.code s then s else putEvent e s

/-- A HEALTH_SUMMARY bit takes a value: SMB_ALERT# is asserted and HEALTH_CHANGE posted when it changes (13 R402, 14 R424). -/
def setBitOnly (i : Nat) (v : Bool) (s : State) : State :=
  if s.health.bits.getLsbD i = v then s
  else
    let b := if v then s.health.bits ||| BitVec.twoPow 12 i else s.health.bits &&& ~~~ BitVec.twoPow 12 i
    putUnmasked { code := 6, object := i, status := .done, detail := bit v, value := b.setWidth 64 }
      { s with health := { s.health with bits := b, alert := true } }

/-- EVENT_BACKLOG as the backlog stands. -/
def followBacklog (s : State) : State := setBitOnly 11 (!s.arb.backlog.isEmpty) s

/-- EVENT_BACKLOG follows the backlog (02 Table 2-11). The event of the change can itself go to the backlog, which sets the bit
again. -/
def refreshBacklog (s : State) : State := followBacklog (followBacklog s)

/-- A condition is posted as an event (02 R46). -/
def postEvent (code object detail : Nat) (value : BitVec 64) (status : Status) (s : State) : State :=
  refreshBacklog (putUnmasked { code := code, object := object, status := status, detail := detail, value := value } s)

def setHealth (i : Nat) (v : Bool) (s : State) : State := refreshBacklog (setBitOnly i v s)

/-- THROTTLED is 1 while any core runs above ÷4 (12 R368). -/
def refreshThrottled (s : State) : State :=
  setHealth 3 (s.cores.any fun c => c.halted.isNone && decide (4 < divider c)) s

/-- Every condition of HEALTH_SUMMARY that a start measures, in ascending bit order (02 R33, Table 2-11, 14 R424). -/
def measureHealth (s : State) : State :=
  let s := setHealth 2 (decide (s.power.capMw < 1300000))
    (setHealth 1 (!s.power.feedB.present) (setHealth 0 (!s.power.feedA.present) s))
  let s := setHealth 4 (s.cores.any (·.suspect)) (refreshThrottled s)
  setHealth 10 s.mem.bridgeDown (setHealth 6 (halfOf s 1).faulted (setHealth 5 (halfOf s 0).faulted s))

/-! ### DEVICE_STATE -/

/-- DEVICE_STATE changes: recorded, SMB_ALERT# asserted, a UART line sent (13 R402, R408, 14 Table 14-6). READY and DEGRADED
without interruption are timed (11 R346). -/
def setDevState (d : DevState) (s : State) : State :=
  if s.dev.state = d then s
  else
    let svc := d = .ready ∨ d = .degraded
    let since := if svc then (if serving s then s.dev.serviceSince else some (now s)) else none
    bobPost 0x10 0x0003 (stateCode d) (emit (.uart 0x0003 (stateCode d))
      { s with dev := { s.dev with state := d, serviceSince := since }, health := { s.health with alert := true } })

/-- READY or DEGRADED, as the module's parts stand. -/
def serviceState (s : State) : DevState := if impaired s then .degraded else .ready

def refreshService (s : State) : State := if serving s then setDevState (serviceState s) s else s

/-! ### Handles (03, 05, 07) -/

def reqHandle (gen slot : Nat) : Nat := slot + gen * 2 ^ 16
def seqHandle (gen i : Nat) : Nat := i + gen * 2 ^ 18
def patHandle (gen i : Nat) : Nat := i + gen * 2 ^ 16
def appHandle (gen i : Nat) : Nat := i + gen * 2 ^ 10
def streamHandle (gen i : Nat) : Nat := i + gen * 2 ^ 16

/-- The generation after `g`, from `m` to 1 and never to 0. -/
def nextGen (m g : Nat) : Nat := if g = m then 1 else g + 1

/-- Generations of a table's handles after the entries that satisfy a condition are freed. -/
def advanceGens {α : Type} (l : Tbl α) (gone : α → Bool) (gen : α → Nat) (top : Nat) (g : Tbl Nat) : Tbl Nat :=
  (l.filter fun e => gone e.2).foldl (fun g e => tset g e.1 (nextGen top (gen e.2))) g

/-- The largest generation of each handle: 15 bits of a pattern's, 14 of a sequence's (03, 05, 07). -/
def patTop : Nat := 65535
def seqTop : Nat := 16383
def streamTop : Nat := 65535

/-! ### Candidates and final replies (02 R45, 03 R92) -/

/-- DONE or DONE_AT_HEM. -/
def succeeds (st : Status) : Bool := st == .done || st == .doneAtHem

/-- A module that holds its partner's requests as mirrored copies (10 R314, R332). -/
def holdsCopy (s : State) : Bool := s.pair.role == .standby || s.pair.role == .spare || s.pair.copies

/-- 10 R322: a module that signalled DYING as ACTIVE writes no final reply for a request with MIRROR set; one that holds copies
writes none for any (R314). -/
def leftToPartner (s : State) (mirror : Bool) : Bool := (s.pair.leaves && mirror) || holdsCopy s

/-- A candidate is submitted to the arbiter. One for a handle whose FINAL bit is 1, or whose request is gone, is
discarded; a discarded DONE or DONE_AT_HEM counts in LATE_RESULTS (03 R92). -/
def submit (c : Cand) (s : State) : State :=
  match c.target with
  | .cmd cid => if (tget s.cmds cid).isSome then { s with arb := { s.arb with cands := s.arb.cands ++ [c] } } else s
  | .req slot =>
    match tget s.reqs slot with
    | none => s
    | some r =>
      if r.gen ≠ c.gen then s
      else if r.final.isSome then (if succeeds c.status then tally 0x0001 r.tenant 1 s else s)
      else if leftToPartner s r.mirror then s
      else { s with arb := { s.arb with cands := s.arb.cands ++ [c] } }

/-- The sequence handle of a request's reply, 0 without a sequence. -/
def reqSeqHandle (s : State) (r : Req) : Nat :=
  match r.seqIdx with
  | none => 0
  | some i => match tget s.seqs i with
    | some q => seqHandle q.gen i
    | none => 0

/-- VALUE of a request's reply (03 R84): request handle and sequence handle. -/
def reqValue (s : State) (slot : Nat) (r : Req) : BitVec 64 :=
  BitVec.ofNat 64 (reqHandle r.gen slot + reqSeqHandle s r * 2 ^ 32)

/-- TAKEN_OVER marks a reply to a command its partner fetched (10 R327). -/
def takenFlag (partner : Bool) : BitVec 16 := if partner then 1 else 0

/-- The tick in which a candidate reaches the arbiter: this one, unless the arbiter has already accepted a reply for its queue in
it (03 R93; notes/assumptions 50). -/
def arrival (s : State) (queue : Nat) : Tick :=
  now s + bit (((tget s.queues queue).bind (·.lastTick)) == some (now s))

/-- A candidate for a request from its table entry. -/
def reqCand (s : State) (slot : Nat) (r : Req) (st : Status) (detail : Nat) (value : BitVec 64) (flags : BitVec 16)
    (sweep : Bool) : Cand :=
  { target := .req slot, gen := r.gen, queue := r.queue, tag := r.tag, seqNo := r.seqNo, status := st,
    flags := flags ||| takenFlag r.partner, detail := detail, value := value, tick := arrival s r.queue, sweep := sweep, act := .none }

/-- A candidate with VALUE under 03 R84 is submitted for a request, where its slot holds one. -/
def endReq (slot : Nat) (st : Status) (detail : Nat) (s : State) : State :=
  match tget s.reqs slot with
  | none => s
  | some r => submit (reqCand s slot r st detail (reqValue s slot r) 0 false) s

/-- Several requests end alike. -/
def endReqs (slots : List Nat) (st : Status) (detail : Nat) (s : State) : State :=
  slots.foldl (fun s k => endReq k st detail s) s

/-- Several requests end alike, and their work stops. -/
def stopReqs (slots : List Nat) (st : Status) (detail : Nat) (s : State) : State :=
  slots.foldl (fun s k => endReq k st detail (modReq k (fun r => { r with stopped := true }) s)) s

/-- Slots of the requests in ADMITTED to VERIFYING that satisfy a condition. -/
def liveReqs (s : State) (p : Req → Bool) : List Nat :=
  (s.reqs.filter fun e => liveState e.2.st && p e.2).map Prod.fst

/-- A candidate for a command other than a request. -/
def cmdCand (s : State) (cid : Nat) (c : Cmd) (st : Status) (detail : Nat) (value : BitVec 64) (flags : BitVec 16)
    (act : OnAccept) : Cand :=
  { target := .cmd cid, gen := 0, queue := c.queue, tag := c.pkt.extractLsb' 64 64, seqNo := c.pkt.extractLsb' 32 32,
    status := st, flags := flags ||| takenFlag c.partner, detail := detail, value := value, tick := arrival s c.queue, sweep := false,
    act := act }

/-! ### Records to the partner (10 R309-R313) -/

/-- The active sends a record for every change while the partner keeps or is given a copy (10 R333, Table 10-1). -/
def mirroring (s : State) : Bool :=
  s.pair.role == .active && (s.pair.mode == .activeStandby || s.pair.mode == .resilvering)

/-- The burgee tag of a tenant's transfers (09 Table 9-12). -/
def burgee (s : State) (tenant : Option Nat) : BitVec 16 :=
  match tenant with
  | none => 0
  | some t => match tget s.tenants t with
    | none => 0
    | some x => BitVec.ofNat 16 (t * 2 ^ 13 + x.epoch * 2 ^ 5 + ((x.cur.map (·.num)).getD 0) % 2 * 2 ^ 4)

/-- KIND of a record (10 Table 10-6). -/
def recKind : RecBody → Nat
  | .fetch .. => 1 | .request .. => 2 | .result .. => 3 | .final .. => 4 | .kv .. => 5 | .sequence .. => 6 | .budget .. => 7
  | .fence .. => 8 | .setup .. => 9 | .command .. => 10

/-- The key under which COMMIT_SEQ and CRC of an object's latest record are held: KIND and KEY. -/
def objKey (kind key : Nat) : Nat := kind * 2 ^ 32 + key

/-- A record is sent with the next COMMIT_SEQ (10 R310), sealed under the nonce that counts the records sent in this direction (R301); the CRC over a payload whose layout the spec does not give is a
free value. `onAck` and `fence` are what its acknowledgement releases (10 R312, R313). -/
def sendRecord (body : RecBody) (key slot : Nat) (tenant : Option Nat) (onAck : Option Cand)
    (fence : Option (Nat × Nat × BitVec 64)) (cid : Option Nat) (s : State) : State :=
  let n := s.pair.commitSeq + 1
  let crc := (freeWord s).setWidth 32
  let r : Record :=
    { key := key, commitSeq := n, burgee := burgee s tenant, slot := slot, crc := crc, tagOk := true, crcOk := true,
      body := body }
  let u : Unacked := { commitSeq := n, tick := now s, onAck := onAck, fence := fence, cid := cid }
  stepFree (emit (.record s.pair.recordsSent r) { s with pair :=
    { s.pair with commitSeq := n, recordsSent := s.pair.recordsSent + 1, unacked := s.pair.unacked ++ [u], held := tset s.pair.held (objKey (recKind body) key) (n, crc) } })

/-- A record without a consequence, sent only while mirroring. -/
def tell (body : RecBody) (key slot : Nat) (tenant : Option Nat) (s : State) : State :=
  if mirroring s then sendRecord body key slot tenant none none none s else s

/-- A FENCE record for the present state of a fence (10 Table 10-6). -/
def tellFence (i : Nat) (s : State) : State :=
  match tget s.fences i with
  | some f => tell (.fence f.gen f.tenant f.value true) i 0 (some f.tenant) s
  | none => tell (.fence (tgetD s.fenceGens i 0) 0 0 false) i 0 none s

/-- A SEQUENCE record for the present state of a sequence (10 Table 10-6). -/
def tellSeq (i : Nat) (s : State) : State :=
  match tget s.seqs i with
  | some q => if q.mirrored then
      tell (.sequence q.gen (match q.st with | .open => 0 | .awaitingCommit => 1 | .broken => 2 | .closing => 3)
        q.committed q.pattern q.applique q.tenant) i 0 (some q.tenant) s else s
  | none => s

/-- A REQUEST record of a request's entry (10 Table 10-6). -/
def tellReq (slot : Nat) (s : State) : State :=
  match tget s.reqs slot with
  | none => s
  | some r =>
      let e := tget s.sent.entries slot
      let m : MirrorReq :=
        { entry := r, seqHandle := reqSeqHandle s r, fallback := e.bind (·.fallback), cutoff := e.bind (·.cutoff),
          balance := ((tget s.accts r.account).map (·.balance)).getD 0 }
      tell (.request m) slot r.order (some r.tenant) s

/-- Opcodes of class pair-applied (10 Table 10-4). -/
def pairApplied (op : Nat) : Bool :=
  [0x0004, 0x0005, 0x0006, 0x0007, 0x0008, 0x0101, 0x0102, 0x0103, 0x0104, 0x0105, 0x0106, 0x0107, 0x0204, 0x0205, 0x0207,
   0x0401, 0x0402, 0x0403, 0x0301, 0x0303, 0x0304, 0x0306, 0x0501, 0x0502, 0x0503, 0x0504, 0x0506].contains op

/-- Opcodes of class active only, on tenant rings (10 Table 10-4). -/
def activeOnly (op : Nat) : Bool := [0x0302, 0x0305, 0x0404, 0x0206, 0x0505, 0x0804].contains op

/-- OPCODE of a packet (02 Table 2-13). -/
def opcodeOf (p : Packet) : Nat := bytesAt p 0 2

/-- The handle that the active gave a command's object, on a standby that applies it (10 R305). -/
def givenHandle (s : State) (cid : Nat) : Option Nat :=
  ((tget s.cmds cid).bind (·.given)).map fun g => g.2.2.toNat % 2 ^ 32

/-- The index a new object takes: the lowest free one (notes/assumptions 12), or the active's. -/
def pickSlot {α : Type} (s : State) (cid : Nat) (t : Tbl α) (n : Nat) : Option Nat :=
  match givenHandle s cid with
  | some h => if (tget t (h % n)).isNone then some (h % n) else none
  | none => tfree t n

/-- Its generation: the index's next one, or the active's, which stands `shift` bits up in the handle. -/
def pickGen (s : State) (cid shift next : Nat) : Nat :=
  match givenHandle s cid with
  | some h => h >>> shift
  | none => next

/-- A command other than a request ends: its candidate is submitted, or, for a pair-applied command of an active module, a
SETUP record is sent and the candidate waits for the report of its application (10 R304). On the standby that applies a command
the candidate waits to be reported. -/
def finish (cid : Nat) (st : Status) (detail : Nat) (value : BitVec 64) (flags : BitVec 16) (act : OnAccept)
    (s : State) : State :=
  match tget s.cmds cid with
  | none => s
  | some c =>
    let k := cmdCand s cid c st detail value flags act
    let s := modCmd cid (fun c => { c with phase := .replied }) s
    let wait := { s with pair := { s.pair with awaiting := s.pair.awaiting ++ [(cid, k)] } }
    if c.given.isSome then wait
    else if mirroring s && pairApplied (opcodeOf c.pkt) then
      sendRecord (.setup c.pkt 0 st detail value true) c.ring c.order c.tenant none none (some cid) wait
    else submit k s

/-- DONE with DETAIL and VALUE. -/
def done (cid detail : Nat) (value : BitVec 64) (s : State) : State := finish cid .done detail value 0 .none s

/-- A refusal with DETAIL. -/
def refuse (cid : Nat) (st : Status) (detail : Nat) (s : State) : State := finish cid st detail 0 0 .none s

/-- Numbers of the commands in flight that have no final reply submitted and satisfy a condition. -/
def openCmds (s : State) (p : Cmd → Bool) : List Nat :=
  (s.cmds.filter fun e => e.2.phase != .replied && p e.2).map Prod.fst

def refuseAll (cids : List Nat) (st : Status) (detail : Nat) (s : State) : State :=
  cids.foldl (fun s c => refuse c st detail s) s

/-! ### Sweeps (03 R96) -/

/-- The armed entries in ascending order of fallback tick, entries without a deadline last. -/
def insertBy {α : Type} (le : α → α → Bool) (x : α) : List α → List α
  | [] => [x]
  | y :: t => if le x y then x :: y :: t else y :: insertBy le x t

/-- Insertion sort, stable. -/
def sortBy {α : Type} (le : α → α → Bool) : List α → List α
  | [] => []
  | x :: t => insertBy le x (sortBy le t)

/-- Earlier or equal, absent last. -/
def tickLe : Option Tick → Option Tick → Bool
  | some a, some b => decide (a ≤ b)
  | some _, none => true
  | none, some _ => false
  | none, none => true

/-- An entry the sentinel watches. -/
def armedEntry (e : SEntry) : Bool := e.armed && !e.final && !e.lost

def sweepOrder (s : State) : List (Nat × SEntry) :=
  sortBy (fun a b => tickLe a.2.fallback b.2.fallback) (s.sent.entries.filter fun e => armedEntry e.2)

/-- VALUE from the handles in the sentinel's own entry (03 R95). -/
def entryValue (slot : Nat) (e : SEntry) : BitVec 64 := BitVec.ofNat 64 (reqHandle e.gen slot + e.seqHandle * 2 ^ 32)

/-- A candidate the sentinel makes from its own entry. -/
def sentinelCand (s : State) (slot : Nat) (e : SEntry) (st : Status) (detail : Nat) (sweep : Bool) : Cand :=
  { target := .req slot, gen := e.gen, queue := e.queue, tag := e.tag, seqNo := e.seqNo, status := st,
    flags := takenFlag (((tget s.reqs slot).map (·.partner)).getD false), detail := detail, value := entryValue slot e,
    tick := arrival s e.queue, sweep := sweep, act := .none }

/-- What follows when sweeps overlap: a trip overrides the others, a reset a mere sweep (12 R383). -/
def strongest (old : Option AfterSweep) (new : AfterSweep) : AfterSweep :=
  match old, new with
  | some .cutHub, _ => .cutHub
  | some (.resetModule k), .nothing => .resetModule k
  | _, x => x

/-- A sentinel sweep begins: one candidate for every armed entry (03 R96); `after` is what follows its end (03 R97). DETAIL of a
DEADLINE_FALLBACK carries DEEPEST_HEM (03 R95). -/
def sweep (st : Status) (detail : Nat) (after : AfterSweep) (s : State) : State :=
  (sweepOrder s).foldl (fun s (e : Nat × SEntry) =>
      submit (sentinelCand s e.1 e.2 st (if st = .deadlineFallback then detail + e.2.deepest * 256 else detail) true) s)
    { s with sent := { s.sent with sweep := some (strongest s.sent.sweep after) } }

/-! ### Pages (08 R240, 09 R287) -/

/-- The key of page `p` of half `h`. -/
def pageKey (h p : Nat) : Nat := h * 2 ^ 21 + p

/-- Channels of a half in service. -/
def channelsIn (s : State) (h : Nat) : Nat :=
  ((List.range 64).filter fun i => s.mem.inService.getLsbD (64 * h + i)).length

/-- Pages of a half: 1.875 GiB per channel in service (08 R240). -/
def halfPages (s : State) (h : Nat) : Nat := channelsIn s h * 30720

/-- Owned pages of a half that satisfy a condition. -/
def ownedPages (s : State) (h : Nat) (p : Page → Bool) : Nat :=
  (s.pages.filter fun e => decide (e.1 / 2 ^ 21 = h) && p e.2).length

/-- The partition of a tenant. -/
def partOf (s : State) (t : Nat) : Option PartEntry := s.parts.bind fun l => l[t]?

/-- Bytes of a half store that a tenant may use: all of it, or its partition's share. DESIGN CHOICE (notes/assumptions 123): the shares lie in
the order of the partitions. -/
def halfShare (s : State) (t h : Nat) : Nat × Nat :=
  let size := fun (e : PartEntry) => (if h = 0 then e.hsWest else e.hsEast) * 2 ^ 20
  match s.parts with
  | none => (0, 256 * 2 ^ 20)
  | some l =>
    let start := ((l.take t).map size).sum
    (start, start + ((l[t]?).map size).getD 0)

/-- Pages a tenant may still take in a half: what is free, within its partition's quota (09 R290). -/
def freePages (s : State) (h t : Nat) : Nat :=
  let free := halfPages s h - ownedPages s h (fun _ => true)
  match partOf s t with
  | none => free
  | some e => min free ((if h = 0 then e.pagesWest else e.pagesEast) - ownedPages s h (fun p => decide (p.tenant = t)))

/-- The tag of a page newly owned by a tenant: its epoch and the parity of its current generation (09 Table 9-11). -/
def newPage (s : State) (t : Nat) (use : PageUse) : Page :=
  let x := tget s.tenants t
  { tenant := t, epoch := (x.map (·.epoch)).getD 0, parity := ((x.bind (·.cur)).map (·.num)).getD 0 % 2,
    restitching := false, use := use }

/-- The lowest free pages of a half, as many as there are uses (the choice is notes/assumptions 12). -/
def freeNumbers (s : State) (h n : Nat) : List Nat :=
  ((List.range (s.pages.length + n)).filter fun p => (tget s.pages (pageKey h p)).isNone).take n

/-- Pages are allocated to a tenant, one for each use. -/
def allocPages (h t : Nat) (uses : List PageUse) (s : State) : State :=
  let add := fun (tb : Tbl Page) (e : Nat × PageUse) => tset tb (pageKey h e.1) (newPage s t e.2)
  { s with pages := ((freeNumbers s h uses.length).zip uses).foldl add s.pages }

/-- The bytes of LPDDR4X, and of half store copies, in some pages are gone. -/
def zeroPages (gone : Nat → Bool) (s : State) : State :=
  { s with mem := { s.mem with data := s.mem.data.filter fun e => !gone (e.1 / 65536) }
           halves := s.halves.map fun x => { x with hot := x.hot.filter fun e => !gone (e.1 / 65536) } }

/-- A generation is held: by a page tagged with it or a command bound to it. -/
def genHeld (s : State) (t : Nat) (g : KeyGen) : Bool :=
  (s.pages.any fun e => e.2.tenant = t && e.2.parity = g.num % 2) ||
    (s.reqs.any fun e => e.2.tenant = t && e.2.keyGen = g.num) ||
    (s.cmds.any fun e => e.2.tenant == some t && e.2.keyGen = g.num &&
      (opcodeOf e.2.pkt = 0x0302 || opcodeOf e.2.pkt = 0x0305))

/-- A previous generation that is no longer held is zeroised, and KEY_GEN_RETIRED posted (09 R297). -/
def retireKeys (t : Nat) (s : State) : State :=
  match tget s.tenants t with
  | none => s
  | some x =>
    match x.prev with
    | none => s
    | some g =>
      if genHeld s t g then s
      else postEvent 5 t 0 (BitVec.ofNat 64 g.num) .done
        { s with tenants := tset s.tenants t { x with prev := none } }

/-- Every tenant's previous generation that is no longer held is retired. -/
def retireAll (s : State) : State := (s.tenants.map Prod.fst).foldl (fun s t => retireKeys t s) s

/-- Pages of a tenant that are written under its current generation, those still tagged with the previous one being restitched first (09
R296). -/
def restitchPages (hit : Nat → Bool) (t : Nat) (s : State) : State :=
  match tget s.tenants t with
  | none => s
  | some x =>
    match x.prev, x.cur with
    | some g, some c =>
      if c.num % 2 = g.num % 2 then s
      else
        let one := fun (k : Nat) (p : Page) =>
          if hit k && p.tenant = t && p.parity = g.num % 2 then { p with parity := c.num % 2, restitching := false } else p
        retireKeys t { s with pages := tmap s.pages one }
    | _, _ => s

/-- Pages whose use satisfies a condition are zeroed and freed. -/
def freePagesOf (p : PageUse → Bool) (s : State) : State :=
  let gone := (s.pages.filter fun e => p e.2.use).map Prod.fst
  retireAll (zeroPages gone.contains { s with pages := s.pages.filter fun e => !p e.2.use })

def countPages (p : PageUse → Bool) (s : State) : Nat := (s.pages.filter fun e => p e.2.use).length

/-- Pages of released objects of a tenant being removed stay owned until they are zeroed (09 R293 step 6). -/
def releasePagesOf (p : PageUse → Bool) (s : State) : State :=
  { s with pages := tmap s.pages fun _ x => if p x.use then { x with use := .released } else x }

/-- A FREE buffer of a pool (07 Table 7-5). -/
def emptyBuf : Buf :=
  { shortRef := false, longRef := false, outPend := false, hold := 0, picture := none, order := 0, window := 0,
    replied := false, feed := none, grey := false, data := 0, bits := 8, colour := 0, full := false }

/-! ### Pattern summary (03 Table 3-14) -/

def sumField (p : Pattern) (off len : Nat) : Nat := bytesAt p.summary off len

def fwMajor (p : Pattern) : Nat := sumField p 0x00 2
def form (p : Pattern) : Nat := sumField p 0x02 1
def usesHalf (p : Pattern) (h : Nat) : Bool := (sumField p 0x03 1).testBit h
def hemCount (p : Pattern) : Nat := sumField p 0x04 1
def stagedBytes (p : Pattern) : Nat := sumField p 0x08 8
def sramOf (p : Pattern) (h : Nat) : Nat := sumField p (0x10 + 4 * h) 4
def minFull (p : Pattern) : Nat := sumField p 0x18 4
def hemLead (p : Pattern) : Nat := sumField p 0x1C 4
def minHemTicks (p : Pattern) (n : Nat) : Nat := sumField p (0x20 + 4 * (n - 1)) 4
def outBytesOf (p : Pattern) : Nat := sumField p 0x3C 4
def unitTokens (p : Pattern) : Nat := sumField p 0x40 4
def adaptFixed (p : Pattern) : Nat := sumField p 0x44 4
def adaptPos (p : Pattern) : Nat := sumField p 0x48 4
def hemTokens (p : Pattern) : Nat := sumField p 0x4C 4

/-- Resident: pinned or in the rotation (03 R112). -/
def resident (p : Pattern) : Bool := p.res != .none

/-- A pattern without a training head declares both figures as 0 (03 Table 3-11). -/
def trains (p : Pattern) : Bool := adaptFixed p != 0 || adaptPos p != 0

/-- Purely causal (05 R167): every attention layer has source CAUSAL. -/
def purelyCausal (p : Pattern) : Bool := p.plan.attn.all fun l => l.source == .causal

/-- Requests against a pattern that are not FREE. -/
def reqsOf (s : State) (pat : Nat) : List Nat := (s.reqs.filter fun e => e.2.pattern = pat).map Prod.fst

/-- The stages of patterns that leave residence go, with their halo rows (06 Table 6-5, R202). -/
def dropStages (gone : Nat → Bool) (s : State) : State :=
  { s with stages := s.stages.filter fun e => !gone (e.1 / 2), halo := s.halo.filter fun e => !gone (e.1 / 4096) }

/-! ### Keys -/

/-- Every key but DIK's seed in the fuses is lost: BUF_KEY, OUT_KEY, PAGE_KEY and KEM key (09 R278). -/
def zeroKeys (t : Tenant) : Tenant := { t with cur := none, prev := none, next := none }

/-- 14 Table 14-14: key zeroisation in every key slot. -/
def zeroAllKeys (s : State) : State :=
  { s with tenants := tmap s.tenants fun _ t => zeroKeys t, sec := { s.sec with kem := none } }

/-- The start of the 3,600 s window that a tick lies in, counted from power-on (08 R247; LOCAL_TIME is 0 there, 01 R25). -/
def windowStart (t : Tick) : Tick := t / 360000000000 * 360000000000

/-! ### Module reset (02 R33, R73) -/

/-- A stored pattern keeps its image in the model store and nothing else (01 R19, 02 R73). -/
def unstage (p : Pattern) : Pattern :=
  { p with staged := false, res := .none, sram := false, leaving := false, want := none, staging := none,
           loading := none, evicting := none, migrated := [] }

/-- A module reset: every register of BAR0 but BOOT_REASON and LOCAL_TIME returns to its reset value; rings, bindings, fences,
accounts, tenants, keys, resident patterns, staged configuration and the binding to a partner are lost (02 R33, R69, R73, 09
R278, R281, 10 R299). Kept: LOCAL_TIME (01 R25), fuses, boot NOR, stored patterns, bobbins (14 R417), feeds and sensors,
DEBUG_OPENED (09 R277). A start is then due (11 R340). -/
def moduleReset (source : Nat) (s : State) : State :=
  let r := State.reset
  let s' : State :=
  { r with clk := { s.clk with syspll := true },
           link := { s.link with msixTable := [], pba := [], dstate := .d0 },
           dev := { r.dev with on := s.dev.on, resetSource := source, activeSlot := s.dev.activeSlot, format := s.dev.format,
                               watchdogReset := decide (source = 5) },
           pats := tmap s.pats fun _ p => unstage p, patGens := s.patGens,
           fuses := s.fuses,
           sec := { r.sec with draws := s.sec.draws, debugOpened := s.sec.debugOpened, jtagOpen := s.sec.jtagOpen },
           pair := { r.pair with linkUp := s.pair.linkUp, lastAdvance := now s },
           nor := { s.nor with slotA := { s.nor.slotA with busy := none }, slotB := { s.nor.slotB with busy := none } },
           power := { s.power with overs := 0, underSince := none, stepping := false, steppedAt := none },
           cores := s.cores.map fun c => { Core.reset with suspect := c.suspect, tj := c.tj, bothOut := c.bothOut },
           thermal := { s.thermal with tripped := none, hold := none, drain := none },
           mem := { s.mem with channels := [], bridgeDown := false, badLines := [], eccWindow := windowStart (now s), eccClean := true, data := [] },
           health := { r.health with alert := true, margins := { r.health.margins with window := windowStart (now s) } },
           bob := s.bob, svc := { r.svc with tallies := s.svc.tallies }, tx := s.tx, free := s.free, pending := s.pending }
  bobPost 0x10 0x0003 0 (emit (.uart 0x0003 0) s')

/-- Every outstanding command ends without a reply (13 R393): what a reset from the link does. -/
def linkReset (source : Nat) (s : State) : State := moduleReset source s

end Sys2Proof.Machine
end

