-- ==== Sys2Proof/Machine/Layout.lean ====
section
/-! DEFINITION. Bytes of a store, and how tensors lie in them: element planes, scale planes, planar and interleaved images (04 R125, 06
R186, R187). -/
namespace Sys2Proof.Machine

/-! ### Byte tables: a store lists the bytes that are not 0 -/

/-- The byte at an address. -/
def byteAt (t : Tbl Byte) (a : Nat) : Byte := tgetD t a 0

/-- The canonical form of a byte table: addresses rise, and no entry is 0. -/
def bytesWf (t : Tbl Byte) : Bool := twf t && t.all fun e => e.2 != 0

/-- LPDDR4X is in canonical form. A byte that nothing has written since power-up, or whose contents were lost, reads 0 (DESIGN CHOICE,
notes/assumptions 110). -/
def Memory.wf (m : Memory) : Bool := bytesWf m.data

/-- `n` bytes from an address as a little-endian number (00 R5). -/
def readBytes (t : Tbl Byte) (a n : Nat) : Nat :=
  ((t.filter fun e => decide (a ≤ e.1 ∧ e.1 < a + n)).map fun e => e.2.toNat * 2 ^ (8 * (e.1 - a))).sum

/-- The entries of `n` bytes of a number from an address, zeros left out. -/
def byteCells (a n data : Nat) : Tbl Byte :=
  (List.range n).filterMap fun i =>
    let b := BitVec.ofNat 8 (data >>> (8 * i))
    if b = 0 then none else some (a + i, b)

/-- `n` bytes of a number written from an address on. -/
def writeBytes (t : Tbl Byte) (a n data : Nat) : Tbl Byte :=
  (t.filter fun e => decide (e.1 < a)) ++ byteCells a n data ++ (t.filter fun e => decide (a + n ≤ e.1))

/-- A number with `n` bytes from byte `off` on replaced. -/
def setBytes (data off n v : Nat) : Nat :=
  data % 2 ^ (8 * off) + v % 2 ^ (8 * n) * 2 ^ (8 * off) + (data >>> (8 * (off + n))) * 2 ^ (8 * (off + n))

/-- Byte strings, each a number of bytes and those bytes, one after another. -/
def joinBytes (l : List (Nat × Nat)) : Nat × Nat :=
  l.foldl (fun a e => (a.1 + e.1, a.2 + e.2 % 2 ^ (8 * e.1) * 2 ^ (8 * a.1))) (0, 0)

/-! ### Element and scale planes (04 R123, R125) -/

/-- Bits of an element. Packed from the lowest address, little-endian, 6-bit elements lie four to three bytes and 4-bit elements two to a
byte. -/
def Elem.bits : Elem → Nat
  | .e3m2 | .e2m3 => 6
  | .e2m1 | .mxint4 => 4
  | .fp16 | .bf16 => 16
  | .fp32 => 32
  | _ => 8

/-- Bytes of an element plane of `n` elements, and where the scale plane after it starts. -/
def planeBytes (k : Elem) (n : Nat) : Nat := ceilDiv (Elem.bits k * n) 8
def scaleStart (k : Elem) (n : Nat) : Nat := roundUp (planeBytes k n) 64

/-- Element `i` of a plane given as a number, and a plane of elements. -/
def elemAt (k : Elem) (plane i : Nat) : Nat := (plane >>> (Elem.bits k * i)) % 2 ^ Elem.bits k
def packElems (k : Elem) (l : List Nat) : Nat := l.foldr (fun x a => x % 2 ^ Elem.bits k + a * 2 ^ Elem.bits k) 0

/-- A narrow tensor as it lies in memory: its element plane, and one scale byte per block of 32 in block order from the next 64-byte
boundary (04 R125). -/
def packTensor (k : Elem) (codes scales : List Nat) : Nat :=
  packElems k codes + (scales.foldr (fun x a => x % 256 + a * 256) 0) * 2 ^ (8 * scaleStart k codes.length)

/-- `n` elements with their scales, from an element plane and a scale plane given as numbers; without scales each block has 0x7F
(04 R123). -/
def unpackTensor (k : Elem) (n plane : Nat) (scales : Option Nat) : List (Nat × Nat) :=
  (List.range n).map fun i => ((match scales with
    | some z => (z >>> (8 * (i / 32))) % 256
    | none => 0x7F), elemAt k plane i)

/-! ### Pool buffers (07 R222): planes 0 to 2 are luma, Cb and Cr, plane 3 the motion area -/

/-- Bytes a sample for MAX_BITS. -/
def sampleBytes (bits : Nat) : Nat := if bits = 8 then 1 else 2

/-- PY and PC. -/
def planePitch (w bits p : Nat) : Nat := roundUp ((if p = 0 then w else w / 2) * sampleBytes bits) 64

/-- Where a plane starts in its buffer. -/
def poolPlane (w h bits p : Nat) : Nat := if p = 0 then 0 else h * planePitch w bits 0 + (p - 1) * (h / 2 * planePitch w bits 1)

/-- Size of one buffer in 64 KiB units. -/
def bufferUnits (w h bits : Nat) : Nat :=
  ceilDiv (poolPlane w h bits 3 + roundUp (16 * (ceilDiv w 16 * ceilDiv h 16)) 64) 65536

/-! ### Image tensors (06 R186, R187) -/

/-- An image tensor: channels, rows, columns, format, and whether it has scales. -/
structure Image where
  c : Nat
  h : Nat
  w : Nat
  fmt : Elem
  blocked : Bool
deriving DecidableEq, Repr

/-- Channels held: a block-scaled tensor is filled up to a multiple of 32. -/
def Image.held (m : Image) : Nat := if m.blocked then roundUp m.c 32 else m.c

/-- Bytes from one channel to the next in planar layout: each starts on a 64-byte boundary. -/
def Image.pitch (m : Image) : Nat := roundUp (planeBytes m.fmt (m.h * m.w)) 64

/-- Where in the layout an element lies: its byte and the bit in it; its scale byte. -/
def Image.bitOf (m : Image) (c y x : Nat) : Nat := 8 * (c * m.pitch) + Elem.bits m.fmt * (y * m.w + x)
def Image.scaleOf (m : Image) (c y x : Nat) : Nat := m.held * m.pitch + (c / 32 * m.h + y) * m.w + x

/-- Bytes of the whole tensor. -/
def Image.bytes (m : Image) : Nat := m.held * m.pitch + (if m.blocked then m.held / 32 * (m.h * m.w) else 0)

/-- The (scale, code) of an element, from a reader of bytes. -/
def Image.at (m : Image) (rd : Nat → Nat → Nat) (c y x : Nat) : Nat × Nat :=
  let b := m.bitOf c y x
  (if m.blocked then rd (m.scaleOf c y x) 1 else 0x7F, (rd (b / 8) 4 >>> (b % 8)) % 2 ^ Elem.bits m.fmt)

/-- Where an element lies in interleaved layout: the channels of each pixel adjacent, without scales (06 R187). -/
def interleavedBit (m : Image) (c y x : Nat) : Nat := Elem.bits m.fmt * ((y * m.w + x) * m.c + c)

/-- A planar image of an interleaved one, both as numbers. -/
def toPlanar (m : Image) (data : Nat) : Nat :=
  (List.range m.c).foldl (fun a c => (List.range m.h).foldl (fun a y => (List.range m.w).foldl (fun a x =>
    a + ((data >>> interleavedBit m c y x) % 2 ^ Elem.bits m.fmt) * 2 ^ m.bitOf c y x) a) a) 0

/-- The formats in which a host input may be interleaved (06 R187): without block scales. -/
def interleavedOk (k : Elem) (blocked : Bool) : Bool :=
  !blocked && (match k with
    | .int8 | .e4m3 | .e5m2 | .fp16 | .bf16 | .fp32 => true
    | _ => false)

end Sys2Proof.Machine
end

