-- ==== Sys2Proof/Machine/Numbers.lean ====
section
/-! DEFINITION. The arithmetic of the cores (04): element formats, exact accumulation and edge rounding, the 16-bit tree, FP32
operations, conversions, MX quantisation and the softmax steps. Values are exact dyadic numbers until the one rounding each
rule gives. -/
namespace Sys2Proof.Machine

/-! ### Exact values -/

/-- A number read from a format: NaN, an infinity, or ±m × 2^e. -/
inductive Val where
  | nan
  | inf (neg : Bool)
  | fin (neg : Bool) (m : Nat) (e : Int)
deriving DecidableEq, Repr

/-- Exponent bits, fraction bits and bias of a floating format; for the integer formats, their width and step exponent. -/
def Elem.shape : Elem → Nat × Nat × Nat
  | .e4m3 => (4, 3, 7) | .e5m2 => (5, 2, 15) | .e3m2 => (3, 2, 3) | .e2m3 => (2, 3, 1) | .e2m1 => (2, 1, 1)
  | .fp16 => (5, 10, 15) | .bf16 => (8, 7, 127) | .fp32 => (8, 23, 127) | .mxint8 => (8, 6, 0) | .mxint4 => (4, 2, 0)
  | .int8 => (8, 0, 0)

/-- Two's complement element formats. -/
def Elem.isInt : Elem → Bool
  | .mxint8 | .mxint4 | .int8 => true
  | _ => false

/-- LSB exponent and span of the narrow formats (04 Table 4-1). -/
def Elem.lsbSpan : Elem → Int × Nat
  | .e4m3 => (-9, 18) | .e5m2 => (-16, 32) | .e3m2 => (-4, 9) | .e2m3 => (-3, 6) | .e2m1 => (-1, 4) | .mxint8 => (-6, 8)
  | .mxint4 => (-2, 4) | .int8 => (0, 8) | _ => (0, 0)

/-- Window of exact accumulation within one pass (04 R131). -/
def window (mode4 : Bool) (a w : Elem) : Nat := 111 - (if mode4 then 10 else 9) - a.lsbSpan.2 - w.lsbSpan.2

/-- The number an integer code stands for, scaled (04 R124). -/
def intVal (w step code : Nat) : Val :=
  let i := signed w code
  .fin (decide (i < 0)) i.natAbs (-(step : Int))

/-- The number a code of a floating layout stands for, without infinities or NaN. -/
def floatVal (eb mb bias code : Nat) : Val :=
  let f := code % 2 ^ mb
  let x := code / 2 ^ mb % 2 ^ eb
  let neg := code / 2 ^ (mb + eb) % 2 = 1
  if x = 0 then .fin neg f (1 - (bias : Int) - mb) else .fin neg (f + 2 ^ mb) ((x : Int) - bias - mb)

/-- What a code of a format stands for (04 R122, Table 4-1). -/
def Elem.decode (k : Elem) (code : Nat) : Val :=
  let sh := k.shape
  if k.isInt then intVal sh.1 sh.2.1 code
  else
    let neg := code / 2 ^ (sh.1 + sh.2.1) % 2 = 1
    let top := code / 2 ^ sh.2.1 % 2 ^ sh.1 = 2 ^ sh.1 - 1
    let frac := code % 2 ^ sh.2.1
    match k with
    | .e4m3 => if top ∧ frac = 7 then .nan else floatVal 4 3 7 code
    | .e3m2 | .e2m3 | .e2m1 => floatVal sh.1 sh.2.1 sh.2.2 code
    | _ => if top then (if frac = 0 then .inf neg else .nan) else floatVal sh.1 sh.2.1 sh.2.2 code

/-! ### Rounding -/

/-- `m × 2^e` as a multiple of 2^q, to nearest, ties to even. -/
def roundAt (m : Nat) (e q : Int) : Nat :=
  if q ≤ e then m * 2 ^ (e - q).toNat
  else
    let sh := (q - e).toNat
    let t := m / 2 ^ sh
    let r := m % 2 ^ sh
    if 2 * r > 2 ^ sh ∨ (2 * r = 2 ^ sh ∧ t % 2 = 1) then t + 1 else t

/-- The magnitude code of a floating layout nearest to `m × 2^e`, subnormals kept; it may pass the largest finite code. -/
def roundMag (mb bias m : Nat) (e : Int) : Nat :=
  if m = 0 then 0
  else
    let emin : Int := 1 - (bias : Int) - mb
    let q := max ((Nat.log2 m : Int) + e - mb) emin
    roundAt m e q + (q - emin).toNat * 2 ^ mb

/-- The canonical NaN (04 R138). -/
def nan32 : BitVec 32 := 0x7FC00000

def signBit32 (neg : Bool) : Nat := if neg then 0x80000000 else 0

/-- One rounding to FP32 (04 R134, R138). -/
def round32 : Val → BitVec 32
  | .nan => nan32
  | .inf neg => BitVec.ofNat 32 (signBit32 neg + 0x7F800000)
  | .fin neg m e => BitVec.ofNat 32 (signBit32 neg + min (roundMag 23 127 m e) 0x7F800000)

def val32 (w : BitVec 32) : Val := Elem.fp32.decode w.toNat

/-! ### Exact sums and products -/

/-- ±m as an integer. -/
def sgn (neg : Bool) (m : Nat) : Int := if neg then -(m : Int) else m

/-- The exact sum of two finite values. -/
def addFin (n1 : Bool) (m1 : Nat) (e1 : Int) (n2 : Bool) (m2 : Nat) (e2 : Int) : Val :=
  let e := min e1 e2
  let v := sgn n1 m1 * 2 ^ (e1 - e).toNat + sgn n2 m2 * 2 ^ (e2 - e).toNat
  .fin (if v = 0 then n1 && n2 else decide (v < 0)) v.natAbs e

/-- The exact product; an infinity times a zero is NaN. -/
def mulVal : Val → Val → Val
  | .nan, _ => .nan
  | _, .nan => .nan
  | .inf a, .inf b => .inf (a != b)
  | .inf a, .fin b m _ => if m = 0 then .nan else .inf (a != b)
  | .fin a m _, .inf b => if m = 0 then .nan else .inf (a != b)
  | .fin a m e, .fin b n f => .fin (a != b) (m * n) (e + f)

/-- The exact sum; infinities of both signs give NaN. -/
def addVal : Val → Val → Val
  | .nan, _ => .nan
  | _, .nan => .nan
  | .inf a, .inf b => if a = b then .inf a else .nan
  | .inf a, .fin _ _ _ => .inf a
  | .fin _ _ _, .inf b => .inf b
  | .fin a m e, .fin b n f => addFin a m e b n f

/-! ### FP32 operations (04 Table 4-6) -/

/-- FMA with one rounding; ADD, SUB and MUL through it. -/
def fma32 (a b c : BitVec 32) : BitVec 32 := round32 (addVal (mulVal (val32 a) (val32 b)) (val32 c))
def add32 (a b : BitVec 32) : BitVec 32 := round32 (addVal (val32 a) (val32 b))
def neg32 (a : BitVec 32) : BitVec 32 := if val32 a = .nan then nan32 else a ^^^ 0x80000000
def abs32 (a : BitVec 32) : BitVec 32 := if val32 a = .nan then nan32 else a &&& 0x7FFFFFFF
def sub32 (a b : BitVec 32) : BitVec 32 := add32 a (neg32 b)
def mul32 (a b : BitVec 32) : BitVec 32 := round32 (mulVal (val32 a) (val32 b))

/-- The order of FP32 patterns other than NaN, −0 below +0. -/
def key32 (a : BitVec 32) : Int := if a.getLsbD 31 then -((a.toNat % 2 ^ 31 : Nat) : Int) - 1 else a.toNat

def isNan32 (a : BitVec 32) : Bool := val32 a == .nan

/-- MIN and MAX: NaN if either input is. -/
def max32 (a b : BitVec 32) : BitVec 32 :=
  if isNan32 a || isNan32 b then nan32 else if key32 a < key32 b then b else a
def min32 (a b : BitVec 32) : BitVec 32 :=
  if isNan32 a || isNan32 b then nan32 else if key32 b < key32 a then b else a

/-- The numeric order: EQ, LT and LE are false of NaN, and the zeros are equal. -/
def zeroKey (a : BitVec 32) : Int := if a.toNat % 2 ^ 31 = 0 then 0 else if a.getLsbD 31 then key32 a + 1 else key32 a
def eq32 (a b : BitVec 32) : Bool := !isNan32 a && !isNan32 b && zeroKey a = zeroKey b
def lt32 (a b : BitVec 32) : Bool := !isNan32 a && !isNan32 b && decide (zeroKey a < zeroKey b)
def le32 (a b : BitVec 32) : Bool := !isNan32 a && !isNan32 b && decide (zeroKey a ≤ zeroKey b)

/-- `a` is less than `b`, exactly; the zeros are equal, and nothing is less than or above a NaN. -/
def valLt : Val → Val → Bool
  | .nan, _ => false
  | _, .nan => false
  | .inf a, .inf b => a && !b
  | .inf a, .fin _ _ _ => a
  | .fin _ _ _, .inf b => !b
  | .fin a m e, .fin b n f =>
    let g := min e f
    decide (sgn a m * 2 ^ (e - g).toNat < sgn b n * 2 ^ (f - g).toNat)

/-! ### Functions within their bounds (04 Table 4-7) -/

/-- An integer times a power of two. -/
def dyadic (v : Int) (e : Int) : Val := .fin (decide (v < 0)) v.natAbs e

/-- Exponent of the FP32 unit in the last place at `m × 2^e`. -/
def ulpExp (m : Nat) (e : Int) : Int := max ((Nat.log2 m : Int) + e - 23) (-149)

/-- `a` where it lies within `err × 2^q` of a number known to lie from `y × 2^e` to `(y + slack) × 2^e`; else that number rounded. -/
def nearTo (y : Int) (slack : Nat) (e : Int) (err : Nat) (q : Int) (a : BitVec 32) : BitVec 32 :=
  let g := min e q
  let d : Int := (err * 2 ^ (q - g).toNat : Nat)
  let lo := y * 2 ^ (e - g).toNat - d
  let hi := (y + slack) * 2 ^ (e - g).toNat + d
  match val32 a with
  | .fin n m f => if valLt (.fin n m f) (dyadic lo g) || valLt (dyadic hi g) (.fin n m f) then round32 (dyadic y e) else a
  | _ => round32 (dyadic y e)

/-- The integer square root, by its bits from bit `n` down. -/
def isqrtFrom (a : Nat) : Nat → Nat → Nat
  | 0, r => r
  | n + 1, r => isqrtFrom a n (if (r + 2 ^ n) * (r + 2 ^ n) ≤ a then r + 2 ^ n else r)
def isqrt (a : Nat) : Nat := isqrtFrom a (Nat.log2 a / 2 + 1) 0

/-- 2^f of a fraction of 160 bits, times 2^128: the product of the roots of 2 whose bits it holds, from bit `i` down. -/
def exp2Frac (f : Nat) : Nat → Nat → Nat → Nat
  | 0, _, acc => acc
  | n + 1, root, acc => exp2Frac f n (isqrt (root * 2 ^ 128)) (if f.testBit (60 + n) then acc * root / 2 ^ 128 else acc)

/-- log2 of a number from 1 to 2, times 2^64, by repeated squaring at 2^-160. -/
def log2Frac : Nat → Nat → Nat → Nat
  | 0, _, acc => acc
  | n + 1, x, acc =>
    let y := x * x / 2 ^ 160
    if 2 ^ 161 ≤ y then log2Frac n (y / 2) (2 * acc + 1) else log2Frac n y (2 * acc)

/-- EXP2 within 2 ulp: `x` in units of 2^-160. -/
def exp2Near (x : Int) (a : BitVec 32) : BitVec 32 :=
  let i := x / 2 ^ 160
  let y := exp2Frac (x % 2 ^ 160).toNat 100 (isqrt (2 * 2 ^ 256)) (2 ^ 128)
  nearTo y (2 ^ 40) (i - 128) 2 (ulpExp y (i - 128)) a

/-- LOG2 within 2 ulp, or 2^-22 from 0.5 to 2. -/
def log2Near (m : Nat) (e : Int) (a : BitVec 32) : BitVec 32 :=
  let k := Nat.log2 m
  let i : Int := k + e
  let y : Int := i * 2 ^ 64 + (log2Frac 64 (m * 2 ^ (160 - k)) 0 : Nat)
  let q := ulpExp (max y.natAbs 1) (-64)
  if i = -1 ∨ i = 0 ∨ (i = 1 ∧ m = 2 ^ k) then nearTo y 16 (-64) (max (2 ^ (q + 149).toNat * 2) (2 ^ 127)) (-149) a
  else nearTo y 16 (-64) 2 q a

/-- RCP and RSQRT of `m × 2^e` within 1 ulp. -/
def rcpNear (neg : Bool) (m : Nat) (e : Int) (a : BitVec 32) : BitVec 32 :=
  let y := 2 ^ 300 / m
  let q := ulpExp y (-300 - e)
  if neg then nearTo (-(y : Int) - 1) 1 (-300 - e) 1 q a else nearTo y 1 (-300 - e) 1 q a
def rsqrtNear (m : Nat) (e : Int) (a : BitVec 32) : BitVec 32 :=
  let odd := e % 2 = 1
  let y := isqrt (2 ^ 400 / (if odd then 2 * m else m))
  let f := -200 - (if odd then (e - 1) / 2 else e / 2)
  nearTo y 1 f 1 (ulpExp y f) a

/-- EXP2, LOG2, RCP and RSQRT: the special values of 04 Table 4-7, 1 for EXP2 of 0 and RCP of 1 (05 R178), and otherwise a free value
within the bounds (notes/assumptions 15). -/
def exp2 (x : BitVec 32) : BitVec 32 :=
  if isNan32 x then nan32
  else if x = 0xFF800000 then 0 else if x = 0x7F800000 then 0x7F800000
  else if x.toNat % 2 ^ 31 = 0 then 0x3F800000
  else if le32 0x43000000 x then 0x7F800000 else if lt32 x 0xC3150000 then 0
  else match val32 x with
    | .fin n m e => exp2Near (sgn n m * 2 ^ (e + 160).toNat) (Config.exp2Approx x)
    | _ => nan32
def log2 (x : BitVec 32) : BitVec 32 :=
  if isNan32 x then nan32
  else if x.toNat % 2 ^ 31 = 0 then 0xFF800000 else if x.getLsbD 31 then nan32 else if x = 0x7F800000 then x
  else match val32 x with
    | .fin _ m e => log2Near m e (Config.log2Approx x)
    | _ => nan32
def rcp (x : BitVec 32) : BitVec 32 :=
  if isNan32 x then nan32
  else if x.toNat % 2 ^ 31 = 0 then x ||| 0x7F800000 else if x.toNat % 2 ^ 31 = 0x7F800000 then x &&& 0x80000000
  else if x = 0x3F800000 then x
  else match val32 x with
    | .fin n m e => rcpNear n m e (Config.rcpApprox x)
    | _ => nan32
def rsqrt (x : BitVec 32) : BitVec 32 :=
  if isNan32 x then nan32
  else if x = 0 then 0x7F800000 else if x = 0x80000000 then 0xFF800000 else if x.getLsbD 31 then nan32
  else if x = 0x7F800000 then 0
  else match val32 x with
    | .fin _ m e => rsqrtNear m e (Config.rsqrtApprox x)
    | _ => nan32

/-- The greatest FP32 magnitude code not above `m × 2^e`, and whether it is exact. -/
def floorMag (m : Nat) (e : Int) : Nat × Bool :=
  let q := ulpExp m e
  let sh := (q - e).toNat
  if m = 0 then (0, true) else (min (m * 2 ^ (e - q).toNat / 2 ^ sh + (q + 149).toNat * 2 ^ 23) 0x7F800000, m % 2 ^ sh = 0)

/-- The L2 norm of a gradient in FP32: NaN and infinity as its squares give them, the exact norm where FP32 holds it, else one of the two
values beside it (05 Table 5-13; which one is free, notes/assumptions 112). -/
def norm32 (g : List (BitVec 32)) : BitVec 32 :=
  match (g.map fun x => mulVal (val32 x) (val32 x)).foldl addVal (.fin false 0 0) with
  | .nan => nan32
  | .inf _ => 0x7F800000
  | .fin _ m e =>
    let k := 400 + (e % 2).toNat
    let y := isqrt (m * 2 ^ k)
    let c := floorMag y ((e - k) / 2)
    BitVec.ofNat 32 (if c.2 && decide (y * y = m * 2 ^ k) then c.1 else if Config.normUp g then c.1 + 1 else c.1)

/-- Adjacent pairs combined once. -/
def pairs {α : Type} (f : α → α → α) : List α → List α
  | a :: b :: t => f a b :: pairs f t
  | l => l

/-- A balanced pairwise tree in index order, `n` levels deep. -/
def tree {α : Type} (f : α → α → α) : Nat → List α → List α
  | 0, l => l
  | n + 1, l => tree f n (pairs f l)

/-- SUM of a row of at most 2^n values by the fixed tree. A shorter row is filled with +0, as R137 and R141 fill theirs; for a row of another
length 04 Table 4-6 gives no tree (DESIGN CHOICE, notes/assumptions 111). -/
def treeSum (n : Nat) (l : List (BitVec 32)) : BitVec 32 :=
  (tree add32 n (l ++ List.replicate (2 ^ n - l.length) 0)).headD 0

/-- MAX of a row by the fixed tree. -/
def treeMax (n : Nat) (l : List (BitVec 32)) : BitVec 32 := (tree max32 n l).headD 0xFF800000

/-- Levels of the tree over a row. -/
def treeDepth (n : Nat) : Nat := if n ≤ 1 then 0 else Nat.log2 (n - 1) + 1

/-! ### Lane operations (04 Table 4-6) -/

/-- The mask word of a comparison, and SELECT's reading of one (notes/assumptions 111). -/
def maskWord (b : Bool) : BitVec 32 := if b then 0xFFFFFFFF else 0

/-- An INT32 shift; by 32 or more it is a free value. -/
def shift32 (kind : Nat) (a b : BitVec 32) : BitVec 32 :=
  if 32 ≤ b.toNat then Config.longShift kind a b
  else if kind = 0 then a <<< b.toNat else if kind = 1 then a >>> b.toNat else a.sshiftRight b.toNat

/-- One operation on one lane. -/
def VecOp.eval : VecOp → BitVec 32 → BitVec 32 → BitVec 32 → BitVec 32
  | .fma, a, b, c => fma32 a b c
  | .add, a, b, _ => add32 a b
  | .sub, a, b, _ => sub32 a b
  | .mul, a, b, _ => mul32 a b
  | .min, a, b, _ => min32 a b
  | .max, a, b, _ => max32 a b
  | .abs, a, _, _ => abs32 a
  | .neg, a, _, _ => neg32 a
  | .eq, a, b, _ => maskWord (eq32 a b)
  | .lt, a, b, _ => maskWord (lt32 a b)
  | .le, a, b, _ => maskWord (le32 a b)
  | .select, a, b, c => if a = 0 then c else b
  | .exp2, a, _, _ => Machine.exp2 a
  | .log2, a, _, _ => Machine.log2 a
  | .rcp, a, _, _ => Machine.rcp a
  | .rsqrt, a, _, _ => Machine.rsqrt a
  | .iadd, a, b, _ => a + b
  | .isub, a, b, _ => a - b
  | .iand, a, b, _ => a &&& b
  | .ior, a, b, _ => a ||| b
  | .ixor, a, b, _ => a ^^^ b
  | .shl, a, b, _ => shift32 0 a b
  | .shr, a, b, _ => shift32 1 a b
  | .sar, a, b, _ => shift32 2 a b
  | .ieq, a, b, _ => maskWord (a == b)
  | .ilt, a, b, _ => maskWord (a.slt b)

/-! ### Conversions (04 R139, R140) -/

/-- The largest finite magnitude code of a saturating floating format. -/
def Elem.maxCode : Elem → Nat
  | .e4m3 => 0x7E | .e5m2 => 0x7B | .e3m2 => 0x1F | .e2m3 => 0x1F | .e2m1 => 0x07 | .fp16 => 0x7C00 | .bf16 => 0x7F80
  | .fp32 => 0x7F800000 | .mxint8 => 127 | .mxint4 => 7 | .int8 => 127

/-- The code a NaN becomes. -/
def Elem.nanCode : Elem → Nat
  | .e4m3 => 0x7F | .e5m2 => 0x7F | .fp16 => 0x7E00 | .bf16 => 0x7FC0 | .fp32 => 0x7FC00000 | _ => 0

/-- Conversion of an exact value to a format, with one rounding. -/
def Elem.encode (k : Elem) (v : Val) : Nat :=
  let sh := k.shape
  let put := fun (neg : Bool) (mag : Nat) => bit neg * 2 ^ (sh.1 + sh.2.1) + mag
  let putInt := fun (neg : Bool) (mag : Nat) =>
    let lim := if neg && k == .int8 then 128 else k.maxCode
    unsign sh.1 (sgn neg (min mag lim))
  match v with
  | .nan => k.nanCode
  | .inf neg =>
    if k.isInt then putInt neg 1024
    else match k with
      | .e5m2 => put neg 0x7C
      | _ => put neg k.maxCode
  | .fin neg m e =>
    if k.isInt then putInt neg (roundAt m e (-(sh.2.1 : Int)))
    else put neg (min (roundMag sh.2.1 sh.2.2 m e) k.maxCode)

/-- Conversion from FP32. -/
def convert (k : Elem) (w : BitVec 32) : Nat := k.encode (val32 w)

/-- emax of a block format (04 R140). -/
def Elem.emax : Elem → Int
  | .e4m3 => 8 | .e5m2 => 15 | .e3m2 => 4 | .e2m3 => 2 | .e2m1 => 2 | _ => 0

/-- floor(log2) of a value's magnitude. -/
def magLog : Val → Option Int
  | .fin _ m e => if m = 0 then none else some ((Nat.log2 m : Int) + e)
  | _ => none

/-- A value times a power of two. -/
def scaleVal (v : Val) (k : Int) : Val :=
  match v with
  | .fin n m e => .fin n m (e + k)
  | v => v

/-- MX quantisation of a block: scale byte and elements (04 R140). -/
def mxQuantise (k : Elem) (l : List (BitVec 32)) : Nat × List Nat :=
  let vs := l.map val32
  if vs.any fun v => match v with | .fin _ _ _ => false | _ => true then (0xFF, l.map fun _ => 0)
  else
    match (vs.filterMap magLog).max? with
    | none => (0x00, l.map fun _ => 0)
    | some a =>
      let e := max (-127) (min 127 (a - k.emax))
      ((e + 127).toNat, vs.map fun v => k.encode (scaleVal v (-e)))

/-! ### The array (04 R123, R131-R137, Table 4-5) -/

/-- FP16 and BF16, the operands of 16-bit mode; every other format but FP32 is narrow. -/
def Elem.wide : Elem → Bool
  | .fp16 | .bf16 => true
  | _ => false
def Elem.narrow (k : Elem) : Bool := !k.wide && k != .fp32
def Elem.four : Elem → Bool
  | .e2m1 | .mxint4 => true
  | _ => false

/-- The operand pairs of each array mode (04 R126, Table 4-2). -/
def pairOk : ArrayMode → Elem → Elem → Bool
  | .bits4, a, w => a.four && w.four
  | .bits8, a, w => a.narrow && w.narrow
  | .bits16, a, w => a.wide && w.wide

/-- Formats that are only elements of blocks (04 R123, Table 4-1): the others may stand without scales. -/
def Elem.blockOnly : Elem → Bool
  | .e3m2 | .e2m3 | .e2m1 | .mxint8 | .mxint4 => true
  | _ => false

/-- An element under its block's scale byte; 0xFF makes it NaN (04 R123). -/
def scaled (k : Elem) (scale code : Nat) : Val :=
  if scale = 0xFF then .nan else scaleVal (k.decode code) ((scale : Int) - 127)

/-- The exact dot product of two narrow vectors, given as (scale, code) of each element, rounded once (04 R131-R134). -/
def dotNarrow (a w : Elem) (xs ys : List (Nat × Nat)) : BitVec 32 :=
  let ps := (xs.zip ys).map fun e => mulVal (scaled a e.1.1 e.1.2) (scaled w e.2.1 e.2.2)
  match ps.foldl addVal (.fin false 0 0) with
  | .fin _ 0 _ => 0
  | v => round32 v

/-- INT32 result of an INT8 dot product (04 R135). -/
def dotInt (xs ys : List Nat) : BitVec 32 :=
  let v := ((xs.zip ys).map fun e => signed 8 e.1 * signed 8 e.2).sum
  BitVec.ofInt 32 (max (-2147483648) (min 2147483647 v))

/-- Groups of 32 consecutive reduction elements, the last filled with +0. -/
def groups32 : Nat → List (BitVec 32) → List (List (BitVec 32))
  | 0, _ => []
  | _, [] => []
  | n + 1, l => (l.take 32 ++ List.replicate (32 - (l.take 32).length) 0) :: groups32 n (l.drop 32)

/-- Products of a dot product on the 16-bit path, each formed exactly and rounded once; either operand is FP16 or BF16 (04 R136). -/
def products16 (a w : Elem) (xs ys : List Nat) : List (BitVec 32) :=
  (xs.zip ys).map fun e => round32 (mulVal (a.decode e.1) (w.decode e.2))

/-- Products in reduction order added to a running value, by groups of 32 (04 R137). -/
def sum16 (run : BitVec 32) (ps : List (BitVec 32)) : BitVec 32 := ((groups32 ps.length ps).map (treeSum 5)).foldl add32 run

/-- A dot product on the 16-bit path: each product rounded once, groups of 32 by the tree, group sums added in order
(04 R136, R137). -/
def dot16 (a w : Elem) (xs ys : List Nat) : BitVec 32 := sum16 0 (products16 a w xs ys)

/-- A dot product of two vectors of (scale, code), in the path of their formats (04 R131 to R137). -/
def dotAny (a w : Elem) (xs ys : List (Nat × Nat)) : BitVec 32 :=
  if a.wide then dot16 a w (xs.map (·.2)) (ys.map (·.2)) else dotNarrow a w xs ys

/-- Anchors of the passes of one column: the block pairs' combined exponents, each pass covering those within the window
below the largest left (04 R131, R132). -/
def passes (w : Nat) : Nat → List Int → Nat
  | 0, _ => 0
  | n + 1, es =>
    match es.max? with
    | none => 0
    | some a => 1 + passes w n (es.filter fun e => decide (e < a - w))

/-! ### Online softmax (04 R141) -/

/-- SMX_STEP: new maximum and sum of a row, rescale factor, and weights. -/
def smxStep (m l : BitVec 32) (ss : List (BitVec 32)) : BitVec 32 × BitVec 32 × BitVec 32 × List (BitVec 32) :=
  let mNew := ss.foldl max32 m
  if isNan32 mNew || isNan32 l then (nan32, nan32, nan32, ss.map fun _ => nan32)
  else if mNew = 0xFF800000 then (mNew, l, 0x3F800000, ss.map fun _ => 0)
  else
    let c := exp2 (sub32 m mNew)
    let ps := ss.map fun x => exp2 (sub32 x mNew)
    (mNew, fma32 l c (treeSum 9 ps), c, ps)

/-- The state of a row before its first tile (04 R141). -/
def smxStart : BitVec 32 × BitVec 32 := (0xFF800000, 0)

/-- SMX_FINAL. -/
def smxFinal (l : BitVec 32) (o : List (BitVec 32)) : List (BitVec 32) :=
  if l.toNat % 2 ^ 31 = 0 then o.map fun _ => 0 else o.map fun x => mul32 x (rcp l)

/-- Argmax of a row of logits: the lowest index among equal maxima; a row with a NaN matches no token (05 R172). -/
def argmax (row : List (BitVec 32)) : Nat :=
  if row.isEmpty || row.any isNan32 then 0xFFFFFFFF
  else
    ((row.zipIdx).foldl (fun (b : BitVec 32 × Nat) (e : BitVec 32 × Nat) => if lt32 b.1 e.1 then e else b)
      (row.headD 0, 0)).2

end Sys2Proof.Machine
end

