-- ==== Sys2Proof/Machine/Conv.lean ====
section
/-! DEFINITION. Convolution layers and the picot engine (06): extents, padding and elision, halo depths, the refusals of PATTERN_STAGE,
band rebalancing, colour conversion and argmax over channels. -/
namespace Sys2Proof.Machine

/-! ### One axis (06 R188-R190, R194) -/

/-- d × (k − 1). -/
def reach (a : ConvAxis) : Nat := a.d * (a.k - 1)

/-- Output extent along an axis (06 R189); 0 where it would be below 1. -/
def outExtent (a : ConvAxis) : Nat :=
  if reach a + 1 ≤ a.extent + a.before + a.after then (a.extent + a.before + a.after - reach a - 1) / a.s + 1 else 0

/-- Input index that output index o reads at tap j (06 R189). -/
def inIndex (a : ConvAxis) (o j : Nat) : Int := (o * a.s + j * a.d : Nat) - (a.before : Int)

/-- The index whose value a tap reads, or none where the tap is elided (06 Table 6-2). -/
def padIndex (m : PadMode) (extent : Nat) (r : Int) : Option Nat :=
  if 0 ≤ r ∧ r < extent then some r.toNat
  else
    match m with
    | .zero => none
    | .replicate => some (if r < 0 then 0 else extent - 1)
    | .reflect => some (if r < 0 then (-r).toNat else (2 * (extent : Int) - 2 - r).toNat)

/-- The one tap that ever lies inside, where every other tap lies in padding at every output index: the axis runs as size 1 on it, in 4-bit
and 8-bit modes and under ZERO padding only (06 R194). -/
def collapseTap (mode : ArrayMode) (pad : PadMode) (a : ConvAxis) : Option Nat :=
  if mode = .bits16 ∨ pad ≠ .zero then none
  else (List.range a.k).find? fun j => (List.range a.k).all fun i => i = j ||
    (List.range (outExtent a)).all fun o => (padIndex .zero a.extent (inIndex a o i)).isNone

/-- The taps of an axis that run. -/
def axisTaps (l : ConvLayer) (a : ConvAxis) : List Nat :=
  match collapseTap l.mode l.pad a with
  | some j => [j]
  | none => List.range a.k

/-- Rows beyond a cut that the taps of the core below it read, and those of the core above it (06 R197); with centred padding and stride
1 both are d × (k − 1) ÷ 2. Cuts lie at multiples of the stride. -/
def depthDown (a : ConvAxis) : Nat := a.before
def depthUp (a : ConvAxis) : Nat := reach a - a.before - (a.s - 1)
def haloDepth (a : ConvAxis) : Nat := max (depthDown a) (depthUp a)

/-- A layer that takes halo rows: one of decoded planes reads the stream's pool instead (06 R195, R212). -/
def takesHalo (l : ConvLayer) : Bool := match l.input with | .decoded .. => false | _ => true

/-- Bytes of one row of a layer's input, its header included (06 R198, Table 6-5). -/
def rowPayload (l : ConvLayer) : Nat := planeBytes l.act (l.h.extent * l.cin) + (if l.actBlocked then l.h.extent * ceilDiv l.cin 32 else 0)
def rowSize (l : ConvLayer) : Nat := 16 + rowPayload l

/-- Selvage demand in each direction (06 R195, R198). -/
def selvageDemand (p : Plan) : Nat := ((p.conv.filter takesHalo).map fun l => l.cutSlots * rowSize l).sum

/-! ### One output (06 R189-R193, R211) -/

/-- The taps of an output in row-major kernel order, with the place each reads or none where it is elided. -/
def tapsOf (l : ConvLayer) (oy ox : Nat) : List (Nat × Nat × Option (Nat × Nat)) :=
  (axisTaps l l.v).flatMap fun i => (axisTaps l l.h).map fun j =>
    (i, j, match padIndex l.pad l.v.extent (inIndex l.v oy i), padIndex l.pad l.h.extent (inIndex l.h ox j) with
      | some y, some x => some (y, x)
      | _, _ => none)

/-- Input channels of the group of an output channel, ascending. -/
def groupChannels (l : ConvLayer) (co : Nat) : List Nat :=
  let n := l.cin / l.groups
  (List.range n).map (· + co / (l.cout / l.groups) * n)

/-- An output in 4-bit and 8-bit modes: the exact sum over the taps inside, rounded once. `x` gives the (scale, code) of an input
by channel, row and column; `w` that of a weight by vertical tap, horizontal tap and channel of its group. -/
def convNarrow (l : ConvLayer) (x w : Nat → Nat → Nat → Nat × Nat) (co oy ox : Nat) : BitVec 32 :=
  let ps := (tapsOf l oy ox).flatMap fun t =>
    match t.2.2 with
    | some (y, c) => (groupChannels l co).zipIdx.map fun ch => (x ch.1 y c, w t.1 t.2.1 ch.2)
    | none => []
  dotNarrow l.act l.wgt (ps.map (·.1)) (ps.map (·.2))

/-- An output in 16-bit mode: an elided tap keeps its place in the reduction with products of +0 (06 R193). -/
def conv16 (l : ConvLayer) (x w : Nat → Nat → Nat → Nat × Nat) (co oy ox : Nat) : BitVec 32 :=
  let ps := (tapsOf l oy ox).flatMap fun t => (groupChannels l co).zipIdx.map fun ch =>
    match t.2.2 with
    | some (y, c) => ((x ch.1 y c).2, (w t.1 t.2.1 ch.2).2)
    | none => (0, 0)
  dot16 l.act l.wgt (ps.map (·.1)) (ps.map (·.2))

/-- An output of a layer: the same on a core and on a picot engine (06 R211). -/
def convOut (l : ConvLayer) (x w : Nat → Nat → Nat → Nat × Nat) (co oy ox : Nat) : BitVec 32 :=
  if l.mode = .bits16 then conv16 l x w co oy ox else convNarrow l x w co oy ox

/-- Rows of a layer's input that an output row reads: those its taps name, whatever the padding makes of them (06 R190, R196). -/
def rowsRead (l : ConvLayer) (oy : Nat) : List Nat :=
  ((axisTaps l l.v).filterMap fun i => padIndex l.pad l.v.extent (inIndex l.v oy i)).eraseDups

/-! ### Refusals of PATTERN_STAGE (06 Tables 6-1, 6-3, 6-8, 05 Table 5-1) -/

def inRange (lo hi n : Nat) : Bool := decide (lo ≤ n ∧ n ≤ hi)

/-- An axis within Table 6-1. -/
def axisOk (m : PadMode) (a : ConvAxis) : Bool :=
  inRange 1 8192 a.extent && inRange 1 15 a.k && inRange 1 8 a.s && inRange 1 64 a.d && decide (1 ≤ outExtent a) &&
    (match m with
      | .zero => decide (a.before ≤ reach a ∧ a.after ≤ reach a)
      | _ => a.k % 2 = 1 && a.before = reach a / 2 && a.after = reach a / 2)

/-- An interleaved input is in one of the formats of R187; a block-scaled one is taken as a fault of the layer's parameters (DEDUCED,
notes/assumptions 114). -/
def inputOk (l : ConvLayer) : Bool :=
  match l.input with
  | .interleaved k b => interleavedOk k b
  | _ => true

/-- Row 1: a layer's parameters within Table 6-1, its formats a pair of 04 Table 4-2. -/
def layerOk (l : ConvLayer) : Bool :=
  axisOk l.pad l.v && axisOk l.pad l.h && inRange 1 16384 l.cin && inRange 1 16384 l.cout && inRange 1 l.cin l.groups &&
    l.cin % l.groups = 0 && l.cout % l.groups = 0 && pairOk l.mode l.act l.wgt && inputOk l

/-- Row 2: REFLECT within the limit of R191. -/
def reflectOk (l : ConvLayer) : Bool :=
  l.pad != .reflect || (decide (reach l.v / 2 < l.v.extent) && decide (reach l.h / 2 < l.h.extent))

/-- Row 3: a picot layer within Table 6-8. -/
def picotOk (l : ConvLayer) : Bool :=
  match l.picot with
  | none => true
  | some f => decide (l.v.d ≤ 8 ∧ l.h.d ≤ 8) && (match f with
      | .first => inRange 1 8 l.cin && inRange 1 256 l.cout && l.output == .cores && (match l.input with
        | .interleaved _ _ => decide (l.cin ≤ 8)
        | _ => true)
      | .last => inRange 1 4096 l.cin && inRange 1 8 l.cout && l.input == .planar && l.output != .cores)

/-- The halo depth that the `i`-th of `n` bands supplies in a layer: downwards unless it is the last, upwards unless the first. -/
def supplies (l : ConvLayer) (n i : Nat) : Nat :=
  if !takesHalo l then 0
  else max (if i + 1 < n then depthDown l.v else 0) (if 0 < i then depthUp l.v else 0)

/-- Row 4: every band at least 8 rows high and as high as the halo depth it supplies (06 R197). -/
def bandsOk (l : ConvLayer) : Bool :=
  l.bandRows.zipIdx.all fun e => decide (max 8 (supplies l l.bandRows.length e.2) ≤ e.1)

/-- The boundaries between neighbouring cores of a plan within a half: boundary b lies between cores b and b + 1. -/
def boundaries (p : Plan) : List Nat := (List.range 7).filter fun b => b != 3 && p.cores.contains b && p.cores.contains (b + 1)

/-- Row 5: the slots of every path of a layer that takes halo rows (06 R199). -/
def slotsOk (p : Plan) (l : ConvLayer) : Bool :=
  !takesHalo l || ((if p.banded || p.striped then (boundaries p).map fun b => l.slots.getD b 0 else []) ++
    if p.striped then [l.cutSlots] else []).all fun n => inRange 2 64 n && decide (haloDepth l.v ≤ n)

/-- Cumulative vertical stride up to and with layer `i`. -/
def strideTo (p : Plan) (i : Nat) : Nat := ((p.conv.take (i + 1)).map fun l => l.v.s).foldl (· * ·) 1

/-- Row 9: an attention layer within Table 5-1. -/
def attnOk (l : AttnLayer) : Bool :=
  inRange 32 512 l.headDim && l.headDim % 32 = 0 && inRange 512 65536 l.kvBytes && l.kvBytes = 2 ^ Nat.log2 l.kvBytes && l.kv != .fp32

/-- The first layer of a list that fails a check. -/
def firstBad {α : Type} (ok : α → Bool) (l : List α) : Option Nat := (l.zipIdx.find? fun e => !ok e.1).map (·.2)

/-- Row and layer of the first fault of a plan against Table 6-3, row by row (notes/assumptions 26). -/
def planFault (p : Plan) : Option (Nat × Nat) :=
  let rows : List (Option (Nat × Nat)) :=
    [(firstBad layerOk p.conv).map ((1, ·)), (firstBad reflectOk p.conv).map ((2, ·)), (firstBad picotOk p.conv).map ((3, ·)),
     (firstBad bandsOk p.conv).map ((4, ·)), (firstBad (slotsOk p) p.conv).map ((5, ·)),
     (if p.rebalance then (List.range p.conv.length).find? fun i => 8 % strideTo p i != 0 else none).map ((6, ·)),
     (if p.striped && decide (4 * 2 ^ 20 < selvageDemand p) then some (7, 0) else none),
     (if (p.banded || p.striped) && !(p.cores.all fun k => (p.reduced.map (·.1)).contains k) then some (8, 0) else none),
     (if 256 < p.attn.length then some 256 else firstBad attnOk p.attn).map ((9, ·))]
  (rows.filterMap id).head?

/-! ### Rebalancing (06 R206, R207, R209) -/

/-- Cumulative vertical stride before layer `i`: how many rows of the first input one row of its input stands for. -/
def strideBefore (p : Plan) (i : Nat) : Nat := if i = 0 then 1 else strideTo p (i - 1)

/-- Least height of the `i`-th of a plan's `n` bands in rows of the first input (06 R197). -/
def leastHeight (p : Plan) (n i : Nat) : Nat :=
  (p.conv.zipIdx.map fun e => strideBefore p e.2 * max 8 (supplies e.1 n i)).foldl max 8

/-- The least and greatest heights h ± 8j within 75 % to 125 % of the planned height and not below the least. -/
def lowerBound (least h plan : Nat) : Nat :=
  let need := max least (ceilDiv (3 * plan) 4)
  h % 8 + roundUp (need - h % 8) 8
def upperBound (h plan : Nat) : Nat := h % 8 + (5 * plan / 4 - h % 8) / 8 * 8

/-- A band in the computation: height, busy time, bounds, new height. -/
structure Band where
  h  : Nat
  t  : Nat
  lo : Nat
  hi : Nat
  hn : Nat
deriving DecidableEq, Repr

/-- `a` has the smaller h_new ÷ rate; on a tie the earlier stays. -/
def ratioLt (a b : Band) : Bool := decide (a.hn * a.t * b.h < b.hn * b.t * a.h)

/-- The index chosen by a strict order among the bands that satisfy a condition, the lowest among equals. -/
def pickBand (ok : Band → Bool) (better : Band → Band → Bool) (l : List Band) : Option Nat :=
  (l.zipIdx.filter fun e => ok e.1).foldl (fun (b : Option (Band × Nat)) e =>
    match b with
    | none => some e
    | some x => if better e.1 x.1 then some e else some x) none |>.map (·.2)

/-- The residual loop of R207: `r` is what remains of the total. -/
def residual : Nat → Int → List Band → Option (List Band)
  | 0, r, l => if r = 0 then some l else none
  | n + 1, r, l =>
    if r = 0 then some l
    else if 0 < r then
      match pickBand (fun b => decide (b.hn + 8 ≤ b.hi)) ratioLt l with
      | none => none
      | some i => residual n (r - 8) (l.modify i fun b => { b with hn := b.hn + 8 })
    else
      match pickBand (fun b => decide (b.lo + 8 ≤ b.hn)) (fun a b => ratioLt b a) l with
      | none => none
      | some i => residual n (r + 8) (l.modify i fun b => { b with hn := b.hn - 8 })

/-- New heights of a half's bands, or none where no move takes place (06 R207). A core without busy time gives no rate. -/
def rebalance (least heights plan busy : List Nat) : Option (List Nat) :=
  let n := heights.length
  let sum := busy.sum
  let still := busy.all fun t => decide (10 * (if t * n ≤ sum then sum - t * n else t * n - sum) ≤ sum)
  if still || busy.length ≠ n || busy.contains 0 || heights.contains 0 then none
  else
    let total := heights.sum
    let prod := busy.foldl (· * ·) 1
    let w := (heights.zip busy).map fun e => e.1 * (prod / e.2)
    let ws := w.sum
    let bands := ((heights.zip busy).zip (plan.zip (w.zip least))).map fun e =>
      let h := e.1.1
      let lo := lowerBound e.2.2.2 h e.2.1
      let hi := upperBound h e.2.1
      let step : Int := ((total * e.2.2.1 : Nat) - (h * ws : Nat) : Int).tdiv (8 * ws : Nat) * 8
      { h := h, t := e.1.2, lo := lo, hi := hi, hn := (min (max ((h : Int) + step) lo) hi).toNat : Band }
    (residual total ((total : Int) - ((bands.map (·.hn)).sum : Nat)) bands).map fun l => l.map (·.hn)

/-! ### Colour (06 R213-R215) -/

/-- A row or column of `n` chroma samples upsampled at luma index i, in quarters, the plane's edge repeated (06 Table 6-9). -/
def upsample4 (cosited nearest : Bool) (c : Nat → Nat) (n i : Nat) : Nat :=
  let m := i / 2
  let at_ := fun k => c (min k (n - 1))
  if nearest then 4 * at_ m
  else if cosited then (if i % 2 = 0 then 4 * at_ m else 2 * at_ m + 2 * at_ (m + 1))
  else if i % 2 = 0 then 3 * at_ m + at_ (m - 1) else 3 * at_ m + at_ (m + 1)

/-- Siting of a chroma sample location: co-sited horizontally, vertically (06 R214). -/
def siting (loc : Nat) : Bool × Bool := if loc = 1 then (false, false) else if loc = 2 then (true, true) else (true, false)

/-- The quotient of two integers rounded once to FP32. -/
def ratio32 (n : Int) (d : Nat) : BitVec 32 :=
  let q := n.natAbs * 2 ^ 160 / d
  let rest := n.natAbs * 2 ^ 160 % d
  round32 (.fin (decide (n < 0)) (2 * q + (if rest = 0 then 0 else 1)) (-161))

/-- Luma and chroma normalised (06 Table 6-10); chroma is given in sixteenths after upsampling on both axes. -/
def normY (full ten : Bool) (y : Nat) : BitVec 32 :=
  if full then ratio32 y (if ten then 1023 else 255) else ratio32 ((y : Int) - (if ten then 64 else 16)) (if ten then 876 else 219)
def normC (full ten : Bool) (c16 : Nat) : BitVec 32 :=
  let d := if full then (if ten then 1023 else 255) else (if ten then 896 else 224)
  ratio32 ((c16 : Int) - 16 * (if ten then 512 else 128)) (16 * d)

def clamp01 (x : BitVec 32) : BitVec 32 := min32 (max32 x 0) 0x3F800000

/-- R, G and B of normalised Y, Cb and Cr (06 R215): BT.709 or BT.601, each multiply-add rounded once, the coefficients taken as
the nearest FP32 values. -/
def toRgb (bt601 : Bool) (y cb cr : BitVec 32) : BitVec 32 × BitVec 32 × BitVec 32 :=
  let k : BitVec 32 × BitVec 32 × BitVec 32 × BitVec 32 :=
    if bt601 then (0x3FB374BC, 0x3EB03298, 0x3F36D19E, 0x3FE2D0E5) else (0x3FC9930C, 0x3E3FD1DD, 0x3EEFADF3, 0x3FED844D)
  (clamp01 (fma32 k.1 cr y), clamp01 (fma32 (neg32 k.2.2.1) cr (fma32 (neg32 k.2.1) cb y)), clamp01 (fma32 k.2.2.2 cb y))

/-- A decoded picture as the first-layer form reads it: samples of each plane by row and column, bits, range, matrix and siting. -/
structure Decoded where
  luma   : Nat → Nat → Nat
  chroma : Nat → Nat → Nat → Nat
  w      : Nat
  h      : Nat
  ten    : Bool
  full   : Bool
  bt601  : Bool
  loc    : Nat

/-- Chroma `p` at a luma index, in sixteenths (06 R214). -/
def Decoded.chroma16 (d : Decoded) (nearest : Bool) (p y x : Nat) : Nat :=
  let sit := siting d.loc
  upsample4 sit.2 nearest (fun r => upsample4 sit.1 nearest (fun c => d.chroma p r c) (ceilDiv d.w 2) x) (ceilDiv d.h 2) y

/-- Channel `c` of a pixel in one of the three input modes (06 R213, R215). -/
def Decoded.channel (d : Decoded) (mode : ColourMode) (nearest : Bool) (c y x : Nat) : BitVec 32 :=
  let ly := normY d.full d.ten (d.luma y x)
  let cb := normC d.full d.ten (d.chroma16 nearest 0 y x)
  let cr := normC d.full d.ten (d.chroma16 nearest 1 y x)
  match mode with
  | .grey => ly
  | .yuv => if c = 0 then ly else if c = 1 then cb else cr
  | .rgb =>
    let v := toRgb d.bt601 ly cb cr
    if c = 0 then v.1 else if c = 1 then v.2.1 else v.2.2

/-- Channels of an input mode. -/
def modeChannels : ColourMode → Nat
  | .grey => 1
  | _ => 3

/-- A pixel's channel as an operand of the first layer, converted under R139, or under R140 as a block of its channels filled with zeros. -/
def Decoded.operand (d : Decoded) (l : ConvLayer) (mode : ColourMode) (nearest : Bool) (c y x : Nat) : Nat × Nat :=
  if l.actBlocked then
    let q := mxQuantise l.act ((List.range 32).map fun i => if i < modeChannels mode then d.channel mode nearest i y x else 0)
    (q.1, q.2.getD c 0)
  else (0x7F, convert l.act (d.channel mode nearest c y x))

/-! ### Argmax over channels (06 R216) -/

/-- Index and FP32 value of a pixel's largest channel; 0xFFFF with a NaN in any channel. -/
def channelArgmax (l : List Val) : Nat × BitVec 32 :=
  if l.contains .nan then (0xFFFF, nan32)
  else
    let best := l.zipIdx.foldl (fun (b : Val × Nat) e => if valLt b.1 e.1 then e else b) (l.headD .nan, 0)
    (best.2, match best.1 with
      | .fin _ 0 _ => 0
      | v => round32 v)

/-- The plane of indices of a planar tensor, and that of its values, in (row, column) order. -/
def argmaxPlanes (m : Image) (rd : Nat → Nat → Nat) : Nat × Nat :=
  let l := (List.range (m.h * m.w)).map fun i => channelArgmax ((List.range m.c).map fun c =>
    let v := m.at rd c (i / m.w) (i % m.w)
    if m.blocked then scaled m.fmt v.1 v.2 else m.fmt.decode v.2)
  (packElems .fp16 (l.map (·.1)), packElems .fp32 (l.map fun e => e.2.toNat))

end Sys2Proof.Machine
end

