-- ==== Sys2Proof/Machine/Flags.lean ====
section
/-! DEFINITION. Status registers and status words computed from the state: the registers of BAR0 (02 Tables 2-3 to 2-12), the
halyard verdicts of 10 R321, operations in flight, the words of a reply. -/
namespace Sys2Proof.Machine

/-! ### Fuses (09 Table 9-1) -/

/-- Bits [hi:lo] of the fuse shadow. -/
def fuse (s : State) (hi lo : Nat) : Nat := bitsOf s.fuses.shadow.toNat hi lo

def lifecycle (s : State) : Nat := fuse s 1221 1219
def isoPolicy (s : State) : Nat := fuse s 1222 1222
def maxPartitions (s : State) : Nat := 2 ^ fuse s 1224 1223
def debugPolicy (s : State) : Nat := fuse s 1226 1225
def pairPolicy (s : State) : Nat := fuse s 1228 1227
def moduleSerial (s : State) : Nat := fuse s 1151 1024
def keyRevoke (s : State) : Nat := fuse s 1218 1216

/-- LIFECYCLE as IDENTIFY gives it (02 Table 2-29): 0 MANUFACTURE, 1 DEPLOYED, 2 DECOMMISSIONED. -/
def lifecycleCode (s : State) : Nat := if lifecycle s = 3 then 2 else lifecycle s

/-- ANTI_ROLLBACK: 1 + index of the highest bit at 1, or 0 (09 Table 9-1). -/
def thermometer (v : Nat) : Nat :=
  match ((List.range 64).filter fun i => v.testBit i).getLast? with
  | some i => i + 1
  | none => 0

def antiRollback (s : State) : Nat := thermometer (fuse s 1215 1152)

/-- ROOT_KEY_HASH[i]. -/
def rootHash (s : State) (i : Nat) : Nat := fuse s (256 * i + 255) (256 * i)

/-- Physical positions of a half's logical cores, ascending (01 R11): the enabled positions. -/
def positions (s : State) (h : Nat) : List Nat :=
  ((List.range 5).filter fun p => !bitOf (fuse s 1241 1232) (5 * h + p)).take 4

/-- CORE_MAP (02 Table 2-29): bits [3k+2:3k] the position of logical core k. -/
def coreMap (s : State) : Nat :=
  ((positions s 0 ++ positions s 1).zipIdx.map fun e => e.1 * 2 ^ (3 * e.2)).sum

/-- Cells that disagree with the majority of their three (09 R272). -/
def weakCells (f : Fuses) : Nat :=
  let d := (f.cellA ^^^ f.cellB) ||| (f.cellB ^^^ f.cellC)
  ((List.range 4096).filter fun i => d.getLsbD i).length

/-- The majority of the three cells of each fuse bit (09 R272). -/
def majority (f : Fuses) : BitVec 4096 := (f.cellA &&& f.cellB) ||| (f.cellA &&& f.cellC) ||| (f.cellB &&& f.cellC)

/-- The KEM key's seed, its encapsulation key and KEM_EK_HASH (09 Tables 9-2, 9-6). -/
def kemSeed (s : State) : BitVec 256 := ((s.sec.kem.map Config.drbg).getD 0).setWidth 256
def kemEkHash (s : State) : BitVec 256 := Config.sha3 1184 (Config.kemEk (kemSeed s))

/-! ### Halyards (10 R321) -/

/-- Frames latched in [t − 1,200, t). -/
def heardIn (h : Heard) (t : Tick) : Heard := h.filter fun e => decide (t ≤ e.1 + 1200 ∧ e.1 < t)

def silent (h : Heard) (t : Tick) : Bool := (heardIn h t).isEmpty

/-- PROGRESS is not the same in every frame of the interval. -/
def progressing (h : Heard) (t : Tick) : Bool :=
  match heardIn h t with
  | [] => false
  | e :: r => r.any fun x => decide (x.2 ≠ e.2)

/-- The hub's control runs: CCLK comes from SYSPLL (01 Table 1-7, R23). -/
def hubRuns (s : State) : Bool := hubOn s && s.clk.syspll

/-- A sweep that a reset or the end of power follows has begun: nothing more is fetched, begun or admitted (02 R73, 03 Table 3-9). -/
def ending (s : State) : Bool :=
  match s.sent.sweep with
  | some (.resetModule _) | some .cutHub => true
  | _ => false

/-! ### Operations in flight (02 R61) -/

/-- The four opcodes that create requests (03). -/
def isReqOp (op : Nat) : Bool := op = 0x0201 || op = 0x0202 || op = 0x0203 || op = 0x0208

/-- Requests in RUNNING, PREEMPTED or VERIFYING, and other commands between fetch and final reply. -/
def inFlight (s : State) : Nat :=
  (s.reqs.filter fun e => inFlightState e.2.st).length + (s.cmds.filter fun e => !isReqOp (opcodeOf e.2.pkt)).length
    + (s.reads.filter fun r => !r.isReq).length

/-! ### BAR0 (02 Tables 2-2 to 2-12) -/

/-- DOORBELL_DROPS (02 Table 2-3). -/
def doorbellDropsWord (s : State) : Nat :=
  s.bar.dropCount + s.bar.dropRing.toNat * 2 ^ 32 + s.bar.dropCause.toNat * 2 ^ 56

/-- DEVICE_STATE (02 Table 2-4). -/
def deviceStateWord (s : State) : Nat := stateCode s.dev.state + bit s.parts.isSome * 2 ^ 8

/-- BOOT_REASON (02 Table 2-5); REASON shows LAST_REASON (11 R346). -/
def bootReasonWord (s : State) : Nat :=
  reasonCode s.nor.lastReason + s.nor.startFails * 2 ^ 8 + s.dev.activeSlot * 2 ^ 16 + s.dev.resetSource * 2 ^ 20

/-- ADMIN_RING_SIZE (02 Table 2-7). -/
def adminSizeWord (s : State) : Nat := s.bar.sizeLog2.toNat + bit s.bar.enable * 2 ^ 31

/-- Entries the sentinel watches. -/
def armedCount (s : State) : Nat := (s.sent.entries.filter fun e => armedEntry e.2).length

/-- The fallback tick that the request table gives: DEADLINE − GUARD after the doorbell (03 R90). -/
def fallbackOf (r : Req) : Option Tick := r.deadline.map (· - r.guard)

/-- The hem cut-off tick that it gives (03 R90): HEM_LEAD before the fallback tick. -/
def cutoffOf (s : State) (r : Req) : Option Tick :=
  (tget s.pats r.pattern).bind fun p => (fallbackOf r).map (· - hemLead p)

/-- The sentinel's copy of an entry agrees with the request table. -/
def copyAgrees (s : State) (slot : Nat) (r : Req) : Bool :=
  match tget s.sent.entries slot with
  | none => false
  | some e => e.gen == r.gen && e.seqHandle == reqSeqHandle s r && e.queue == r.queue && e.tag == r.tag && e.seqNo == r.seqNo
      && e.fallback == fallbackOf r && e.cutoff == cutoffOf s r && e.mirror == r.mirror && !e.lost

/-- TABLE_OK (03 R90). -/
def tableOk (s : State) : Bool := s.sent.alive && s.reqs.all fun e => !liveState e.2.st || copyAgrees s e.1 e.2

/-- SENTINEL_STATUS (02 Table 2-9). -/
def sentinelWord (s : State) : Nat :=
  bit s.sent.alive + bit (tableOk s) * 2 + bit s.sent.hubStall * 4 + min (armedCount s) 65536 * 2 ^ 15
    + sat 32 s.sent.fallbacks * 2 ^ 32

/-- PAIR_STATE (02 Table 2-10). -/
def pairStateWord (s : State) : Nat :=
  modeCode s.pair.mode + roleCode s.pair.role * 2 ^ 4 + bit (bound s && !silent s.pair.heardA (now s)) * 2 ^ 8
    + bit (bound s && !silent s.pair.heardB (now s)) * 2 ^ 9 + bit s.pair.partnerDying * 2 ^ 10

/-- HEALTH_SUMMARY (02 Table 2-11). -/
def healthWord (s : State) : Nat := s.health.bits.toNat

/-- OCCUPANCY (02 Table 2-12). -/
def occupancyWord (s : State) : Nat := inFlight s + s.reqs.length * 2 ^ 32

/-- The 16-byte MSI-X table entry holding an offset, and the pending bits of 64 vectors (02 Table 2-1). -/
def msixEntry (s : State) (v : Nat) : BitVec 128 := tgetD s.link.msixTable v (BitVec.ofNat 128 (2 ^ 96))

/-- Bits [hi:lo] as a mask. -/
def ones (hi lo : Nat) : Nat := 2 ^ (hi + 1) - 2 ^ lo

/-- The reserved bits of a register (02 Tables 2-2 to 2-12). -/
def reservedMask (off : Nat) : BitVec 64 :=
  BitVec.ofNat 64 (match off with
    | 0x08 => ones 55 52
    | 0x10 => ones 63 9 + ones 7 3
    | 0x18 => ones 63 24 + ones 19 17 + ones 15 12
    | 0x20 => ones 11 0
    | 0x28 => ones 63 32 + ones 30 5
    | 0x30 => ones 11 0
    | 0x40 => ones 14 3
    | 0x48 => ones 63 11 + ones 7 6 + ones 3 3
    | 0x50 => ones 63 12
    | 0x60 => ones 63 49 + ones 31 11
    | _ => 0)

/-- The defined bits of the register at an 8-byte aligned offset of BAR0; a write-only register reads 0 (00 Table 0-5) and a
reserved offset as an undefined value (00 R6). -/
def regValue (off : Nat) (s : State) : BitVec 64 :=
  if off = 0x00 ∨ off = 0x38 then 0
  else if off = 0x08 then BitVec.ofNat 64 (doorbellDropsWord s)
  else if off = 0x10 then BitVec.ofNat 64 (deviceStateWord s)
  else if off = 0x18 then BitVec.ofNat 64 (bootReasonWord s)
  else if off = 0x20 then s.bar.adminBase
  else if off = 0x28 then BitVec.ofNat 64 (adminSizeWord s)
  else if off = 0x30 then s.bar.replyBase
  else if off = 0x40 then BitVec.ofNat 64 (sentinelWord s)
  else if off = 0x48 then BitVec.ofNat 64 (pairStateWord s)
  else if off = 0x50 then BitVec.ofNat 64 (healthWord s)
  else if off = 0x58 then BitVec.ofNat 64 (now s)
  else if off = 0x60 then BitVec.ofNat 64 (occupancyWord s)
  else if 0x7F00 ≤ off ∧ off < 0x8000 then
    BitVec.ofNat 64 ((s.link.pba.filter fun v => decide (v / 64 = (off - 0x7F00) / 8)).map fun v => 2 ^ (v % 64)).sum
  else if 0x8000 ≤ off then (msixEntry s ((off - 0x8000) / 16)).extractLsb' (if off % 16 = 8 then 64 else 0) 64
  else Config.reservedRead off (now s)

/-- A 64-bit read of BAR0: the defined bits of the register, with undefined values in its reserved bits (00 R6). -/
def regRead (off : Nat) (s : State) : BitVec 64 := regValue off s ||| (Config.reservedBits off (now s) &&& reservedMask off)

/-- A naturally aligned read of BAR0: a 32-bit read returns the addressed half of its register (02 R32). No row of the table reads a
register but LOCAL_TIME (notes/assumptions 102). -/
def barWord (off : Nat) (w64 : Bool) (s : State) : BitVec 64 :=
  if w64 then regRead off s else ((regRead (off / 8 * 8) s).extractLsb' (8 * (off % 8)) 32).setWidth 64

/-- FW_VERSION and SECURITY_VERSION, header fields of a firmware image (11 Table 11-4). -/
def fwHeader (sl : FwSlot) (off len : Nat) : Nat :=
  match tget sl.blocks 0 with
  | some (data, _) => (data >>> (8 * off)) % 2 ^ (8 * len)
  | none => 0

def slotOf (s : State) (i : Nat) : FwSlot := if i = 0 then s.nor.slotA else s.nor.slotB

/-- The running image; the model's own slot A carries no blocks at reset and reads as version 0 (notes/assumptions 8). -/
def runningMajor (s : State) : Nat := fwHeader (slotOf s s.dev.activeSlot) 0x08 2

/-- The configuration of a copy's items: an absent item has its default (11 Table 11-11). -/
def cfgOfItems (items : Tbl Nat) : CfgVals :=
  let d := CfgVals.defaults
  { guard := tgetD items 1 d.guard, slice := tgetD items 2 d.slice, scrub := tgetD items 3 d.scrub,
    mask := tgetD items 4 d.mask }

/-- All four items of a configuration. -/
def itemsOf (c : CfgVals) : Tbl Nat := [(1, c.guard), (2, c.slice), (3, c.scrub), (4, c.mask)]

/-! ### Replies (02 Table 2-14) -/

/-- The 32 bytes of a reply. -/
def replyBits (tag : BitVec 64) (seqNo : BitVec 32) (st : Status) (flags : BitVec 16) (detail : Nat) (value : BitVec 64)
    (time : Tick) : BitVec 256 :=
  BitVec.ofNat 256 (pack [(8, tag.toNat), (4, seqNo.toNat), (2, statusCode st), (2, flags.toNat), (4, detail),
    (8, value.toNat), (4, time)])

/-- The reply at a count of a queue as it is written: reserved bits [15:5] of REPLY_FLAGS, bytes 14 and 15, are undefined (00 R6). -/
def withReserved (queue count : Nat) (b : BitVec 256) : BitVec 256 :=
  b ||| ((Config.replyReserved queue count &&& 0xFFE0).setWidth 256 <<< 112)

/-- The tag of an event: code in [15:0], object in [63:16] (02 Table 2-17). -/
def eventTag (e : Event) : BitVec 64 := BitVec.ofNat 64 (e.code + e.object % 2 ^ 48 * 2 ^ 16)

/-- The 32 bytes of an event (02 Table 2-17). -/
def eventBits (e : Event) (time : Tick) : BitVec 256 :=
  replyBits (eventTag e) 0xFFFFFFFF e.status 0 e.detail e.value time

/-- The Isaush dies are powered and clocked: SYSPLL, the feeds and the trip allow it (01 R23, 11 R347, 12 R371, R380). A coolant hold
gates only the cores (12 R381). -/
def diesOn (s : State) : Bool :=
  s.clk.syspll && hubOn s && s.power.holdUp.isNone && s.thermal.tripped.isNone && s.dev.state != .halfMast

/-- Cores can run: clocks, power and cooling are there. -/
def coresClocked (s : State) : Bool := diesOn s && s.thermal.hold.isNone

/-- DETAIL of DATA_ERROR (08 Table 8-7). -/
def dataDetail (source half unit : Nat) : Nat := source * 2 ^ 28 + half % 16 * 2 ^ 24 + unit % 256 * 2 ^ 16

/-- h(c) of R241. -/
def channelHash (c : Nat) : Nat := (c % 64) ^^^ (c / 64 % 64)

/-- Where a half-local address lies: the channel, counted among those in service, and the granule within it. -/
def granuleAt (n a : Nat) : Nat × Nat :=
  let g := a / 128
  if n = 64 then ((g % 64) ^^^ channelHash (g / 64), g / 64) else (g % n, g / n)

/-- The k-th channel of a half in service, ascending. -/
def servingAt (s : State) (h k : Nat) : Nat :=
  ((List.range 64).filter fun i => s.mem.inService.getLsbD (64 * h + i)).getD k 0

/-- The flash channel of a block (08 R260). -/
def flashOf (pattern block : Nat) : Nat := (block + Config.flashChannel pattern) % 16

/-- A block that LDPC cannot correct, and one that fails its checks: how the staging ends (08 R261, Table 8-7). -/
def ldpcEnd (pi block : Nat) : Status × Nat := (.dataError, dataDetail 5 0xF (flashOf pi block))
def checkEnd (block : Nat) : Status × Nat := (.integrityMismatch, block)

/-- Index in the half-local space of a channel-local line (08 R241, R242, 14 Table 14-6). -/
def lineIndex (s : State) (ch line : Nat) : Nat :=
  let n := channelsIn s (ch / 64)
  let c := line / 2
  let k := ((List.range (ch % 64)).filter fun i => s.mem.inService.getLsbD (64 * (ch / 64) + i)).length
  2 * (if n = 64 then 64 * c + ((ch % 64) ^^^ channelHash c) else n * c + k) + line % 2

end Sys2Proof.Machine
end

