-- ==== Sys2Proof/Machine/Levels.lean ====
section
/-! DEFINITION. Limits of the levels that 07 Tables 7-2 and 7-11 refer to, as the video standards define them (notes/assumptions 17):
largest coded luma area, and largest bit rate in kbit/s, by level × 10. A level the standard does not define has limit 0. -/
namespace Sys2Proof.Machine

/-- The entry of a level in a list of (level, value). -/
def levelIn (l : List (Nat × Nat)) (level : Nat) : Nat := ((l.find? fun e => e.1 = level).map (·.2)).getD 0

/-- ITU-T H.265 Table A.8: MaxLumaPs. -/
def hevcArea : List (Nat × Nat) :=
  [(10, 36864), (20, 122880), (21, 245760), (30, 552960), (31, 983040), (40, 2228224), (41, 2228224), (50, 8912896),
   (51, 8912896)]

/-- ITU-T H.264 Table A-1: MaxFS, in macroblocks. -/
def avcFrame : List (Nat × Nat) :=
  [(10, 99), (11, 396), (12, 396), (13, 396), (20, 396), (21, 792), (22, 1620), (30, 1620), (31, 3600), (32, 5120),
   (40, 8192), (41, 8192), (42, 8704), (50, 22080), (51, 36864)]

/-- AV1 specification, Annex A: MaxPicSize. -/
def av1Area : List (Nat × Nat) :=
  [(20, 147456), (21, 278784), (30, 665856), (31, 1065024), (40, 2359296), (41, 2359296), (50, 8912896), (51, 8912896)]

/-- Largest coded area of a level, by CODEC. -/
def levelArea (codec level : Nat) : Nat :=
  if codec = 0 then levelIn hevcArea level else if codec = 1 then 256 * levelIn avcFrame level else levelIn av1Area level

/-- ITU-T H.265 Table A.8, Main tier: MaxBR. -/
def hevcRate : List (Nat × Nat) :=
  [(10, 128), (20, 1500), (21, 3000), (30, 6000), (31, 10000), (40, 12000), (41, 20000), (50, 25000), (51, 40000)]

/-- ITU-T H.264 Table A-1: MaxBR, before the factor of the High profile. -/
def avcRate : List (Nat × Nat) :=
  [(10, 64), (11, 192), (12, 384), (13, 768), (20, 2000), (21, 4000), (22, 4000), (30, 10000), (31, 14000), (32, 20000),
   (40, 20000), (41, 50000), (42, 50000), (50, 135000), (51, 240000)]

/-- Largest bit rate of a level in kbit/s, by CODEC of an encoder; H.264 is encoded in the High profile, factor 1.25. -/
def levelKbps (codec level : Nat) : Nat :=
  if codec = 0 then levelIn hevcRate level else levelIn avcRate level * 5 / 4

end Sys2Proof.Machine
end

