-- ==== Sys2Proof/Machine/Operands.lean ====
section
/-! DEFINITION. The fields of command packets and parameter blocks, their ranges and reserved bits (02 R40, R427, and the
parameter table of each opcode), and the opening of sealed objects (09 R285, R286). -/
namespace Sys2Proof.Machine

/-! ### Fields -/

/-- A field of a packet or block: offset, length in bytes, the bits it does not reserve, and whether its value is in range. -/
structure Fld where
  off  : Nat
  len  : Nat
  mask : Nat
  ok   : Bool
deriving DecidableEq, Repr

/-- A field without reserved bits. -/
def fld (off len : Nat) (ok : Bool) : Fld := { off := off, len := len, mask := 2 ^ (8 * len) - 1, ok := ok }

/-- The bits of byte `i` that no field leaves reserved. -/
def allowed (fs : List Fld) (i : Nat) : Nat :=
  (fs.filter fun f => decide (f.off ≤ i ∧ i < f.off + f.len)).foldl (fun a f => a ||| (f.mask >>> (8 * (i - f.off))) % 256) 0

/-- Byte `i` of `v` holds a reserved bit that is not 0, or a field that begins there is out of range. -/
def faultAt (fs : List Fld) (v i : Nat) : Bool :=
  decide ((v >>> (8 * i)) % 256 &&& (255 ^^^ allowed fs i) ≠ 0) || fs.any fun f => decide (f.off = i) && !f.ok

/-- The lowest byte in [lo, hi) at which a field is wrong (02 R40, R427). -/
def firstFault (fs : List Fld) (v lo hi : Nat) : Option Nat :=
  ((List.range (hi - lo)).map (· + lo)).find? (faultAt fs v)

/-- A byte of a packet, and a little-endian field of it. -/
def le (p : Packet) (off len : Nat) : Nat := bytesAt p off len

def aligned (p : Packet) (off a : Nat) : Bool := decide (le p off 8 % a = 0)

def within (p : Packet) (off len lo hi : Nat) : Bool := decide (lo ≤ le p off len ∧ le p off len ≤ hi)

/-- FLAGS of a packet (02 Table 2-13). -/
def ordered (p : Packet) : Bool := p.getLsbD 16
def signals (p : Packet) : Bool := p.getLsbD 17
def encParams (p : Packet) : Bool := p.getLsbD 18

/-- TAG, SEQ and FENCE. -/
def tagOf (p : Packet) : BitVec 64 := p.extractLsb' 64 64
def seqOf (p : Packet) : BitVec 32 := p.extractLsb' 32 32
def fenceOf (p : Packet) : BitVec 32 := p.extractLsb' 128 32

/-- A pattern handle's field: bits [15:12] reserved (03). -/
def patFld : Fld := { off := 20, len := 4, mask := 0xFFFF0FFF, ok := true }
def ringFld : Fld := { off := 20, len := 4, mask := 0xFFFFF, ok := true }
def streamFld : Fld := { off := 20, len := 4, mask := 0xFFFF003F, ok := true }

/-- QP limits of 07 Table 7-11. -/
def qpOk (p : Packet) (off : Nat) (lo hi : Int) : Bool :=
  let q := signed 8 (le p off 1)
  decide (lo ≤ q ∧ q ≤ hi)

/-- PROFILE and MAX_BITS of 07 Tables 7-3 and 7-11. -/
def profileOk (enc : Bool) (codec profile : Nat) : Bool :=
  if codec = 0 then decide (profile ≤ 1) else if codec = 1 then (if enc then profile = 2 else decide (profile ≤ 2))
  else !enc && profile = 0

def bitsOk (codec profile bits : Nat) : Bool := bits = 8 || (bits = 10 && ((codec = 0 && profile = 1) || codec = 2))

/-- R of 07 R219, rounded up, and the largest R of a stream (07 Table 7-2). -/
def videoRate (w h fps : Nat) : Nat := ceilDiv (w * h * fps) 1000
def rateCap (codec : Nat) : Nat := if codec = 1 then 251658240 else 534773760

/-- 07 Table 7-3. -/
def streamOpenFlds (p : Packet) : List Fld :=
  let codec := le p 20 1
  let w := le p 24 2
  let h := le p 26 2
  [fld 20 1 (decide (codec ≤ 2)), fld 21 1 (profileOk false codec (le p 21 1)), fld 22 1 (within p 22 1 0 51),
   fld 23 1 (within p 23 1 0 1), fld 24 2 (within p 24 2 64 8192 && w % 8 = 0),
   fld 26 2 (within p 26 2 64 8192 && h % 8 = 0 && decide (w * h ≤ levelArea codec (le p 22 1))),
   fld 28 4 (within p 28 4 1000 240000 && decide (videoRate w h (le p 28 4) ≤ rateCap codec)),
   fld 32 1 (bitsOk codec (le p 21 1) (le p 32 1)), fld 33 1 (within p 33 1 1 16),
   fld 34 1 (within p 34 1 (le p 33 1 + 2) 40), { off := 35, len := 1, mask := 1, ok := true }]

/-- 07 Table 7-11. -/
def encOpenFlds (p : Packet) : List Fld :=
  let codec := le p 20 1
  let w := le p 24 2
  let h := le p 26 2
  let bits := le p 32 1
  let rc := le p 33 1
  let lo : Int := if bits = 10 then -12 else 0
  let qmin := signed 8 (le p 34 1)
  let qmax := signed 8 (le p 35 1)
  let lvl := levelKbps codec (le p 22 1)
  [fld 20 1 (decide (codec ≤ 1)), fld 21 1 (profileOk true codec (le p 21 1)), fld 22 1 (within p 22 1 0 51),
   fld 23 1 (within p 23 1 0 1), fld 24 2 (within p 24 2 128 4096 && w % 2 = 0),
   fld 26 2 (within p 26 2 128 2304 && h % 2 = 0),
   fld 28 4 (within p 28 4 1000 240000 && decide (videoRate (roundUp w 16) (roundUp h 16) (le p 28 4) ≤ rateCap codec)),
   fld 32 1 (bitsOk codec (le p 21 1) bits), fld 33 1 (decide (rc ≤ 2)), fld 34 1 (qpOk p 34 lo 51),
   fld 35 1 (qpOk p 35 qmin 51), fld 36 1 (rc != 0 || qpOk p 36 qmin qmax), fld 37 1 (rc != 0 || qpOk p 37 qmin qmax),
   fld 38 2 true, fld 40 4 (rc = 0 || (within p 40 4 100 300000 && decide (le p 40 4 ≤ lvl))),
   fld 44 4 (rc != 2 || (within p 44 4 (le p 40 4) 300000 && decide (le p 44 4 ≤ lvl))),
   fld 48 4 (within p 48 4 100 10000), fld 52 1 (within p 52 1 1 16)]

/-- 14 Tables 14-1, 14-2: DEPTH and TARGET of each interface. -/
def loopFlds (p : Packet) : List Fld :=
  let i := le p 20 1
  let d := le p 21 1
  let maxDepth := if i = 0 ∨ i = 2 then 4 else if i = 1 then 3 else 1
  let maxTarget := if i = 1 then 127 else if i = 4 ∨ i = 5 then 15 else 0
  [fld 20 1 (decide (i ≤ 5)), fld 21 1 (within p 21 1 1 maxDepth),
   fld 22 1 (within p 22 1 0 (if i = 2 ∧ d = 4 then 1 else 0)), fld 24 2 (within p 24 2 0 maxTarget),
   fld 28 4 (within p 28 4 1 10000)]

/-- 14 Table 14-3. -/
def selftestFlds (p : Packet) : List Fld :=
  let t := le p 20 1
  let core := decide (t ≤ 2)
  [fld 20 1 (core || decide (0x10 ≤ t ∧ t ≤ 0x12)), fld 21 1 (within p 21 1 0 (if core then 7 else 0))]

/-- FP32 values of ADAPT_STEP (05 Table 5-12): LR finite and above 0; 0 ≤ MOMENTUM < 1. -/
def lrOk (w : Nat) : Bool := decide (0 < w ∧ w < 0x7F800000)
def momentumOk (w : Nat) : Bool := decide (w < 0x3F800000) || w = 0x80000000

/-- The first 11 fields that REQ_SUBMIT, REQ_APPEND and REQ_VERIFY share (03 Table 3-5, 05 Table 5-6). -/
def reqFlds (p : Packet) (bulk : Bool) (flagMask : Nat) : List Fld :=
  [patFld, fld 24 4 (bulk || le p 24 4 != 0), fld 28 2 true,
   { off := 30, len := 1, mask := 0x1F, ok := le p 30 1 % 4 != 3 },
   { off := 31, len := 1, mask := flagMask, ok := true }, fld 36 4 (le p 36 4 != 0), fld 48 8 (aligned p 48 64)]

/-- The fields of each opcode's PARAMS. `bulk`: the ring is of class BULK. -/
def paramFlds (p : Packet) (bulk : Bool) : List Fld :=
  match opcodeOf p with
  | 0x0002 => [fld 24 8 (aligned p 24 4096)]
  | 0x0003 => [fld 24 8 (aligned p 24 4096)]
  | 0x0004 => [fld 20 2 (within p 20 2 1 4), fld 24 8 (match le p 20 2 with
      | 1 => within p 24 8 500 50000 | 2 => within p 24 8 1 100 | 3 => within p 24 8 1 168 | _ => within p 24 8 0 0x7F)]
  | 0x0006 =>
    [{ off := 20, len := 4, mask := 0xFFFFF, ok := le p 20 4 % 2 ^ 20 != 0 }, fld 24 8 (aligned p 24 4096),
     fld 32 1 (within p 32 1 4 24), fld 33 1 (within p 33 1 0 3), { off := 34, len := 1, mask := 7, ok := true },
     { off := 35, len := 1, mask := 3, ok := true }, { off := 36, len := 2, mask := 0xFFF, ok := true },
     { off := 38, len := 2, mask := 0x7FF, ok := le p 38 2 % 2 ^ 11 != 0 }] ++
      (if p.getLsbD 281 then [fld 40 8 (aligned p 40 8)] else [])
  | 0x0007 => [{ off := 20, len := 4, mask := 0xFFFFF, ok := le p 20 4 % 2 ^ 20 != 0 }]
  | 0x0008 =>
    [{ off := 20, len := 2, mask := 0xFFF, ok := true }, { off := 22, len := 1, mask := 7, ok := true },
     { off := 23, len := 1, mask := 1, ok := true }, fld 24 4 true, fld 28 4 true, fld 32 4 true,
     fld 36 2 (p.getLsbD 184 || within p 36 2 1 1000)]
  | 0x0009 => [fld 20 1 (within p 20 1 0 2),
      fld 21 1 (within p 21 1 0 (match le p 20 1 with | 1 => 1 | 2 => 7 | _ => 0))]
  | 0x000A => [fld 20 1 (within p 20 1 0 1)]
  | 0x0101 => [patFld, fld 24 8 (aligned p 24 128)]
  | 0x0102 => [patFld, { off := 24, len := 1, mask := 1, ok := true }]
  | 0x0103 => [patFld, fld 24 1 (within p 24 1 0 2)]
  | 0x0104 => [fld 24 8 (aligned p 24 4096), fld 32 8 (aligned p 32 65536 && within p 32 8 131072 68719476736)]
  | 0x0105 => [patFld, fld 24 8 (aligned p 24 4096), fld 32 4 (within p 32 4 65536 67108864), fld 36 4 true]
  | 0x0106 => [fld 20 2 true, fld 24 8 (aligned p 24 4096), fld 32 4 (within p 32 4 65536 67108864), fld 36 4 true]
  | 0x0107 => [fld 20 2 true]
  | 0x0201 => reqFlds p bulk 3 ++ [fld 40 4 true, fld 44 2 (within p 44 2 0 4096)]
  | 0x0202 => reqFlds p bulk 2 ++ [fld 32 4 true, fld 40 4 true, fld 44 2 (within p 44 2 0 4096)]
  | 0x0203 => reqFlds p bulk 2 ++ [fld 32 4 true, fld 40 4 (within p 40 4 1 4096), fld 44 1 (within p 44 1 1 64),
      fld 45 1 (within p 45 1 0 1), fld 56 8 (aligned p 56 64)]
  | 0x0204 => [fld 20 4 true, fld 24 1 true]
  | 0x0205 => [ringFld, fld 24 8 true]
  | 0x0206 => [ringFld, fld 24 8 true, fld 32 8 (aligned p 32 64)]
  | 0x0207 => [fld 20 4 true, { off := 24, len := 1, mask := 1, ok := true }]
  | 0x0208 =>
    [patFld, fld 24 4 (bulk || le p 24 4 != 0), fld 28 2 (le p 28 2 != 0xFFFF), fld 30 1 (le p 30 1 = 0),
     fld 32 4 (within p 32 4 0 4096 && (le p 32 4 != 0 || le p 44 1 = 1)), fld 36 4 (le p 36 4 != 0),
     fld 40 4 (within p 40 4 1 65536), fld 44 1 (within p 44 1 0 1), fld 48 8 (aligned p 48 64),
     fld 56 4 (lrOk (le p 56 4)), fld 60 4 (momentumOk (le p 60 4))]
  | 0x0301 => streamOpenFlds p
  | 0x0302 =>
    [streamFld, fld 24 8 true, fld 32 4 (within p 32 4 0 16777216 && (le p 32 4 != 0 || p.getLsbD 322)), fld 36 4 true,
     { off := 40, len := 1, mask := 7, ok := true }, fld 44 4 true, fld 48 8 (aligned p 48 64), fld 56 8 true]
  | 0x0303 => [streamFld, { off := 24, len := 1, mask := 1, ok := true }]
  | 0x0304 => encOpenFlds p
  | 0x0305 =>
    [streamFld, fld 24 1 (within p 24 1 0 1), { off := 25, len := 1, mask := 3, ok := true }, fld 26 1 (within p 26 1 0 64),
     fld 28 8 (le p 24 1 = 1 || aligned p 28 64), fld 36 4 (le p 24 1 = 1 || le p 36 4 % 64 = 0), fld 40 8 true,
     fld 48 4 (within p 48 4 1 16777216), fld 52 8 (aligned p 52 16)]
  | 0x0306 => [streamFld, { off := 24, len := 1, mask := 1, ok := true }]
  | 0x0401 => [fld 24 8 true]
  | 0x0402 => [fld 20 4 true]
  | 0x0403 => [fld 20 4 true, fld 24 1 (within p 24 1 0 1), fld 32 8 true]
  | 0x0404 => [fld 20 4 true, fld 24 8 true, fld 32 4 true]
  | 0x0501 => [{ off := 20, len := 1, mask := 7, ok := true }]
  | 0x0502 => [{ off := 20, len := 1, mask := 7, ok := true }]
  | 0x0503 => [fld 24 8 (aligned p 24 64), fld 32 1 (within p 32 1 1 2)]
  | 0x0504 => [fld 24 8 (aligned p 24 64), fld 32 1 (within p 32 1 0 2)]
  | 0x0505 => [{ off := 20, len := 1, mask := 3, ok := true }, fld 24 8 (aligned p 24 4096),
      fld 32 4 (within p 32 4 4096 1048576)]
  | 0x0506 => [fld 20 1 (within p 20 1 0 1), fld 21 1 (if le p 20 1 = 0 then le p 21 1 = 0 else le p 21 1 != 0),
      fld 24 8 (aligned p 24 64)]
  | 0x0601 => [fld 20 1 (within p 20 1 1 2), fld 24 4 (le p 24 4 != 0), fld 28 16 true]
  | 0x0602 => [fld 24 8 (aligned p 24 64)]
  | 0x0701 => [fld 20 1 (within p 20 1 0 2), fld 24 4 (within p 24 4 0 767), fld 28 8 (aligned p 28 4096), fld 36 4 true]
  | 0x0702 => [fld 20 1 (within p 20 1 0 2)]
  | 0x0703 => [fld 20 1 (within p 20 1 0 2), fld 21 1 (within p 21 1 0 1)]
  | 0x0704 => [fld 24 8 (aligned p 24 64)]
  | 0x0801 => loopFlds p
  | 0x0802 => [fld 20 1 (within p 20 1 0 1), { off := 21, len := 1, mask := 3, ok := true }, fld 24 4 true,
      fld 28 4 (within p 28 4 100000 100000000)]
  | 0x0803 => [fld 20 1 (within p 20 1 0 0x1D), fld 22 2 (within p 22 2 0 255), fld 24 2 (within p 24 2 1 256),
      fld 32 8 (aligned p 32 64)]
  | 0x0804 => [fld 20 1 (within p 20 1 0 2), fld 21 1 (within p 21 1 0 1), fld 24 8 (le p 20 1 != 0 || aligned p 24 4096)]
  | 0x0805 => [fld 20 1 (within p 20 1 0 1), fld 24 8 (aligned p 24 4096)]
  | 0x0806 => selftestFlds p
  | _ => []

/-- FENCE: reserved with SIGNAL_FENCE 0; bits [23:19] and [15:14] reserved with it (02 Table 2-22, R427). -/
def fenceFld (p : Packet) : Fld :=
  { off := 16, len := 4, mask := if signals p then 0xFF073FFF else 0, ok := true }

/-- The offset of the first field of a packet found wrong (02 R40, R427). -/
def badField (p : Packet) (bulk : Bool) : Option Nat := firstFault (fenceFld p :: paramFlds p bulk) p.toNat 16 64

/-! ### Opcodes (02 Tables 2-25, 2-26, 10 R307) -/

/-- Opcodes accepted on ring 0 only. -/
def ringZeroOnly (op : Nat) : Bool :=
  [0x0004, 0x0005, 0x0006, 0x0007, 0x0008, 0x0009, 0x000A, 0x0501, 0x0502, 0x0506, 0x0601, 0x0602, 0x0603, 0x0604, 0x0605,
   0x0606, 0x0701, 0x0702, 0x0703, 0x0704, 0x0801, 0x0802, 0x0803, 0x0805, 0x0806].contains op

/-- Opcodes accepted on any ring. -/
def anyRing (op : Nat) : Bool := [0x0001, 0x0002, 0x0003, 0x0505, 0x0804].contains op

/-- Opcodes accepted on tenant rings only. -/
def tenantOnly (op : Nat) : Bool :=
  [0x0101, 0x0102, 0x0103, 0x0104, 0x0105, 0x0106, 0x0107, 0x0201, 0x0202, 0x0203, 0x0204, 0x0205, 0x0206, 0x0207, 0x0208,
   0x0301, 0x0302, 0x0303, 0x0304, 0x0305, 0x0306, 0x0401, 0x0402, 0x0403, 0x0404, 0x0503, 0x0504].contains op

/-- An opcode of 02 Table 2-26. -/
def knownOp (op : Nat) : Bool := ringZeroOnly op || anyRing op || tenantOnly op

/-- Accepted in HALF_MAST (02 Table 2-25); LOOPBACK_SET and SELFTEST_RUN check their own interface. -/
def halfMastOp (op : Nat) : Bool :=
  [0x0001, 0x0002, 0x0003, 0x000A, 0x0009, 0x0701, 0x0702, 0x0703, 0x0704, 0x0803, 0x0801, 0x0806].contains op

/-- Accepted in SHUTDOWN (02 Table 2-25). -/
def shutdownOp (op : Nat) : Bool := [0x0001, 0x0002, 0x0003, 0x0009].contains op

/-- Accepted in role STANDBY or SPARE (10 R307). -/
def standbyOp (op : Nat) : Bool :=
  [0x0001, 0x0002, 0x0003, 0x0009, 0x000A, 0x0602, 0x0606, 0x0701, 0x0702, 0x0703, 0x0704, 0x0803, 0x0804, 0x0805, 0x0802,
   0x0801, 0x0806].contains op

/-- 10 R307, R322: a module that fetches ring 0 only and accepts the commands of R307 only. -/
def standbyLike (s : State) : Bool := bound s && s.pair.role != .active

/-- 02 R74: SHUTDOWN has been accepted, by command, latch, entry to D3hot or falling flow. -/
def stopping (s : State) : Bool := s.dev.stopping.isSome

/-- The status and DETAIL that check 1 of 02 Table 2-15 gives in the present state to what it does not accept. -/
def notAccepted (s : State) : Status × Nat :=
  if stopping s || s.dev.state == .shutdown then (.badState, stateCode .shutdown)
  else if s.dev.state = .halfMast then (.halfMast, reasonCode s.nor.lastReason)
  else if standbyLike s then (.badState, 18)
  else (.badState, stateCode s.dev.state)

/-- Check 1 of 02 Table 2-15 (02 R66, R74, 10 R307). -/
def acceptedOp (s : State) (op : Nat) : Bool :=
  if stopping s || s.dev.state == .shutdown then shutdownOp op
  else if s.dev.state = .halfMast then halfMastOp op
  else if standbyLike s then standbyOp op
  else true

/-! ### Sealed objects (09 R285, R286) -/

/-- The generation of a tenant with a number, where the tenant holds it. -/
def heldGen (s : State) (t gen : Nat) : Option KeyGen :=
  match tget s.tenants t with
  | none => none
  | some x => ([x.cur, x.prev].filterMap id).find? fun g => g.num = gen

/-- The number of a tenant's current generation. -/
def currentGen (s : State) (t : Nat) : Nat := (((tget s.tenants t).bind (·.cur)).map (·.num)).getD 0

/-- Check 4: the ring's tenant exists and has not been removed. -/
def tenantActive (s : State) (t : Nat) : Bool := ((tget s.tenants t).map (·.st)) == some .active

def epochOf (s : State) (t : Nat) : Nat := ((tget s.tenants t).map (·.epoch)).getD 0

/-- The plaintext of a sealed object with `n` bytes of ciphertext, or the status and DETAIL of its failure. -/
def openSealed (s : State) (t : Nat) (p : Packet) (kind n obj : Nat) : Nat ⊕ (Status × Nat) :=
  let gen := bitsOf obj 111 96
  match (heldGen s t gen).bind (·.bufKey) with
  | none => .inr (.keyStale, gen)
  | some key =>
    let aad := pack [(16, obj), (8, (tagOf p).toNat), (4, (seqOf p).toNat), (1, t), (1, epochOf s t)]
    match (if bitsOf obj 119 112 = kind then
        Config.gcmOpen key (obj % 2 ^ 96) aad n ((obj >>> 128) % 2 ^ (8 * n)) ((obj >>> (128 + 8 * n)) % 2 ^ 128)
      else none) with
    | some m => .inl (m % 2 ^ (8 * n))
    | none => .inr (.integrityMismatch, 0x20000 + kind)

/-- The packet with the plaintext of its parameters in bytes 20 to 63. -/
def withParams (p : Packet) (m : Nat) : Packet := BitVec.ofNat 512 (p.toNat % 2 ^ 160 + m % 2 ^ 352 * 2 ^ 160)

/-- The verdict on a bulk sealed input whose header names a generation and whose tag was checked by the unit (09 R286). -/
def sealedFault (s : State) (t gen kind : Nat) (tagOk : Bool) : Option (Status × Nat) :=
  match (heldGen s t gen).bind (·.bufKey) with
  | none => some (.keyStale, gen)
  | some _ => if tagOk then none else some (.integrityMismatch, 0x20000 + kind)

/-- A command that must seal its output needs a BUF_KEY in the generation it is bound to (09 R286). -/
def sealFault (s : State) (t gen : Nat) : Option (Status × Nat) :=
  match (heldGen s t gen).bind (·.outKey) with
  | none => some (.keyStale, gen)
  | some _ => none

/-- Bytes 0 to 15 of an object the module seals: the nonce of 09 R285, GEN and KIND. -/
def sealHeader (s : State) (t gen kind : Nat) : Nat :=
  pack [(8, ((heldGen s t gen).map (·.nonce)).getD 0), (3, (kemEkHash s).toNat), (1, 0x80), (2, gen), (1, kind), (1, 0)]

/-- A generation's nonce counter moves on (09 R285). -/
def useNonce (t gen : Nat) (s : State) : State :=
  let up := fun (g : KeyGen) => if g.num = gen then { g with nonce := g.nonce + 1 } else g
  { s with tenants := tmod s.tenants t fun x => { x with cur := x.cur.map up, prev := x.prev.map up } }

/-- The n + 32 bytes of an object that the module seals under a generation's OUT_KEY for a command of TAG and SEQ (09 R285, Table
9-10). -/
def sealedObject (s : State) (t gen kind : Nat) (tag : BitVec 64) (seqNo : BitVec 32) (n data : Nat) : Nat :=
  let head := sealHeader s t gen kind
  let aad := pack [(16, head), (8, tag.toNat), (4, seqNo.toNat), (1, t), (1, epochOf s t)]
  let key := ((heldGen s t gen).bind (·.outKey)).getD 0
  pack [(16, head), (n + 16, Config.gcmSeal key (head % 2 ^ 96) aad n (data % 2 ^ (8 * n)))]

/-- An object is sealed for a tenant into host memory. -/
def writeSealed (addr t gen kind : Nat) (tag : BitVec 64) (seqNo : BitVec 32) (n data : Nat) (s : State) : State :=
  useNonce t gen (writeHost addr (n + 32) (sealedObject s t gen kind tag seqNo n data) s)

end Sys2Proof.Machine
end

