-- ==== Sys2Proof/Machine/Sram.lean ====
section
/-! DEFINITION. SRAM of the halves: footprints, pinned and rotating patterns, slices, and the cores a pattern runs on (03
R111-R114, 06 R198, R205, 09 R289, R290, 12 R379). -/
namespace Sys2Proof.Machine

/-- A stage's key: its pattern and half. -/
def stageKey (pi h : Nat) : Nat := 2 * pi + h

/-! ### Footprints -/

/-- SRAM a tenant's patterns may use in a half: 512 MiB, or in partition mode its cores' stores and its half store share
(01 Table 1-6, 09 R290). -/
def sramCap (s : State) (t h : Nat) : Nat :=
  match partOf s t with
  | none => 512 * 2 ^ 20
  | some e => 2 ^ 20 * (64 * ((List.range 4).filter fun k => e.cores.testBit (4 * h + k)).length
      + (if h = 0 then e.hsWest else e.hsEast))

/-- Bytes of an appliqué's versions, each counted in full (03 R111). -/
def appBytes (a : Applique) : Nat := a.bytes + a.prevBytes + a.nextBytes

/-- Footprint of a pattern in a half, its appliqués included (03 R111). -/
def footprint (s : State) (pi h : Nat) : Nat :=
  match tget s.pats pi with
  | none => 0
  | some p =>
    if usesHalf p h then sramOf p h + ((s.apps.filter fun e => e.2.pattern = pi).map fun e => appBytes e.2).sum else 0

/-- Selvage demand of a striped pattern in each direction (06 R198). -/
def selvage (s : State) (pi : Nat) : Nat :=
  match tget s.pats pi with
  | none => 0
  | some p => if p.plan.striped then selvageDemand p.plan else 0

/-- Selvage space a tenant's patterns may use in each direction (06 R195, 09 Table 9-14). -/
def selvageCap (s : State) (t : Nat) : Nat :=
  match partOf s t with
  | none => 4 * 2 ^ 20
  | some e => e.selvage * 2 ^ 18

/-- Two tenants share one SRAM: always, but in partition mode (09 R290, R291). -/
def sharing (s : State) (t u : Nat) : Bool := s.parts.isNone || t = u

/-- Patterns of a list that share SRAM with a tenant. -/
def matesOf (s : State) (t : Nat) (l : List Nat) : List Nat :=
  l.filter fun i => match tget s.pats i with
    | some p => sharing s t p.tenant
    | none => false

/-- SRAM that the patterns of a list take in a half, of those that share it with a tenant. -/
def sramUsed (s : State) (t h : Nat) (l : List Nat) : Nat := ((matesOf s t l).map fun i => footprint s i h).sum

/-- A pattern fits beside the patterns of a list in a half, and in the selvage buffers. -/
def fitsHalf (s : State) (l : List Nat) (pi h : Nat) : Bool :=
  match tget s.pats pi with
  | none => false
  | some p => !usesHalf p h || decide (footprint s pi h + sramUsed s p.tenant h l ≤ sramCap s p.tenant h)

def fitsSelvage (s : State) (l : List Nat) (pi : Nat) : Bool :=
  match tget s.pats pi with
  | none => false
  | some p => decide (selvage s pi = 0 ∨ selvage s pi + ((matesOf s p.tenant l).map (selvage s)).sum ≤ selvageCap s p.tenant)

def fits (s : State) (l : List Nat) (pi : Nat) : Bool :=
  fitsHalf s l pi 0 && fitsHalf s l pi 1 && fitsSelvage s l pi

/-- Indices of the patterns that satisfy a condition. -/
def patsWith (s : State) (f : Pattern → Bool) : List Nat := (s.pats.filter fun e => f e.2).map Prod.fst

/-- Pinned, or being loaded to be pinned (03 R111). -/
def pinning (p : Pattern) : Bool := p.res == .pinned || p.loading.isSome

/-- In the rotation, and not being pinned. -/
def rotating (p : Pattern) : Bool := p.res == .rotating && p.loading.isNone

/-- Holding SRAM now, or promised it by a pinning. -/
def holding (p : Pattern) : Bool := p.sram || p.loading.isSome

/-! ### Requests on patterns -/

/-- A pattern has a request in RUNNING, PREEMPTED or VERIFYING (03 R114). -/
def patBusy (s : State) (pi : Nat) : Bool := s.reqs.any fun e => e.2.pattern = pi && inFlightState e.2.st

/-- Admitted requests of a pattern that have no final reply. -/
def patLive (s : State) (pi : Nat) : List Req :=
  (s.reqs.filter fun e => e.2.pattern = pi && liveState e.2.st).map Prod.snd

/-- Earlier or equal, where none is later than any tick. -/
def minTick (a b : Option Tick) : Option Tick := if tickLe a b then a else b

/-- Rank of a rotating pattern (03 R113): highest class, earliest deadline, those that hold SRAM first, then index. -/
structure Rank where
  cls  : Nat
  dl   : Option Tick
  cold : Bool
  idx  : Nat
deriving DecidableEq, Repr

def rankOf (s : State) (pi : Nat) : Rank :=
  let rs := patLive s pi
  { cls := (rs.map (·.cls)).foldl min 3, dl := (rs.map (·.deadline)).foldl minTick none,
    cold := !((tget s.pats pi).map (·.sram)).getD false, idx := pi }

def tickLt (a b : Option Tick) : Bool := tickLe a b && !tickLe b a

def rankLe (a b : Rank) : Bool :=
  if a.cls ≠ b.cls then decide (a.cls < b.cls)
  else if tickLt a.dl b.dl then true
  else if tickLt b.dl a.dl then false
  else if a.cold ≠ b.cold then !a.cold
  else decide (a.idx ≤ b.idx)

/-- Rotating patterns in rank order, those without admitted requests last (03 R113). -/
def ranking (s : State) : List Nat :=
  let rot := patsWith s rotating
  let live := rot.filter fun i => !(patLive s i).isEmpty
  let idle := rot.filter fun i => (patLive s i).isEmpty
  let sorted := fun l => sortBy (fun a b => rankLe (rankOf s a) (rankOf s b)) l
  sorted live ++ sorted idle

/-! ### The rotation -/

/-- All rotating patterns of a tenant's SRAM fit in a half beside the pinned ones (03 R113). -/
def halfHoldsAll (s : State) (t h : Nat) : Bool :=
  let l := patsWith s fun p => pinning p || rotating p
  decide (sramUsed s t h l ≤ sramCap s t h) && decide (((matesOf s t l).map (selvage s)).sum ≤ selvageCap s t)

/-- Slicing is needed (03 R113). -/
def mustSlice (s : State) : Bool :=
  s.pats.any fun e => rotating e.2 && !(halfHoldsAll s e.2.tenant 0 && halfHoldsAll s e.2.tenant 1)

/-- The patterns that hold SRAM in a slice, in rank order: each that fits in every half it uses beside those before it; one
without an admitted request only if it holds SRAM already (03 R113). -/
def chosen (s : State) : List Nat → List Nat → List Nat
  | used, [] => used
  | used, i :: rest =>
    match tget s.pats i with
    | none => chosen s used rest
    | some p =>
      let h := fun h => !usesHalf p h || halfHoldsAll s p.tenant h || fitsHalf s used i h
      let ok := h 0 && h 1 && fitsSelvage s used i && (!(patLive s i).isEmpty || p.sram ||
        ((!usesHalf p 0 || halfHoldsAll s p.tenant 0) && (!usesHalf p 1 || halfHoldsAll s p.tenant 1)))
      chosen s (if ok then used ++ [i] else used) rest

/-! ### Cores -/

/-- The core that stands in for one: the core a halted core's part has moved to, or itself (12 R379). -/
def coreFor (p : Pattern) (k : Nat) : Nat := tgetD p.migrated k k

/-- The first vision stage of a BANDED or striped pattern runs without its halted cores (06 R205). -/
def banded (p : Pattern) : Bool := p.plan.banded || p.plan.striped

/-- Free core store of a core: 64 MiB less the parts of the resident patterns on it. -/
def coreStoreFree (s : State) (k : Nat) : Nat :=
  64 * 2 ^ 20 - ((s.pats.filter fun e => e.2.sram).map fun e =>
    ((e.2.plan.cores.filter fun o => coreFor e.2 o = k).map (Config.corePart e.1)).sum).sum

/-- The core that takes the part of a halted core: of the same half, running, with the most free store and room, lowest first. -/
def migrationTarget (s : State) (pi o : Nat) : Option Nat :=
  let ok := (List.range 4).map (· + 4 * halfOfCore o) |>.filter fun j =>
    j != o && (coreOf s j).halted.isNone && decide (Config.corePart pi o ≤ coreStoreFree s j)
  (sortBy (fun a b => decide (coreStoreFree s b ≤ coreStoreFree s a)) ok).head?

/-- The part on one core of a SINGLE or SHARDED placement that holds SRAM moves off a halted core, where a core has room (12
R379). -/
def migratePart (pi o : Nat) (s : State) : State :=
  match tget s.pats pi with
  | none => s
  | some p =>
    if !p.sram || banded p || form p = 1 || (coreOf s (coreFor p o)).halted.isNone then s
    else
      match migrationTarget s pi o with
      | some j => modPat pi (fun p => { p with migrated := tset p.migrated o j }) s
      | none => s

/-- Every part that stands on a halted core moves, where a core has room: at the halt, and as room appears or a pattern is given SRAM. -/
def migrateParts (s : State) : State :=
  s.pats.foldl (fun s e => e.2.plan.cores.foldl (fun s o => migratePart e.1 o s) s) s

/-- Prickings of a pattern's PATTERN layers that run in a half (05 Table 5-4). -/
def patternPricks (pi h : Nat) (p : Pattern) : List PrickCopy :=
  (p.plan.attn.zipIdx.filter fun e => e.1.source == .pattern && e.1.half = h).map fun e =>
    { pattern := pi, slot := none, layer := e.2, bytes := e.1.image }

/-- The pricking store of a half holds the PATTERN prickings of the patterns that hold SRAM there, copied from LPDDR4X, beside those of
requests; while a recovery window is open they are still to be rebuilt (05 R169). -/
def stockPricks (s : State) (h : Nat) (x : Half) : Half :=
  if x.window then x
  else { x with pricks := (x.pricks.filter fun y => y.slot.isSome) ++ (s.pats.filter fun e => e.2.sram).flatMap fun e => patternPricks e.1 h e.2 }

/-- The pricking stores of both halves follow the patterns that hold SRAM. -/
def stockHalves (s : State) : State := { s with halves := s.halves.zipIdx.map fun e => stockPricks s e.2 e.1 }

/-- SRAM is given to wanted patterns in rank order as it becomes free (03 R113, R114). The load is taken as done at once
(notes/assumptions 19). -/
def loadWanted (s : State) : State :=
  let want := sortBy (fun a b : Nat × Nat => decide (a.1 ≤ b.1))
    (s.pats.filterMap fun e => if e.2.sram then none else e.2.want.map fun r => (r, e.1))
  migrateParts (stockHalves (want.foldl (fun s e =>
    if fits s ((patsWith s holding).filter fun j => j != e.2) e.2 then
      modPat e.2 (fun p => if p.want.isSome then { p with sram := true, want := none, leaving := false } else p) s
    else s) s))

/-- A slice starts: chosen patterns stay or are wanted, the others leave (03 R113, R114). DESIGN CHOICE (notes/assumptions 104): a
request already QUEUED when its pattern leaves stays QUEUED and is not dispatched; Table 3-3 gives it no way back to ADMITTED. -/
def startSlice (s : State) : State :=
  let order := ranking s
  let l := chosen s (patsWith s pinning) order
  let turn := fun (k : Nat) (p : Pattern) =>
    if !rotating p then p
    else if l.contains k then
      if p.sram then { p with leaving := false, want := none } else { p with want := some (1 + order.idxOf k) }
    else { p with leaving := p.sram, want := none }
  loadWanted { s with pats := tmap s.pats turn }

/-- After any change of what must fit: without slicing every rotating pattern is wanted; where slicing begins, its clock starts
at this tick (03 R113). -/
def rotate (s : State) : State :=
  if mustSlice s then
    match s.sliceAt with
    | none => startSlice { s with sliceAt := some (now s) }
    | some _ => loadWanted s
  else
    let turn := fun (_ : Nat) (p : Pattern) =>
      if rotating p then { p with leaving := false, want := if p.sram then none else some 0 } else p
    loadWanted { s with sliceAt := none, pats := tmap s.pats turn }

/-- Ticks of a slice (02 Table 2-31). -/
def sliceTicks (s : State) : Nat := s.cfg.live.slice * 100000

/-- Half store bytes in use in a half by requests in flight: hot KV pages, pricking stores and activations (03 R111). -/
def workUsed (s : State) (t h : Nat) : Nat :=
  ((s.reqs.filter fun e => inFlightState e.2.st && sharing s t e.2.tenant &&
    ((tget s.pats e.2.pattern).map fun p => usesHalf p h).getD false).map fun e => Config.workingState e.2.pattern h).sum +
  65536 * ownedPages s h fun x => sharing s t x.tenant && match x.use with
    | .kv _ _ _ _ hot => hot
    | _ => false

/-- A pattern being pinned fits in a half beside the patterns of a list and the working state of requests (03 R111). -/
def pinFits (s : State) (l : List Nat) (pi h : Nat) : Bool :=
  match tget s.pats pi with
  | none => false
  | some p => !usesHalf p h ||
      decide (footprint s pi h + sramUsed s p.tenant h l + workUsed s p.tenant h ≤ sramCap s p.tenant h)

/-! ### The pinned limit (03 R111, 09 R290) -/

/-- The pinned limit of a half: 75 % of its SRAM. -/
def pinLimit (s : State) (t h : Nat) : Nat := sramCap s t h * 3 / 4

/-- SRAM of pinned patterns in a half, one pattern left out. -/
def pinnedUsed (s : State) (t h pi : Nat) : Nat := sramUsed s t h ((patsWith s pinning).filter fun j => j != pi)

/-- An appliqué version of `bytes` more would break the pinned limit of the pattern it is attached to (03 R111, R117). -/
def pinnedFull (s : State) (pi : Nat) (p : Pattern) (bytes : Nat) : Bool :=
  pinning p && [0, 1].any fun h => usesHalf p h &&
    decide (pinLimit s p.tenant h < pinnedUsed s p.tenant h pi + footprint s pi h + bytes)

/-- SLICE_START (03 R113): at the first tick of each slice after that at which slicing began. -/
def sliceStart (s : State) : State :=
  match s.sliceAt with
  | none => s
  | some t0 => if t0 < now s ∧ (now s - t0) % sliceTicks s = 0 then
      (if mustSlice s then startSlice s else rotate s) else s

/-- PATTERN_SRAM_RELEASE (03 R114). -/
def sramRelease (pi : Nat) (s : State) : State :=
  match tget s.pats pi with
  | none => s
  | some p =>
    if p.leaving && !patBusy s pi then loadWanted (modPat pi (fun p => { p with sram := false, leaving := false }) s) else s

/-- Running on cores: RUNNING or VERIFYING. -/
def occupies (r : Req) : Bool := r.st == .running || r.st == .verifying

/-! ### Sets of cores -/

/-- The cores a pattern's work runs on now, ascending as the plan has them. -/
def coresNow (s : State) (p : Pattern) : List Nat :=
  let l := (p.plan.cores.map (coreFor p)).eraseDups
  if banded p then l.filter fun k => (coreOf s k).halted.isNone else l

/-- The sets of cores one request of a pattern can run on: any one copy of a REPLICATED pattern, or all (01 Table 1-5). -/
def coreSets (s : State) (p : Pattern) : List (List Nat) :=
  if form p = 1 then (coresNow s p).map fun k => [k] else [coresNow s p]

/-- Every core of a set serves, and there is one (01 R16, 12 R379). -/
def setServes (s : State) (l : List Nat) : Bool :=
  !l.isEmpty && l.all fun k => (coreOf s k).halted.isNone && halfInService s (halfOfCore k)

def overlaps (a b : List Nat) : Bool := a.any fun k => b.contains k

end Sys2Proof.Machine
end

