-- ==== Sys2Proof/Machine/Admission.lean ====
section
/-! DEFINITION. Admission of requests: the checks of 03 Table 3-4 in their order, and what passing them does (03 R80-R84, R90, R105,
05 R170, R180, R184, 07 R234, R235). -/
namespace Sys2Proof.Machine

/-! ### The parameter blocks -/

/-- The plaintext of the I/O block and the tree block of a request (09 R285). -/
def openBlocks (s : State) (t : Nat) (p : Packet) (b : Blocks) : (Nat × Nat) ⊕ (Status × Nat) :=
  if !encParams p then .inl (b.io.toNat % 2 ^ 512, b.tree.toNat % 2 ^ 2560)
  else
    match openSealed s t p 3 64 b.io.toNat with
    | .inr e => .inr e
    | .inl io =>
      if opcodeOf p ≠ 0x0203 then .inl (io, 0)
      else match openSealed s t p 3 320 b.tree.toNat with
        | .inr e => .inr e
        | .inl tree => .inl (io, tree)

/-- Bytes of a number. -/
def byteF (v off len : Nat) : Nat := (v >>> (8 * off)) % 2 ^ (8 * len)

/-- TOKEN[i] and PARENT[i] of a tree block (05 Table 5-7). -/
def treeToken (tree i : Nat) : Nat := byteF tree (4 * i) 4
def treeParent (tree i : Nat) : Nat := byteF tree (0x100 + i) 1

/-- TOKEN[i] is at fault: outside the vocabulary, a repeat of an earlier candidate of the same parent, or not 0 beyond the
candidates (05 R170). -/
def tokenFault (tree n vocab i : Nat) : Bool :=
  if n ≤ i then treeToken tree i != 0
  else decide (vocab ≤ treeToken tree i) ||
    (List.range i).any fun j => treeToken tree j = treeToken tree i && treeParent tree j = treeParent tree i

/-- PARENT[i] is at fault (05 R170). -/
def parentFault (tree n i : Nat) : Bool :=
  if n ≤ i then treeParent tree i != 0 else treeParent tree i != 0xFF && decide (i ≤ treeParent tree i)

/-- Offset of the first fault of a tree block of `n` candidates. -/
def treeFault (tree n vocab : Nat) : Option Nat :=
  match (List.range 64).find? (tokenFault tree n vocab) with
  | some i => some (4 * i)
  | none => ((List.range 64).find? (parentFault tree n)).map (0x100 + ·)

/-- Output bytes a request needs besides sealing (03 Table 3-6, 05 Tables 5-9, 5-13). -/
def outNeed (p : Packet) (pat : Pattern) : Nat :=
  match opcodeOf p with
  | 0x0203 => 64 + (if le p 45 1 = 0 then 1 else le p 44 1 + 1) * outBytesOf pat
  | 0x0208 => 16
  | _ => outBytesOf pat

/-- The I/O block's fields (03 Table 3-6, 07 R234). Without a pattern only the reserved bits and bytes are judged. -/
def ioFlds (p : Packet) (pat : Option Pattern) (io : Nat) : List Fld :=
  let pic := pat.any fun x => x.plan.picture.isSome
  [fld 0x00 8 true, fld 0x08 4 (!pic || byteF io 0x08 4 = 0), fld 0x0C 4 (!pic || byteF io 0x0C 4 = 0), fld 0x10 8 true,
   fld 0x18 4 (pat.all fun x => decide (outNeed p x + (if io.testBit 256 then 32 else 0) ≤ byteF io 0x18 4)), fld 0x1C 4 true,
   { off := 0x20, len := 1, mask := if pic then 5 else 7, ok := true }]

/-- A pattern whose REQ_VERIFY is allowed: one row of VOCAB FP32 values and CAUSAL masks only (05). -/
def verifiable (pat : Pattern) : Bool :=
  pat.plan.vocab != 0 && outBytesOf pat = 4 * pat.plan.vocab && purelyCausal pat

/-- HEM of a request is in range for its pattern (03 Table 3-10). -/
def hemOk (p : Packet) (pat : Pattern) : Bool :=
  let policy := le p 30 1 % 4
  let n := le p 30 1 / 4 % 8
  policy = 0 || (hemCount pat != 0 && (policy != 2 || (n != 0 && decide (n ≤ hemCount pat))))

/-- Packet offsets that are wrong for the pattern named. -/
def patternFaults (p : Packet) (pat : Pattern) : List Nat :=
  (if opcodeOf p = 0x0203 && !verifiable pat then [20] else []) ++
  (if opcodeOf p = 0x0208 ∧ trains pat = false then [20] else []) ++
  (if opcodeOf p ≠ 0x0208 ∧ hemOk p pat = false then [30] else []) ++
  (if (opcodeOf p = 0x0201 ∨ opcodeOf p = 0x0202) ∧ unitTokens pat ≠ 0 ∧ le p 40 4 ≠ 0 then [40] else [])

/-- Check 1 of 03 Table 3-4: the DETAIL of the first field found wrong. -/
def check1 (p : Packet) (bulk : Bool) (pat : Option Pattern) (io tree : Nat) : Option Nat :=
  let own := (badField p bulk).toList ++ (match pat with | some x => patternFaults p x | none => [])
  match own.min? with
  | some d => some d
  | none =>
    match firstFault (ioFlds p pat io) io 0 64 with
    | some d => some (0x8000 + d)
    | none =>
      if opcodeOf p ≠ 0x0203 then none
      else (treeFault tree (le p 44 1) ((pat.map fun x => x.plan.vocab).getD (2 ^ 32))).map (0x8000 + ·)

/-! ### What a request names -/

/-- The pattern a handle names (03). -/
def findPattern (s : State) (h : Nat) : Option (Nat × Pattern) :=
  let i := h % 4096
  match tget s.pats i with
  | some x => if h = patHandle x.gen i then some (i, x) else none
  | none => none

/-- The appliqué a handle names (03 R115-R118). -/
def findApplique (s : State) (h : Nat) : Option (Nat × Applique) :=
  match tget s.apps (h % 1024) with
  | some x => if h = appHandle x.gen (h % 1024) ∧ x.current ≠ 0 then some (h % 1024, x) else none
  | none => none

/-- The sequence a handle names (05). -/
def findSeq (s : State) (h : Nat) : Option (Nat × Sequence) :=
  match tget s.seqs (h % 2 ^ 18) with
  | some x => if h = seqHandle x.gen (h % 2 ^ 18) then some (h % 2 ^ 18, x) else none
  | none => none

/-- The stream a handle names (07). -/
def findStream (s : State) (h : Nat) : Option (Nat × Stream) :=
  match tget s.streams (h % 64) with
  | some x => if h = streamHandle x.gen (h % 64) then some (h % 64, x) else none
  | none => none

/-- Versions an appliqué holds (03 R115). -/
def versions (a : Applique) : Nat := 1 + bit a.previous.isSome

/-- The second version place is free (03 R117, 05 R184). -/
def placeFree (a : Applique) : Bool := a.previous.isNone && a.place.isNone

/-- Check 7 of 03 Table 3-4 and the last sentence of R83. An ADAPT_STEP with APPLY meets the refusals of APPLIQUE_REPLACE (R115): no
second place, then the pinned limit. -/
def appliqueFault (s : State) (p : Packet) (pi : Nat) (pat : Pattern) : Option (Status × Nat) :=
  let h := le p 28 2
  let op := opcodeOf p
  let wrongSeq := (op = 0x0202 || op = 0x0203) &&
    (match findSeq s (le p 32 4) with
      | some (_, q) => (match q.applique with
          | none => h != 0xFFFF
          | some (i, _) => h != ((tget s.apps i).map fun a => appHandle a.gen i).getD 0xFFFF)
      | none => false)
  if wrongSeq then some (.badParam, 28)
  else if h = 0xFFFF then none
  else
    match findApplique s h with
    | none => some (.badParam, 28)
    | some (_, a) =>
      if a.pattern ≠ pi then some (.badParam, 28)
      else if a.retiring then some (.badState, 5)
      else if op = 0x0208 ∧ le p 44 1 = 1 ∧ placeFree a = false then some (.busy, 4)
      else if op = 0x0208 ∧ le p 44 1 = 1 ∧ pinnedFull s pi pat a.bytes = true then some (.busy, 1)
      else none

/-- The buffer of a stream that holds a picture. -/
def bufferOf (st : Stream) (num : Nat) : Option (Nat × Buf) :=
  (st.bufs.zipIdx.map fun e => (e.2, e.1)).find? fun e => e.2.picture = some num

/-- The sample of a plane of a buffer (07 R222). -/
def poolSample (st : Stream) (b : Buf) (p y x : Nat) : Nat :=
  let n := sampleBytes st.bits
  (b.data >>> (8 * (poolPlane st.width st.height st.bits p + y * planePitch st.width st.bits p + x * n))) % 2 ^ (8 * n)

/-- The picture reference of 07 R234 against a window of `w` × `h`. -/
def pictureFault (s : State) (t : Nat) (ref : Nat) (w h : Nat) : Option (Status × Nat) :=
  match findStream s (ref % 2 ^ 32) with
  | none => some (.badParam, 0x8000)
  | some (_, st) =>
    if st.tenant ≠ t then some (.badParam, 0x8000)
    else if st.closing.isSome then some (.badState, 9)
    else
      match bufferOf st (ref / 2 ^ 32) with
      | none => some (.badState, 8)
      | some (_, b) =>
        if (!b.outPend && b.hold = 0) || !b.replied then some (.badState, 8)
        else if (b.window.extractLsb' 32 16).toNat ≠ w ∨ (b.window.extractLsb' 48 16).toNat ≠ h then some (.badParam, 0x8000)
        else none

/-- The hold count of a picture's buffer changes (07 R235). -/
def holdPicture (ref : Nat) (f : Nat → Nat) (s : State) : State :=
  match findStream s (ref % 2 ^ 32) with
  | none => s
  | some (i, _) =>
    let one := fun (b : Buf) => if b.picture = some (ref / 2 ^ 32) then { b with hold := f b.hold } else b
    modStream i (fun st => { st with bufs := st.bufs.map one }) s

/-- A picture of a stream is named in this tick, or a buffer of its stream was selected in it: within a tick, RELEASE fields of fetched feeds
come first, then admissions and acceptances that name pictures, then selections (07 R225). -/
def namePicture (ref : Nat) (s : State) : State :=
  modStream (ref % 64) (fun x => { x with named := some (now s) }) s
def pickedNow (s : State) (ref : Nat) : Bool := (findStream s (ref % 2 ^ 32)).any fun e => e.2.picked == some (now s)

/-! ### Deadlines and budgets -/

/-- M of 03 Table 3-11. -/
def declaredMin (p : Packet) (pat : Pattern) : Nat :=
  if opcodeOf p = 0x0208 then adaptFixed pat + ceilDiv (le p 32 4 * le p 40 4 * adaptPos pat) 256
  else
    match le p 30 1 % 4 with
    | 0 => minFull pat
    | 1 => minHemTicks pat 1 + hemLead pat
    | _ => minHemTicks pat (le p 30 1 / 4 % 8) + hemLead pat

/-- The largest divider in force on a pattern's cores, a halted core counting as ÷8 (03 R81). -/
def worstDivider (s : State) (pat : Pattern) : Nat :=
  (pat.plan.cores.map fun k => if (coreOf s k).halted.isSome then 8 else divider (coreOf s k)).foldl max 4

/-- The smallest D that passes check 10 at this tick (03 R81, R82). -/
def leastD (s : State) (p : Packet) (pat : Pattern) (doorbell : Tick) : Nat :=
  ceilDiv (declaredMin p pat * worstDivider s pat) 4 + s.cfg.live.guard + now s - doorbell

/-- What a class can draw from an account (03 R105, R106). -/
def drawable (a : Account) (cls : Nat) : Int := if cls = 0 then a.balance else a.balance - a.fig.reserve

/-- The first tick of an account's next window (03 R101). -/
def nextWindow (a : Account) : Tick := a.window + a.fig.windowMs * 100000

/-- TENANT's use of the request table and of sequences against its share (09 R290). -/
def requestsFull (s : State) (t : Nat) : Bool :=
  decide (65536 ≤ s.reqs.length) || (match partOf s t with
    | some e => decide (e.requests ≤ (s.reqs.filter fun x => x.2.tenant = t).length)
    | none => false)

def sequencesFull (s : State) (t : Nat) : Bool :=
  decide (262144 ≤ s.seqs.length) || (match partOf s t with
    | some e => decide (e.sequences ≤ (s.seqs.filter fun x => x.2.tenant = t).length)
    | none => false)

/-! ### The checks -/

/-- A refusal: status, DETAIL, VALUE. -/
abbrev Refused := Status × Nat × BitVec 64

/-- The packet of a REQ_SUBMIT that opens a sequence. -/
def newSeq (p : Packet) : Bool := opcodeOf p = 0x0201 && p.getLsbD 248

/-- Checks 2 to 6 and 8 to 11 of 03 Table 3-4 with 07 R234, in their order with check 7. -/
def admitRest (s : State) (c : Cmd) (r : Ring) (pi : Nat) (pat : Pattern) (io : Nat) : Option Refused :=
  let p := c.pkt
  let t := r.tenant.getD 0
  let op := opcodeOf p
  let fail := fun (st : Status) (d : Nat) => some ((st, d, 0) : Refused)
  if pat.tenant ≠ t then fail .accessDenied 2
  else if pat.evicting.isSome then fail .badState 3
  else if !resident pat then fail .badState 1
  else if r.cls = 0 ∧ pat.res ≠ .pinned then fail .badState 4
  else if ([0, 1].any fun h => usesHalf pat h && !halfInService s h) then fail .stateLost 4
  else
    match appliqueFault s p pi pat with
    | some (st, d) => fail st d
    | none =>
      let seqOk := match findSeq s (le p 32 4) with
        | some (_, q) => q.st == .open && q.tenant = t && q.pattern = pi
        | none => false
      if (op = 0x0202 ∨ op = 0x0203) ∧ seqOk = false then fail .badState 6
      else
        match pat.plan.picture.bind fun wh => pictureFault s t (byteF io 0 8) wh.1 wh.2 with
        | some (st, d) => fail st d
        | none =>
          if newSeq p && sequencesFull s t then fail .tableFull 2
          else if ¬ (le p 24 4 = 0 ∧ r.cls = 3) ∧ le p 24 4 < leastD s p pat c.doorbell then
            fail .deadlineUnreachable (min (leastD s p pat c.doorbell) 0xFFFFFFFF)
          else if requestsFull s t then fail .tableFull 1
          else
            match tget s.accts r.account with
            | none => fail .budgetExhausted 0
            | some a =>
              if (le p 36 4 : Int) ≤ drawable a r.cls then none
              else some (.budgetExhausted, (drawable a r.cls).toNat, BitVec.ofNat 64 (nextWindow a - now s))

/-- The first admission check that fails, or the pattern and the plaintext blocks. -/
def admitCheck (s : State) (c : Cmd) (r : Ring) (b : Blocks) : (Nat × Pattern × Nat × Nat) ⊕ Refused :=
  let p := c.pkt
  match openBlocks s (r.tenant.getD 0) p b with
  | .inr (st, d) => .inr (st, d, 0)
  | .inl (io, tree) =>
    let found := findPattern s (le p 20 4)
    match check1 p (r.cls = 3) (found.map (·.2)) io tree with
    | some d => .inr (.badParam, d, 0)
    | none =>
      match found with
      | none => .inr (.badParam, 20, 0)
      | some (pi, pat) =>
        match admitRest s c r pi pat io with
        | some e => .inr e
        | none => .inl (pi, pat, io, tree)

/-! ### What passing does -/

/-- The lowest free slot of the request table (the choice is notes/assumptions 12). -/
def freeSlot (s : State) : Nat := (tfree s.reqs 65536).getD 0

/-- The appliqué and version an admission binds (03 R83). -/
def boundVersion (s : State) (p : Packet) : Option (Nat × Nat) :=
  if opcodeOf p = 0x0202 ∨ opcodeOf p = 0x0203 then
    match findSeq s (le p 32 4) with
    | some (_, q) => q.applique
    | none => none
  else
    match findApplique s (le p 28 2) with
    | some (i, a) => if le p 28 2 = 0xFFFF then none else some (i, a.current)
    | none => none

/-- A new sequence, OPEN (05 Table 5-2). -/
def openSeq (s : State) (p : Packet) (pi t : Nat) : Nat × Sequence :=
  let i := (tfree s.seqs 262144).getD 0
  (i, { gen := tgetD s.seqGens i 1, pattern := pi, tenant := t, applique := boundVersion s p, st := .open, committed := 0,
        prov := none, mirrored := p.getLsbD 249, closer := none, freed := 0 })

/-- MIRROR of a request (10 R314). -/
def mirrorOf (s : State) (p : Packet) : Bool :=
  if opcodeOf p = 0x0202 ∨ opcodeOf p = 0x0203 then
    ((findSeq s (le p 32 4)).map fun e => e.2.mirrored).getD false
  else opcodeOf p = 0x0201 && p.getLsbD 249

/-- The request table entry of an admitted request (03 Table 3-1). -/
def newReq (s : State) (cid : Nat) (c : Cmd) (r : Ring) (pi : Nat) (pat : Pattern) (io tree slot : Nat)
    (seqIdx : Option Nat) : Req :=
  let p := c.pkt
  let op := opcodeOf p
  let t := r.tenant.getD 0
  let d := le p 24 4
  let v : Verify :=
    { greedy := le p 45 1 = 0, tokens := (List.range (le p 44 1)).map (treeToken tree),
      parents := (List.range (le p 44 1)).map (treeParent tree), path := [], bonus := 0xFFFFFFFF, rows := [] }
  let ad : Adapt :=
    { apply := le p 44 1 = 1, examples := le p 32 4, maxLen := le p 40 4, lr := BitVec.ofNat 32 (le p 56 4),
      momentum := BitVec.ofNat 32 (le p 60 4), grads := [] }
  { gen := tgetD s.reqGens slot 1, st := .admitted, opcode := op, cls := r.cls, tenant := t, mirror := mirrorOf s p,
    account := r.account, ring := c.ring, order := cid, ordered := ordered p, queue := c.queue, tag := tagOf p,
    seqNo := seqOf p, fence := if signals p then some (fenceOf p) else none, pattern := pi, patHandle := le p 20 4,
    applique := boundVersion s p, deadline := if d = 0 then none else some (c.doorbell + d), doorbell := c.doorbell,
    guard := s.cfg.live.guard, hemPolicy := if op = 0x0208 then 0 else le p 30 1 % 4,
    minHem := if op = 0x0208 then 0 else le p 30 1 / 4 % 8, deepest := 0, charged := le p 36 4, used := 0, counted := 0,
    number := s.nextReq, seqIdx := seqIdx, baseLen := 0, inUnits := if op = 0x0208 then 0 else le p 40 4,
    genTokens := if op = 0x0201 ∨ op = 0x0202 then le p 44 2 else 0, cands := if op = 0x0203 then le p 44 1 else 0,
    verify := if op ≠ 0x0203 then none else some v, adapt := if op ≠ 0x0208 then none else some ad,
    keyGen := currentGen s t, bufFlags := BitVec.ofNat 8 (byteF io 0x20 1), inCrc := BitVec.ofNat 32 (byteF io 0x0C 4),
    inOk := !io.testBit 257 && !io.testBit 256, outAddr := byteF io 0x10 8, ioAddr := le p 48 8,
    picture := if pat.plan.picture.isSome then some (byteF io 0 8, pi) else none, cores := pat.plan.cores, result := none,
    final := none, stopped := false, ran := false, partner := c.partner,
    fast := r.fast && op != 0x0208, table := false, empties := 0, lent := false }

/-- The sentinel's entry of a request (03 R89, R90). -/
def newEntry (q : Req) (seqH lead : Nat) : SEntry :=
  { gen := q.gen, seqHandle := seqH, queue := q.queue, tag := q.tag, seqNo := q.seqNo,
    fallback := q.deadline.map (· - q.guard), cutoff := q.deadline.map (· - q.guard - lead), deepest := 0, final := false,
    mirror := q.mirror, armed := true, lost := false }

/-- A request that passed every check is charged, given an entry, armed and placed in ADMITTED (03 R80, R105). -/
def admitWith (cid : Nat) (c : Cmd) (r : Ring) (pi : Nat) (pat : Pattern) (io tree : Nat) (s : State) : State :=
  let p := c.pkt
  let t := r.tenant.getD 0
  let slot := freeSlot s
  let made := openSeq s p pi t
  let seqIdx := if newSeq p then some made.1 else
    if opcodeOf p = 0x0202 ∨ opcodeOf p = 0x0203 then some (le p 32 4 % 2 ^ 18) else none
  let q := newReq s cid c r pi pat io tree slot seqIdx
  let s := { s with accts := tmod s.accts r.account fun a =>
                      { a with balance := a.balance - q.charged, lastAdmit := some (now s) },
                    seqs := if newSeq p then tset s.seqs made.1 made.2 else s.seqs, nextReq := s.nextReq + 1 }
  let s := { s with reqs := tset s.reqs slot q, cmds := tdel s.cmds cid }
  let entry := newEntry q (reqSeqHandle s q) (hemLead pat)
  let s := { s with sent := { s.sent with entries := tset s.sent.entries slot entry } }
  let s := match q.adapt, q.applique with
    | some a, some (i, _) =>
      if a.apply then rotate (modApp i (fun x => { x with place := some (.req slot), nextBytes := x.bytes }) s) else s
    | _, _ => s
  let s := match q.picture with
    | some (ref, _) => namePicture ref (holdPicture ref (· + 1) s)
    | none => s
  let s := if newSeq p then tellSeq made.1 s else s
  tellReq slot s

/-- 12 R381: an unbound module that is held refuses requests in place of admission. -/
def heldUnbound (s : State) : Bool :=
  match s.thermal.hold with
  | some h => !h.bound
  | none => false

/-- Every request fetched from the ring before a command has been admitted or refused (02 R58). -/
def firstUnadmitted (s : State) (cid ring : Nat) : Bool :=
  !(s.cmds.any fun e => decide (e.1 < cid) && e.2.ring = ring && isReqOp (opcodeOf e.2.pkt) && e.2.phase == .ready)

/-! ### Budget windows (03 R101-R103, 02 R71) -/

/-- An account after the windows that have started by a tick: changed figures take effect, then each window's refill. -/
def refilled (a : Account) (t : Tick) : Account :=
  if t < nextWindow a then a
  else
    let fig := a.pending.getD a.fig
    let first : Account :=
      { a with fig := fig, pending := none, window := nextWindow a, balance := min (a.balance + fig.refill) fig.cap }
    let n := (t - first.window) / (fig.windowMs * 100000)
    if n = 0 then first
    else { first with window := first.window + n * (fig.windowMs * 100000), balance := min (first.balance + n * fig.refill) fig.cap }

/-- BUDGET_REFILL (03 R101, R102): every window that has started is applied. R103 puts it before the reconciliations and admissions of
its tick, which apply it first where it has not run. -/
def budgetRefill (i : Nat) (s : State) : State :=
  match tget s.accts i with
  | none => s
  | some a =>
    if now s < nextWindow a then s
    else
      let a' := refilled a (now s)
      tell (.budget a'.balance a'.window) i 0 (some a.tenant) { s with accts := tset s.accts i a' }

/-! ### Admission -/

/-- The request names a picture of a stream that has selected a buffer in this tick. -/
def namesPicked (s : State) (c : Cmd) (r : Ring) (b : Blocks) : Bool :=
  match openBlocks s (r.tenant.getD 0) c.pkt b, findPattern s (le c.pkt 20 4) with
  | .inl (io, _), some (_, pat) => pat.plan.picture.isSome && pickedNow s (byteF io 0 8)
  | _, _ => false

/-- A fetched request is taken to admission in its ring's order: it is admitted, or its refusal is its final reply (02 R58, 03 R80).
A refill that is due comes first (R103); behind a buffer selection of the same tick a request that names a picture waits (07 R225). -/
def admitRequest (cid : Nat) (b : Blocks) (s : State) : State :=
  match tget s.cmds cid with
  | none => s
  | some c =>
    match tget s.rings c.ring with
    | none => s
    | some r =>
      if c.phase ≠ .ready ∨ hubRuns s = false ∨ ending s = true ∨ firstUnadmitted s cid c.ring = false ∨ namesPicked s c r b = true then s
      else if stopping s then refuse cid .badState (stateCode .shutdown) s
      else if heldUnbound s then refuse cid .thermalAbort 1 s
      else
        let s := budgetRefill r.account s
        match admitCheck s c r b with
        | .inl (pi, pat, io, tree) => admitWith cid c r pi pat io tree s
        | .inr (st, d, v) => finish cid st d v 0 .none s

end Sys2Proof.Machine
end

