-- ==== Sys2Proof/Machine/Array.lean ====
section
/-! DEFINITION. The array of a core: tiles and fold modes, one pass of a vector against a tile, the 112-bit column sums and the edge registers (04
R126 to R137, Tables 4-2 to 4-5). -/
namespace Sys2Proof.Machine

/-! ### Sizes (04 Tables 4-2 to 4-4) -/

/-- Sub-arrays of a fold mode, and the 8-bit cells of each along an edge. -/
def Fold.count : Fold → Nat
  | .full => 1 | .quad => 4 | .sixteen => 16
def Fold.cells : Fold → Nat
  | .full => 512 | .quad => 256 | .sixteen => 128

/-- Columns of a sub-array, and its reduction elements. -/
def subCols (m : ArrayMode) (f : Fold) : Nat := if m = .bits16 then f.cells / 2 else f.cells
def subRows (m : ArrayMode) (f : Fold) : Nat :=
  match m with
  | .bits4 => 2 * f.cells
  | .bits8 => f.cells
  | .bits16 => f.cells / 2

/-- Elements of a tile, and its scale bytes (Table 4-3). -/
def tileElems (m : ArrayMode) (f : Fold) : Nat := subRows m f * subCols m f
def tileBytes (m : ArrayMode) (f : Fold) (k : Elem) : Nat := planeBytes k (tileElems m f)
def tileScales (m : ArrayMode) (f : Fold) : Nat := tileElems m f / 32

/-- Column `j` of a tile as (scale, code) in reduction order: its elements and its blocks follow one another (notes/assumptions 113). -/
def Tile.column (t : Tile) (j : Nat) : List (Nat × Nat) :=
  let n := subRows t.mode t.fold
  unpackTensor t.fmt n (t.elems >>> (Elem.bits t.fmt * (j * n))) (t.scales.map fun z => z >>> (8 * (j * (n / 32))))

/-! ### One column of a pass, narrow formats (04 R131, R132) -/

/-- A narrow value without its scale in units of its format's smallest step. -/
def stepsOf (k : Elem) (code : Nat) : Int :=
  match k.decode code with
  | .fin n m e => sgn n (m * 2 ^ (e - k.lsbSpan.1).toNat)
  | _ => 0

/-- A pair of blocks of one column: combined scale exponent, exact sum of its products in steps of the two formats, whether every
product is zero, and what NaN and infinities they hold. -/
structure BlockPair where
  e    : Int
  sum  : Int
  zero : Bool
  nan  : Bool
  pinf : Bool
  ninf : Bool
deriving DecidableEq, Repr

def blockPair (a w : Elem) (xs ys : List (Nat × Nat)) : BlockPair :=
  let ps := (xs.zip ys).map fun p => mulVal (scaled a p.1.1 p.1.2) (scaled w p.2.1 p.2.2)
  let sa := (xs.headD (0x7F, 0)).1
  let sw := (ys.headD (0x7F, 0)).1
  { e := (sa : Int) - 127 + ((sw : Int) - 127), sum := ((xs.zip ys).map fun p => stepsOf a p.1.2 * stepsOf w p.2.2).sum,
    zero := ps.all fun v => match v with | .fin _ 0 _ => true | _ => false,
    nan := ps.contains .nan, pinf := ps.contains (.inf false), ninf := ps.contains (.inf true) }

/-- The block pairs of one column. -/
def blockPairs (a w : Elem) : Nat → List (Nat × Nat) → List (Nat × Nat) → List BlockPair
  | 0, _, _ => []
  | n + 1, xs, ys =>
    if xs.isEmpty || ys.isEmpty then [] else blockPair a w (xs.take 32) (ys.take 32) :: blockPairs a w n (xs.drop 32) (ys.drop 32)

/-- The passes of one column: each has the largest exponent left as its anchor and covers the block pairs within the window below it. -/
def passesOf (w : Nat) : Nat → List BlockPair → List (Int × List BlockPair)
  | 0, _ => []
  | n + 1, l =>
    match (l.map (·.e)).max? with
    | none => []
    | some a => (a, l.filter fun b => decide (a - w ≤ b.e)) :: passesOf w n (l.filter fun b => decide (b.e < a - w))

/-- Exponent of the accumulator's lowest bit, beside the steps of the formats: W below the anchor, and nowhere below that of the
smallest scales. -/
def accBase (w : Nat) (anchor : Int) : Int := max (anchor - w) (-254)

/-- The 112-bit two's complement accumulator of a pass. -/
def accumulate (w : Nat) (p : Int × List BlockPair) : BitVec 112 :=
  BitVec.ofInt 112 (p.2.map fun b => b.sum * 2 ^ (b.e - accBase w p.1).toNat).sum

/-- An edge register before its first pass. -/
def Edge.clear : Edge := { sum := 0, nan := false, pinf := false, ninf := false, run := none }

/-- A pass's column sum goes into the edge register, whose lowest bit weighs 2^-286 (04 R133). -/
def addEdge (a k : Elem) (w : Nat) (g : Edge) (p : Int × List BlockPair) : Edge :=
  let sh := (accBase w p.1 + a.lsbSpan.1 + k.lsbSpan.1 + 286).toNat
  { g with sum := g.sum + ((accumulate w p).signExtend 640) <<< sh }

/-- The block pairs of one column of a vector against a tile. -/
def columnBlocks (t : Tile) (a : Elem) (xs : List (Nat × Nat)) (j : Nat) : List BlockPair :=
  blockPairs a t.fmt xs.length xs (t.column j)

/-- The passes of a column: pairs whose products are all zero take no part. -/
def columnPasses (t : Tile) (a : Elem) (xs : List (Nat × Nat)) (j : Nat) : List (Int × List BlockPair) :=
  let l := (columnBlocks t a xs j).filter fun b => !b.zero
  passesOf (window (t.mode == .bits4) a t.fmt) l.length l

/-- A column's edge register after a vector of a narrow format. -/
def narrowColumn (t : Tile) (a : Elem) (xs : List (Nat × Nat)) (j : Nat) (g : Edge) : Edge :=
  let l := columnBlocks t a xs j
  let g := { g with nan := g.nan || l.any (·.nan), pinf := g.pinf || l.any (·.pinf), ninf := g.ninf || l.any (·.ninf) }
  (columnPasses t a xs j).foldl (addEdge a t.fmt (window (t.mode == .bits4) a t.fmt)) g

/-- A column's edge register after a vector of a 16-bit format: the running value is fed back into the column (04 R137). -/
def wideColumn (t : Tile) (a : Elem) (xs : List (Nat × Nat)) (j : Nat) (g : Edge) : Edge :=
  { g with run := some (sum16 (g.run.getD 0) (products16 a t.fmt (xs.map (·.2)) ((t.column j).map (·.2)))) }

def passColumn (t : Tile) (a : Elem) (xs : List (Nat × Nat)) (j : Nat) (g : Edge) : Edge :=
  if t.mode = .bits16 then wideColumn t a xs j g else narrowColumn t a xs j g

/-- Further passes of a vector: each covers every column that needs one (04 R132). -/
def furtherPasses (t : Tile) (a : Elem) (xs : List (Nat × Nat)) : Nat :=
  if t.mode = .bits16 then 0
  else ((List.range (subCols t.mode t.fold)).map fun j => (columnPasses t a xs j).length - 1).foldl max 0

/-! ### Results (04 R134, R135, Table 4-5) -/

/-- The FP32 result of an edge register. -/
def Edge.fp32 (g : Edge) : BitVec 32 :=
  match g.run with
  | some v => v
  | none =>
    if g.nan || (g.pinf && g.ninf) then nan32 else if g.pinf then 0x7F800000 else if g.ninf then 0xFF800000
    else round32 (dyadic g.sum.toInt (-286))

/-- The INT32 result of an edge register of INT8 products without scales. -/
def Edge.int32 (g : Edge) : BitVec 32 := BitVec.ofInt 32 (max (-2147483648) (min 2147483647 (g.sum.toInt / 2 ^ 286)))

end Sys2Proof.Machine
end

