-- ==== Sys2Proof/Machine/Life.lean ====
section
/-! DEFINITION. What ends with a request or a sequence: page lists, appliqué versions and their draining, key generations, fences
(02 R63, 03 R115-R118, 05 R154-R159, R171-R175, R183, R184, 09 R284, R297). -/
namespace Sys2Proof.Machine

/-! ### Pages of sequences (05 R154, R155, R174) -/

/-- Positions in one page of a layer. -/
def perPage (l : AttnLayer) : Nat := 65536 / l.kvBytes

/-- The attention layers of a pattern. -/
def layersOf (s : State) (pi : Nat) : List AttnLayer := ((tget s.pats pi).map fun p => p.plan.attn).getD []

/-- A page of a sequence that lies wholly at or beyond a length. -/
def beyond (ls : List AttnLayer) (i len : Nat) (u : PageUse) : Bool :=
  match u with
  | .kv k layer n _ _ => k = i && (match ls[layer]? with
      | some l => decide (len ≤ n * perPage l)
      | none => true)
  | _ => false

/-- An entry of a page list (05 Table 5-3). -/
def listWord (key : Nat) (provisional hot : Bool) : Nat :=
  key % 2 ^ 21 + key / 2 ^ 21 * 2 ^ 60 + bit hot * 2 ^ 61 + bit provisional * 2 ^ 62 + 2 ^ 63

/-- A sequence's page list in a half: entries in the order of layer, then page number (05 R155). -/
def pageList (s : State) (i h : Nat) : List Nat :=
  let es := s.pages.filterMap fun e => match e.2.use with
    | .kv k j n pr hot => if k = i ∧ e.1 / 2 ^ 21 = h then some ((j, n), listWord e.1 pr hot) else none
    | _ => none
  (sortBy (fun a b => decide (a.1.1 < b.1.1 ∨ (a.1.1 = b.1.1 ∧ a.1.2 ≤ b.1.2))) es).map (·.2)

/-- A sequence's page lists are written to their pages of LPDDR4X. -/
def storeLists (i : Nat) (s : State) : State :=
  let put := fun (s : State) (h : Nat) =>
    let mine := s.pages.filter fun e => e.1 / 2 ^ 21 = h && (match e.2.use with | .pageList k => k = i | _ => false)
    let ws := pageList s i h
    mine.zipIdx.foldl (fun s e =>
      let data := packElems .fp32 (((ws.drop (8192 * e.2)).take 8192).flatMap fun w => [w % 2 ^ 32, w / 2 ^ 32])
      { s with mem := { s.mem with data := writeBytes s.mem.data (e.1.1 * 65536) 65536 data } }) s
  put (put s 0) 1

/-- Pages of a sequence beyond a length are freed; the sequence counts them (05 R174 step 3). -/
def trimSeq (i len : Nat) (s : State) : State :=
  match tget s.seqs i with
  | none => s
  | some q =>
    let ls := layersOf s q.pattern
    storeLists i
      (modSeq i (fun q => { q with freed := q.freed + countPages (beyond ls i len) s }) (freePagesOf (beyond ls i len) s))

/-! ### Entries and half store copies (05 R154, R156, R174) -/

/-- The page of a position of a sequence's layer, the offset of its entry in it, and whether the half store copy is the one read. -/
def seqEntry (s : State) (i j : Nat) (l : AttnLayer) (pos : Nat) : Option (Nat × Nat × Bool) :=
  s.pages.findSome? fun e => match e.2.use with
    | .kv k m n _ hot => if k = i ∧ m = j ∧ n = pos / perPage l then some (e.1, pos % perPage l * l.kvBytes, hot) else none
    | _ => none

/-- Bytes of an entry: the half store copy's while the page is HOT, else LPDDR4X's (05 R156). -/
def entryBytes (s : State) (e : Nat × Nat × Bool) (off n : Nat) : Nat :=
  readBytes (if e.2.2 then (halfOf s (e.1 / 2 ^ 21)).hot else s.mem.data) (e.1 * 65536 + e.2.1 + off) n

/-- The same bytes written. -/
def putEntry (e : Nat × Nat × Bool) (n data : Nat) (s : State) : State :=
  if e.2.2 then modHalf (e.1 / 2 ^ 21) (fun x => { x with hot := writeBytes x.hot (e.1 * 65536 + e.2.1) n data }) s
  else { s with mem := { s.mem with data := writeBytes s.mem.data (e.1 * 65536 + e.2.1) n data } }

/-- The entry of one slot is copied to another, in every layer (05 R174 step 1). -/
def copySlot (i : Nat) (ls : List AttnLayer) (s : State) (c : Nat × Nat) : State :=
  ls.zipIdx.foldl (fun s l =>
    match seqEntry s i l.2 l.1 c.1, seqEntry s i l.2 l.1 c.2 with
    | some a, some b => putEntry b l.1.kvBytes (entryBytes s a 0 l.1.kvBytes) s
    | _, _ => s) s

/-- HOT pages of a sequence. -/
def hotPages (s : State) (i : Nat) : List Nat :=
  (s.pages.filter fun e => match e.2.use with | .kv k _ _ _ hot => k = i && hot | _ => false).map Prod.fst

/-- The half store copies of a sequence's HOT pages are written to their LPDDR4X pages (05 R156). -/
def flushHot (i : Nat) (s : State) : State :=
  let l := hotPages s i
  let copies := (s.halves.flatMap (·.hot)).filter fun e => l.contains (e.1 / 65536)
  { s with mem := { s.mem with data := copies.foldl (fun d e => tset d e.1 e.2) (s.mem.data.filter fun e => !l.contains (e.1 / 65536)) } }

/-- No page of a sequence is HOT, and its half store copies are released. -/
def coolPages (i : Nat) (s : State) : State :=
  let l := hotPages s i
  let cool := fun (u : PageUse) => match u with | .kv k j n pr hot => if k = i then .kv k j n pr false else .kv k j n pr hot | u => u
  { s with pages := tmap s.pages fun _ x => { x with use := cool x.use }
           halves := s.halves.map fun x => { x with hot := x.hot.filter fun e => !l.contains (e.1 / 65536) } }

/-- The pages of a sequence from a position on are HOT: the half store takes a copy of what they hold (05 R156). -/
def heatPages (i base : Nat) (ls : List AttnLayer) (s : State) : State :=
  let hit := fun (j n : Nat) => match ls[j]? with
    | some l => decide (base / perPage l ≤ n)
    | none => false
  let heat := fun (u : PageUse) => match u with | .kv k j n pr hot => .kv k j n pr (hot || (k = i && hit j n)) | u => u
  let cold := (hotPages s i)
  let s := { s with pages := tmap s.pages fun _ x => { x with use := heat x.use } }
  let l := (hotPages s i).filter fun p => !cold.contains p
  let put := fun (s : State) (h : Nat) => modHalf h (fun x => { x with
    hot := (s.mem.data.filter fun e => l.contains (e.1 / 65536) && decide (e.1 / 2 ^ 37 = h)).foldl (fun d e => tset d e.1 e.2) x.hot }) s
  storeLists i (put (put s 0) 1)

/-- How many pages trimming to a length would free. -/
def trimCount (i len : Nat) (s : State) : Nat :=
  match tget s.seqs i with
  | none => 0
  | some q => countPages (beyond (layersOf s q.pattern) i len) s

/-- At a commit the entries go to their LPDDR4X pages, and then the half store copies are released: pages below the length are no longer
PROVISIONAL, and none is HOT (05 R156); pages written to are restitched first (09 R296). -/
def settlePages (i len : Nat) (s : State) : State :=
  match tget s.seqs i with
  | none => s
  | some q =>
    let ls := layersOf s q.pattern
    let settle := fun (u : PageUse) => match u with
      | .kv k layer n pr _ =>
        if k ≠ i then u
        else .kv k layer n (pr && match ls[layer]? with
          | some l => decide (len ≤ n * perPage l)
          | none => false) false
      | u => u
    let s := coolPages i (flushHot i s)
    let mine := fun (k : Nat) => (tget s.pages k).any fun x => match x.use with | .kv j _ _ _ _ | .pageList j => j = i | _ => false
    restitchPages mine q.tenant (storeLists i { s with pages := tmap s.pages fun _ x => { x with use := settle x.use } })

/-- COMMITTED_LEN of a sequence becomes a length (05 R159, R174). -/
def commitSeq (i len : Nat) (s : State) : State := modSeq i (fun q => { q with committed := len }) s

/-! ### Trees (05 R171, R172) -/

/-- The children of a node in a candidate tree: root is 0xFF. -/
def childOf (parents tokens : List Nat) (node t : Nat) : Option Nat :=
  (List.range parents.length).find? fun i => parents.getD i 0 = node && tokens.getD i 0 = t

/-- The path a GREEDY pass accepts, from a node on, and the bonus token; `rows` holds row 0 and then one row per candidate. -/
def acceptFrom (parents tokens : List Nat) (rows : List (List (BitVec 32))) : Nat → Nat → List Nat × Nat
  | 0, node => ([], argmax (rows.getD (if node = 0xFF then 0 else node + 1) []))
  | n + 1, node =>
    let t := argmax (rows.getD (if node = 0xFF then 0 else node + 1) [])
    match childOf parents tokens node t with
    | none => ([], t)
    | some c =>
      let r := acceptFrom parents tokens rows n c
      (c :: r.1, r.2)

/-- Depth of candidate i (05 R171): the root's children have depth 1. -/
def depthOf (parents : List Nat) : Nat → Nat → Nat
  | 0, _ => 0
  | n + 1, i => let p := parents.getD i 0xFF
    if p = 0xFF then 1 else 1 + depthOf parents n p

/-- Ancestor mask A[i] (05 R171). -/
def ancestors (parents : List Nat) : Nat → Nat → Nat
  | 0, _ => 0
  | n + 1, i => let p := parents.getD i 0xFF
    2 ^ i ||| (if p = 0xFF then 0 else ancestors parents n p)

/-- Slot and logical position of candidate i after a base L + U (05 R171). -/
def candSlot (base i : Nat) : Nat := base + i
def candPosition (base : Nat) (parents : List Nat) (i : Nat) : Nat := base + depthOf parents 64 i - 1

/-- The path from the root to a leaf, ascending (05 R174); 0xFF gives the empty path. -/
def pathTo (parents : List Nat) : Nat → Nat → List Nat
  | 0, _ => []
  | n + 1, i => if i = 0xFF then [] else pathTo parents n (parents.getD i 0xFF) ++ [i]

/-- Copies of a commit of a path c1 < … < cA: from slot L + U + cj to slot L + U + j − 1 where they differ (05 R174). -/
def commitCopies (base : Nat) (path : List Nat) : List (Nat × Nat) :=
  (path.zipIdx.map fun e => (base + e.1, base + e.2)).filter fun e => e.1 != e.2

/-- Step 1 of a commit: the entries of the path's candidates are copied down, in ascending order (05 R174). -/
def moveEntries (i base : Nat) (path : List Nat) (s : State) : State :=
  match tget s.seqs i with
  | none => s
  | some q => (commitCopies base path).foldl (copySlot i (layersOf s q.pattern)) s

/-- The slot that holds the entry of a position which a DONE would commit (05 R171, R174). -/
def sourceSlot (r : Req) (pos : Nat) : Nat :=
  match r.verify with
  | some v => if r.baseLen + r.inUnits ≤ pos then r.baseLen + r.inUnits + v.path.getD (pos - (r.baseLen + r.inUnits)) 0 else pos
  | none => pos

/-- Entries of `count` positions of a layer from `first` on, as a KV record carries them (10 Table 10-6). -/
def kvData (s : State) (i j first count : Nat) (slot : Nat → Nat) : Nat :=
  match (tget s.seqs i).bind fun q => (layersOf s q.pattern)[j]? with
  | none => 0
  | some l => pack ((List.range count).map fun n =>
      (l.kvBytes, ((seqEntry s i j l (slot (first + n))).map fun e => entryBytes s e 0 l.kvBytes).getD 0))

/-- A pattern, by index, uses a half. -/
def patUses (s : State) (pi h : Nat) : Bool := ((tget s.pats pi).map fun p => usesHalf p h).getD false

/-! ### Appliqué versions (03 R115-R118) -/

/-- A version is held: a request not FREE or an open sequence is bound to it (03 R116). -/
def versionHeld (s : State) (i v : Nat) : Bool :=
  (s.reqs.any fun e => e.2.applique == some (i, v)) || (s.seqs.any fun e => e.2.applique == some (i, v))

/-- The object number of an appliqué's events. -/
def appObject (a : Applique) (i : Nat) : Nat := appHandle a.gen i

/-- Pages of an appliqué, and of one of its versions (09 R287). -/
def appPage (i : Nat) (u : PageUse) : Bool := match u with | .applique k _ => k = i | .buffers k => k = i | _ => false
def versionPage (i v : Nat) (u : PageUse) : Bool := match u with | .applique k w => k = i && w = v | _ => false

/-- Pages of an appliqué image in each half its pattern uses. -/
def appPages (s : State) (a : Applique) (bytes h : Nat) : Nat := if patUses s a.pattern h then ceilDiv bytes 65536 else 0

/-- Room for a number of pages in each half. -/
def roomFor (s : State) (t : Nat) (n : Nat → Nat) : Bool := [0, 1].all fun h => decide (n h ≤ freePages s h t)

/-- Pages are taken in both halves. -/
def takePages (t : Nat) (n : Nat → Nat) (u : PageUse) (s : State) : State :=
  allocPages 1 t (List.replicate (n 1) u) (allocPages 0 t (List.replicate (n 0) u) s)

/-- Pages of the gradient and momentum buffers of an appliqué of `n` weights, in FP32 (05 R183, 09 R287). They lie in the lower half that
its pattern uses (DESIGN CHOICE, notes/assumptions 108). -/
def bufferPages (s : State) (a : Applique) (n h : Nat) : Nat :=
  if patUses s a.pattern h && (h = 0 || !patUses s a.pattern 0) then ceilDiv (8 * n) 65536 else 0

/-- Buffers of an appliqué for `n` weights take the place of those it had. -/
def takeBuffers (i : Nat) (a : Applique) (n : Nat) (s : State) : State :=
  let s := freePagesOf (fun u => match u with | .buffers k => k = i | _ => false) s
  takePages a.tenant (bufferPages s a n) (.buffers i) s

/-- A previous version that is no longer held is released with its pages (03 R116). -/
def drainPrevious (i : Nat) (s : State) : State :=
  match tget s.apps i with
  | none => s
  | some a =>
    match a.previous with
    | none => s
    | some (v, _) =>
      if versionHeld s i v then s
      else
        let s := freePagesOf (versionPage i v) (modApp i (fun a => { a with previous := none, prevBytes := 0 }) s)
        rotate (postEvent 1 (appObject a i) 0 (BitVec.ofNat 64 v) .done s)

/-- A retired appliqué held by nothing is freed (03 R118). DESIGN CHOICE (notes/assumptions 106): one retired during an
APPLIQUE_REPLACE waits while that loads; between the load's end and its reply it can be freed, with VALUE the version then current. -/
def freeRetired (i : Nat) (s : State) : State :=
  match tget s.apps i with
  | none => s
  | some a =>
    if a.retiring && a.previous.isNone && !a.loading && !versionHeld s i a.current then
      rotate (postEvent 1 (appObject a i) 1 (BitVec.ofNat 64 a.current) .done
        (freePagesOf (appPage i) { s with apps := tdel s.apps i, appGens := tset s.appGens i (nextGen 62 a.gen) }))
    else s

/-- What is no longer held of an appliqué is released, and SRAM it frees goes to the rotation (03 R113, R116, R118). -/
def drainApplique (i : Nat) (s : State) : State := freeRetired i (drainPrevious i s)

/-- A new version becomes current: the old one is previous until it drains (03 R117, 05 R183). -/
def newVersion (i bytes : Nat) (weights : List (BitVec 32)) (s : State) : State :=
  let turn := fun (a : Applique) =>
    { a with previous := some (a.current, a.weights), prevBytes := a.bytes, current := a.current + 1, bytes := bytes,
             weights := weights, place := none, next := none, nextBytes := 0 }
  drainApplique i (rotate (modApp i turn s))

/-- A version loaded by APPLIQUE_REPLACE becomes current at its reply: the buffers are zeroed and take its tag (05 R183). -/
def replaceCurrent (i : Nat) (s : State) : State :=
  match tget s.apps i with
  | none => s
  | some a =>
    match a.next with
    | none => s
    | some w =>
      let zero := List.replicate w.length (0 : BitVec 32)
      newVersion i a.nextBytes w (takeBuffers i a w.length <| modApp i (fun a => { a with tag := a.current + 1, grads := zero, momenta := zero }) s)

/-- Sums of two buffers, the longer one's tail kept. -/
def addLists : List (BitVec 32) → List (BitVec 32) → List (BitVec 32)
  | a :: t, b :: u => add32 a b :: addLists t u
  | [], u => u
  | t, [] => t

/-- One update of 05 R183 of a weight held as an element code: v = FMA(MOMENTUM, v, g), then w = FMA(−LR, v, w) in FP32, converted to the
element format (04 R139). -/
def updateWeight (k : Elem) (lr momentum g v w : BitVec 32) : BitVec 32 × BitVec 32 :=
  let v' := fma32 momentum v g
  (v', BitVec.ofNat 32 (convert k (fma32 (neg32 lr) v' (round32 (k.decode w.toNat)))))

/-- DONE of an ADAPT_STEP is accepted (05 R183, R184): gradients counted if the tag is the bound version, and under APPLY the
next version created, current, with the gradient buffer cleared. -/
def adaptDone (a : Adapt) (i bound : Nat) (s : State) : State :=
  match tget s.apps i with
  | none => s
  | some x =>
    let grads := if x.tag = bound then addLists x.grads a.grads else x.grads
    if !a.apply then modApp i (fun x => { x with grads := grads }) s
    else
      let base := if x.current = bound then x.weights else ((x.previous.map (·.2)).getD x.weights)
      let k := x.fmt
      let n := base.length
      let upd := (List.range n).map fun j =>
        updateWeight k a.lr a.momentum (grads.getD j 0) (x.momenta.getD j 0) (base.getD j 0)
      let clear := fun (y : Applique) =>
        { y with tag := y.current + 1, grads := List.replicate n (0 : BitVec 32), momenta := upd.map (·.1) }
      newVersion i x.bytes (upd.map (·.2)) (modApp i clear s)

/-- The second version place that a request or a command held is released with its pages and its SRAM (03 R117, 05 R184). -/
def releasePlace (t : Target) (i : Nat) (s : State) : State :=
  match tget s.apps i with
  | none => s
  | some a =>
    if a.place = some t then
      drainApplique i (rotate (freePagesOf (versionPage i (a.current + 1))
        (modApp i (fun a => { a with place := none, loading := false, next := none, nextBytes := 0 }) s)))
    else s

/-- A load that ends without a new version leaves the appliqué as it was, or none (02 R72, 03 R117). -/
def dropLoad (i : Nat) (s : State) : State :=
  match tget s.apps i with
  | none => s
  | some a =>
    if a.current = 0 then rotate (freePagesOf (appPage i) { s with apps := tdel s.apps i })
    else
      match a.place with
      | some t => releasePlace t i s
      | none => s

/-- A command's work on a pattern, appliqué or version place ends without its result. -/
def dropWork (cid : Nat) (s : State) : State :=
  let mine := fun (o : Option Nat) => if o = some cid then none else o
  let loads := (s.apps.filter fun e => e.2.place == some (.cmd cid) && e.2.loading).map Prod.fst
  let stop := fun (_ : Nat) (p : Pattern) =>
    { p with staging := mine p.staging, loading := mine p.loading, evicting := mine p.evicting }
  loads.foldl (fun s i => dropLoad i s) { s with pats := tmap s.pats stop }

/-! ### Fences (02 R63) -/

/-- A fence takes a value, mirrored to the partner. -/
def setFence (i : Nat) (v : BitVec 64) (s : State) : State :=
  tellFence i { s with fences := tmod s.fences i fun f => { f with value := v } }

/-- The value of a fence after a signal in a MODE (02 Table 2-22). -/
def fenceAfter (mode : Nat) (old : BitVec 64) (operand : BitVec 64) : BitVec 64 :=
  if mode = 0 then BitVec.ofNat 64 (min (old.toNat + operand.toNat) (2 ^ 64 - 1))
  else if old.toNat < operand.toNat then operand else old

/-- The update of a command's fence after its final reply, or its drop (02 R63). -/
def updateFence (f : BitVec 32) (seqNo : BitVec 32) (st : Status) (s : State) : State :=
  let i := bitsOf f.toNat 13 0
  if f.getLsbD 18 && !succeeds st then s
  else
    match tget s.fences i with
    | some x =>
      if x.gen = bitsOf f.toNat 31 24 then
        let mode := bitsOf f.toNat 17 16
        setFence i (fenceAfter mode x.value (if mode = 0 then 1 else seqNo.setWidth 64)) s
      else bobPost 0x10 0x0009 i s
    | none => bobPost 0x10 0x0009 i s

/-! ### REQ_CANCEL (03 R120) -/

/-- The accepted CANCELLED counts in the REQ_CANCEL that submitted it: `aux` of one holds the requests found final, the number
accepted, and the handles it watches. -/
def countCancel (a : OnAccept) (s : State) : State :=
  match a with
  | .cancelled cid => modCmd cid (fun c => { c with aux := c.aux.set 1 (c.aux.getD 1 0 + 1) }) s
  | _ => s

/-- A candidate for a request handle waits at the arbiter. -/
def waitsAtArbiter (s : State) (h : Nat) : Bool :=
  s.arb.cands.any fun c => c.target == .req (h % 65536) && c.gen = h / 65536

/-- Each REQ_CANCEL none of whose candidates is left undecided replies (03 R120). -/
def settleCancels (s : State) : State :=
  let ended := s.cmds.filter fun e =>
    opcodeOf e.2.pkt = 0x0205 && e.2.phase == .begun && !((e.2.aux.drop 2).any (waitsAtArbiter s))
  ended.foldl (fun s e => done e.1 (e.2.aux.getD 0 0) (BitVec.ofNat 64 (e.2.aux.getD 1 0)) s) s

/-! ### Trace (14 R422) -/

/-- Whether a record finds the lanes full is a free value (notes/assumptions 37). -/
def lanesFull (s : State) : Bool := (freeWord s).getLsbD 0

/-- A trace record is sent on lane k mod 2 while the port is enabled, or dropped where the lanes are full. -/
def traceRec (unit code arg : Nat) (s : State) : State :=
  let t := s.svc.trace
  if !t.on then s
  else if lanesFull s then stepFree { s with svc := { s.svc with trace := { t with dropped := t.dropped + 1 } } }
  else
    let r := BitVec.ofNat 128 (pack [(8, now s), (1, unit), (1, 0), (2, code), (4, arg)])
    stepFree (emit (.trace (t.sent % 2) r) { s with svc := { s.svc with trace := { t with sent := t.sent + 1 } } })

/-- A record whose UNIT the manual does not give: a free value (notes/assumptions 37). -/
def traceAny (code arg : Nat) (s : State) : State := traceRec (bitsOf (freeWord s).toNat 8 1) code arg s

/-- DISPATCH and FINAL records, with TRACE_FLAGS[0] (14 R422). -/
def traceReq (code handle : Nat) (s : State) : State :=
  if s.svc.trace.flags.testBit 0 then traceAny code handle s else s

end Sys2Proof.Machine
end

