-- ==== Sys2Proof/Machine/Pool.lean ====
section
/-! DEFINITION. What the acceptance of a feed's or a frame's final reply leads to in its stream or encoder (07 R224, R235-R237). -/
namespace Sys2Proof.Machine

/-- A feed's final reply is accepted: it is outstanding no more, and its pictures may be named (07 R224, R234). -/
def feedAccepted (cid : Nat) (k : Cmd) (s : State) : State :=
  match findStream s (le k.pkt 20 4) with
  | none => s
  | some (i, _) =>
    let mark := fun (b : Buf) => if b.feed = some cid then { b with replied := true } else b
    modStream i (fun x => { x with feeds := x.feeds.filter fun c => c != cid, bufs := x.bufs.map mark }) s

/-- Pages of an encoder's reference buffers. -/
def encPages (i : Nat) (u : PageUse) : Bool := match u with | .encoder k => k = i | _ => false

/-- The frame at the head of an encoder's line: the first without a final reply submitted. -/
def headFrame (s : State) (e : Encoder) : Option Nat :=
  (e.frames.map (·.cid)).find? fun c => ((tget s.cmds c).map (·.phase)) == some .begun

/-- The frame that an encode engine takes up next: by doorbell time, then by encoder index, as 07 R220 has it for streams. -/
def nextEncoded (s : State) (engine : Nat) : Option Nat :=
  let l := s.encs.filterMap fun e =>
    if e.2.engine = engine then (headFrame s e.2).bind fun c => (tget s.cmds c).map fun k => (k.doorbell, e.1, c) else none
  (sortBy (fun (a b : Tick × Nat × Nat) => decide (a.1 ≤ b.1)) l).head?.map (·.2.2)

/-- The frame an encode engine is encoding: the one it has taken up, or the next where that has ended. -/
def encodingNow (s : State) (engine : Nat) : Option Nat :=
  match tget s.encoding engine with
  | some c => if s.encs.any fun e => e.2.engine = engine && headFrame s e.2 == some c then some c else nextEncoded s engine
  | none => nextEncoded s engine

/-- An engine that is free takes up a frame. -/
def encodeNext (engine : Nat) (s : State) : State :=
  match encodingNow s engine with
  | some c => { s with encoding := tset s.encoding engine c }
  | none => { s with encoding := tdel s.encoding engine }

/-- Frames of a handle fetched before a command and not yet answered. -/
def framesBefore (s : State) (ring h cid : Nat) : Bool :=
  s.cmds.any fun e => decide (e.1 < cid) && opcodeOf e.2.pkt = 0x0305 && le e.2.pkt 20 4 = h && e.2.ring = ring && e.2.phase != .replied

/-- A closing encoder whose frames all have their final replies is released, and its ENC_CLOSE replies (07 R236). -/
def finishEncoder (i : Nat) (s : State) : State :=
  match tget s.encs i with
  | none => s
  | some e =>
    match e.closing with
    | none => s
    | some cid =>
      if !e.frames.isEmpty || framesBefore s e.ring (streamHandle e.gen i) cid then s
      else
        let s := freePagesOf (encPages i) { s with encs := tdel s.encs i, encGens := tset s.encGens i (nextGen 65535 e.gen) }
        done cid 0 0 (retireKeys e.tenant s)

/-- The encoder a handle names. -/
def findEncoder (s : State) (h : Nat) : Option (Nat × Encoder) :=
  match tget s.encs (h % 64) with
  | some x => if h = streamHandle x.gen (h % 64) then some (h % 64, x) else none
  | none => none

/-- A frame's final reply is accepted: its source picture is held no more; `aux` of a frame holds its picture reference (07
R235-R237). -/
def frameAccepted (cid : Nat) (k : Cmd) (s : State) : State :=
  let s := match k.aux with
    | [ref] => holdPicture ref (· - 1) s
    | _ => s
  match findEncoder s (le k.pkt 20 4) with
  | none => s
  | some (i, e) => finishEncoder i { s with encs := tset s.encs i { e with frames := e.frames.filter fun f => f.cid != cid } }

/-- Either, by opcode. -/
def videoAccepted (cid : Nat) (k : Cmd) (s : State) : State :=
  if opcodeOf k.pkt = 0x0302 then feedAccepted cid k s
  else if opcodeOf k.pkt = 0x0305 then frameAccepted cid k s
  else s

end Sys2Proof.Machine
end

