-- ==== Sys2Proof/Machine/Slots.lean ====
section
/-! DEFINITION. Firmware slots and the checks that a slot verifies by (11 R350, Tables 11-4, 11-5). -/
namespace Sys2Proof.Machine

/-! ### Slots (11 R350, Tables 11-4, 11-5) -/

/-- BLOCKS of a slot's header, 0 where block 0 is unwritten. -/
def fwBlocks (sl : FwSlot) : Nat := fwHeader sl 0x14 4

/-- A block is written and matches its CRC-32C as written. -/
def blockGood (sl : FwSlot) (b : Nat) : Bool :=
  match tget sl.blocks b with
  | some (data, crc) => BitVec.ofNat 32 (crc32c 65536 data) == crc
  | none => false

/-- The first failing block of check 1; block 0 must be there for BLOCKS to be read. -/
def badBlock (sl : FwSlot) : Option Nat :=
  if (tget sl.blocks 0).isNone then some 0
  else (List.range (min (fwBlocks sl) 769)).find? fun b => !blockGood sl b

/-- Blocks 1 to BLOCKS − 1, one after the other. -/
def fwBody (sl : FwSlot) : Nat :=
  pack ((List.range (fwBlocks sl - 1)).map fun b => (65536, ((tget sl.blocks (b + 1)).map (·.1)).getD 0))

/-- ROOT_INDEX, REVOKE_REQUEST and SECURITY_VERSION. -/
def rootIndex (sl : FwSlot) : Nat := fwHeader sl 0x18 1
def revokeRequest (sl : FwSlot) : Nat := fwHeader sl 0x19 1 % 8
def securityVersion (sl : FwSlot) : Nat := fwHeader sl 0x10 4

/-- Check 4: the root key is fused and not revoked. -/
def rootTrusted (s : State) (sl : FwSlot) : Bool :=
  decide (rootIndex sl ≤ 2) && !(keyRevoke s).testBit (rootIndex sl) &&
    decide ((Config.sha3 1952 (fwHeader sl 0x100 1952)).toNat = rootHash s (rootIndex sl))

/-- Check 7: no rollback. -/
def notRolledBack (s : State) (sl : FwSlot) : Bool := decide (antiRollback s ≤ securityVersion sl)

/-- The factory image, which the model holds as verified without its blocks (notes/assumptions 8). -/
def factoryImage (sl : FwSlot) : Bool := sl.blocks.isEmpty && sl.verified

/-- The first check of R350 that fails. -/
def slotFault (s : State) (sl : FwSlot) : Option (Status × Nat) :=
  if factoryImage sl then none
  else
    match badBlock sl with
    | some b => some (.fwCheckFail, b)
    | none =>
      if fwHeader sl 0 4 ≠ 0x57464B53 ∨ fwHeader sl 4 2 ≠ 1 ∨ fwBlocks sl < 2 ∨ 768 < fwBlocks sl then
        some (.fwCheckFail, 0xFFFF0000)
      else if fwHeader sl 0x20 32 ≠ (Config.sha3 (65536 * (fwBlocks sl - 1)) (fwBody sl)).toNat then
        some (.fwCheckFail, 0xFFFFFFFF)
      else if !rootTrusted s sl then some (.fwSigFail, 1)
      else if !Config.mldsaVerify (fwHeader sl 0x100 1952) (Config.sha3 0x900 (fwHeader sl 0 0x900)) (fwHeader sl 0x900 3309) then
        some (.fwSigFail, 2)
      else if (revokeRequest sl).testBit (rootIndex sl) then some (.fwSigFail, 3)
      else if !notRolledBack s sl then some (.fwRollbackRefused, antiRollback s)
      else none

/-- A slot verifies (11 R350). -/
def slotGood (s : State) (i : Nat) : Bool := (slotFault s (slotOf s i)).isNone

end Sys2Proof.Machine
end

