-- ==== Sys2Proof/Machine/Report.lean ====
section
/-! DEFINITION. What the module reports of itself: identity, health, power, bobbins, counters, margins, with the coarsening of
partition mode (02 Table 2-29, 09 R292, Table 9-15, 13 R400, R401, 14 R418-R425). Reserved bytes within a report are free
values (00 R6). -/
namespace Sys2Proof.Machine

/-- Partition mode (09 R289). -/
def partitioned (s : State) : Bool := s.parts.isSome

/-- COARSENED of a reply that carries coarsened data (09 R292). -/
def coarsened (s : State) : BitVec 16 := if partitioned s then 2 else 0

/-! ### Identity (02 Table 2-29) -/

/-- PART_NUMBER. -/
def partNumber : Nat := 0x412D384B532D5A43 + (if Config.coated then 0x4D * 2 ^ 64 else 0)

/-- The slot whose image IDENTIFY reports: the running one, or in HALF-MAST the one the record names (11 R348). -/
def reportSlot (s : State) : Nat :=
  if s.dev.state = .halfMast then ((s.nor.act.map (·.slot)).getD 0) else s.dev.activeSlot

/-- FW_VERSION, FW_SECURITY_VERSION, ACTIVE_SLOT and CHANNELS_IN_SERVICE as reported: in HALF-MAST 0 for a slot that does not
verify (11 R348). -/
def reported (s : State) (v : Nat) : Nat := if s.dev.state = .halfMast && !slotGood s (reportSlot s) then 0 else v
def fwVersion (s : State) : Nat := reported s (fwHeader (slotOf s (reportSlot s)) 0x08 8)
def fwSecurity (s : State) : Nat := reported s (fwHeader (slotOf s (reportSlot s)) 0x10 4)
def activeSlotByte (s : State) : Nat := if s.dev.state = .halfMast then 0xFF else s.dev.activeSlot
def channelsWord (s : State) : Nat := if s.dev.state = .halfMast then 0 else s.mem.inService.toNat

/-- The identity data from offset 0 to 0x06D. -/
def identity (s : State) : List (Nat × Nat) :=
  [(2, 1), (2, stateCode s.dev.state), (4, (regRead 0x18 s).toNat), (16, partNumber), (16, moduleSerial s), (8, fwVersion s),
   (4, fwSecurity s), (1, activeSlotByte s), (1, lifecycleCode s), (1, isoPolicy s), (1, maxPartitions s),
   (1, match debugPolicy s with | 0 => 0 | 1 => 1 | _ => 2), (1, pairPolicy s), (1, bit (partitioned s)), (1, spare s 0),
   (4, coreMap s), (16, channelsWord s), (8, now s), (4, 1048576), (4, 65536), (4, 262144), (2, 1024), (2, 16384),
   (2, 4096), (2, 2048), (2, 1024)]

/-! ### Power and sensors (12 Table 12-5, 13 R401, Table 9-15) -/

/-- TOTAL in W: *P_slow*, or in partition mode its coarsened value. -/
def totalW (s : State) : Nat := if partitioned s then s.power.coarseW else s.power.pSlow / 1000

/-- The logical core at a physical position of a half. -/
def coreAt (s : State) (half pos : Nat) : Option Nat :=
  if (positions s half).contains pos then some (4 * half + (positions s half).idxOf pos) else none

/-- The core that sensor 0x00 to 0x1D belongs to. -/
def sensorCore (s : State) (i : Nat) : Option Nat :=
  let p := if i < 0x14 then i / 2 else i - 0x14
  coreAt s (p / 5) (p % 5)

/-- A core halted by thermal control has no ceiling of ÷4. -/
def hotHalt (c : Core) : Bool := c.halted == some .tj || c.halted == some .sensors

/-- A sensor's 16-bit value; in partition mode a core's sensors read 0 at a ceiling of ÷4 and 1 otherwise, and a disabled
position's 0 (notes/assumptions 22). -/
def sensorWord (s : State) (i : Nat) : Nat :=
  if partitioned s && decide (i < 0x1E) then
    match sensorCore s i with
    | some k => bit (decide (4 < (coreOf s k).ceiling) || hotHalt (coreOf s k))
    | none => 0
  else
    match s.thermal.sensors.getD i none with
    | some v => unsign 16 v
    | none => 0x8000

/-- CORE of a core, in W. -/
def coreWatts (s : State) (k : Nat) : Nat := if partitioned s then 0 else s.power.coreW.getD k 0

/-- DIVIDER of a core: 0 when halted. -/
def dividerByte (s : State) (k : Nat) : Nat := if (coreOf s k).halted.isSome then 0 else divider (coreOf s k)

/-! ### Channels -/

/-- A channel's record; one not yet measured has the nominal eye of 14 Table 14-12 (notes/assumptions 10). -/
def chanOf (s : State) (c : Nat) : Channel :=
  tgetD s.mem.channels c { corrected := 0, uncorrectable := 0, retrainFails := 0, eyeW := 125, eyeH := 140, refreshAt := 0 }

/-- Channels in service, ascending. -/
def servingChannels (s : State) : List Nat := (List.range 128).filter fun c => s.mem.inService.getLsbD c

/-- ECC_WORST (14 Table 14-11). -/
def eccWorst (s : State) : Nat :=
  let best := (List.range 128).foldl (fun (b : Nat × Nat) c =>
    if b.1 < (chanOf s c).corrected then ((chanOf s c).corrected, c) else b) (0, 0)
  sat 32 best.1 + best.2 * 2 ^ 32

/-! ### Margins (12 Table 12-9, 14 Table 14-12) -/

/-- The measures with their WARN and ACT thresholds: core supply, canary slack, Tx, Rx, eye width, eye height. -/
def thresholds : List (Int × Int) := [(705, 690), (25, 10), (-450, -650), (-750, -900), (83, 61), (90, 60)]

/-- Lowest of a list, or a default. -/
def lowest (l : List Int) (d : Int) : Int := (l.min?).getD d

/-- The worst values of the six measures. -/
def worstMargins (s : State) : List Int :=
  [lowest (s.cores.map fun c => (c.supplyMv : Int)) 0, lowest (s.cores.map fun c => (c.slackPs : Int)) 0,
   lowest s.health.margins.tx 0, lowest s.health.margins.rx 0,
   lowest ((servingChannels s).map fun c => ((chanOf s c).eyeW : Int)) 0,
   lowest ((servingChannels s).map fun c => ((chanOf s c).eyeH : Int)) 0]

/-- 0 within WARN, 1 beyond WARN, 2 beyond ACT (14 R423). -/
def marginClass (t : Int × Int) (v : Int) : Nat := if v < t.2 then 2 else if v < t.1 then 1 else 0

/-- A measure as reported. -/
def marginWord (s : State) (i : Nat) (v : Int) : Nat :=
  if partitioned s then marginClass (thresholds.getD i (0, 0)) v else unsign 16 v

/-- The optics are powered (13 R405). -/
def opticsOn (s : State) : Bool :=
  s.dev.state != .halfMast && s.dev.state != .shutdown && s.thermal.tripped.isNone && s.clk.syspll

/-- The MARGIN_SCAN report, 624 bytes (14 Table 14-13). -/
def marginReport (s : State) : List (Nat × Nat) :=
  let core := fun k =>
    let c := coreOf s k
    [(2, marginWord s 0 c.supplyMv), (2, marginWord s 1 c.slackPs), (4, if partitioned s then min c.stretchLast 1 else c.stretchLast)]
  let lane := fun (v : Int) => (2, if opticsOn s then unsign 16 v else 0x8000)
  let chan := fun c => if s.mem.inService.getLsbD c then [(2, (chanOf s c).eyeW), (2, (chanOf s c).eyeH)] else [(2, 0), (2, 0)]
  [(8, now s), (8, healthWord s &&& 0x180)] ++ (List.range 8).flatMap core ++ s.health.margins.tx.map lane
    ++ s.health.margins.rx.map lane ++ (List.range 128).flatMap chan

/-! ### Health record (14 Table 14-11) -/

/-- FREE_PAGES of a half for a command on a ring of a tenant, or on ring 0. -/
def freePagesWord (s : State) (tenant : Option Nat) (h : Nat) : Nat :=
  let all := halfPages s h - ownedPages s h fun _ => true
  if !partitioned s then all
  else
    match tenant with
    | none => all / 4096 * 4096
    | some t =>
      match partOf s t with
      | some e => (if h = 0 then e.pagesWest else e.pagesEast) - ownedPages s h fun p => decide (p.tenant = t)
      | none => 0

def bits8 (f : Nat → Bool) : Nat := ((List.range 8).map fun k => bit (f k) * 2 ^ k).sum

/-- The health record from offset 0 to 0x0FF. -/
def healthRecord (s : State) (tenant : Option Nat) : List (Nat × Nat) :=
  [(2, 1), (2, stateCode s.dev.state), (4, spare s 0), (8, healthWord s), (8, now s), (1, s.link.speed), (1, s.link.width),
   (1, bits8 fun k => (coreOf s k).halted.isSome), (1, bits8 fun k => (coreOf s k).suspect), (4, weakCells s.fuses),
   (2, totalW s), (2, spare s 1), (4, s.power.feedA.mv), (4, s.power.feedB.mv), (4, spare s 2)] ++
  (List.range 6).map (fun i => (2, if partitioned s then 0 else s.power.blockW.getD i 0)) ++ [(4, spare s 3)] ++
  (List.range 8).map (fun k => (2, coreWatts s k)) ++ (List.range 8).map (fun k => (1, dividerByte s k)) ++ [(8, spare s 4)] ++
  (List.range 52).map (fun i => (2, sensorWord s i)) ++
  [(8, freePagesWord s tenant 0), (8, freePagesWord s tenant 1), (16, channelsWord s), (8, eccWorst s)] ++
  (worstMargins s).zipIdx.map (fun e => (2, marginWord s e.2 e.1)) ++ [(4, spare s 5)]

/-! ### Bobbins (14 Tables 14-5, 14-6, R418) -/

/-- Codes whose ARG is a line, word or page index. -/
def addressCode (c : Nat) : Bool := c = 0x0010 || c = 0x0014

/-- The 16 bytes of a bobbin record as a path shows it. -/
def bobBytes (s : State) (unit : Nat) (r : BobRec) : Nat :=
  let p := partitioned s
  pack [(8, if p then r.time / 100000 * 100000 else r.time), (1, unit), (1, min r.dropped 15), (2, r.code),
    (4, if p && addressCode r.code then 0 else r.arg)]

/-- Records of a unit, newest first, from a start. -/
def bobRecords (s : State) (unit start count : Nat) : List (Nat × Nat) :=
  (((bobOf s unit).recs.drop start).take count).map fun r => (16, bobBytes s unit r)

/-! ### Counters (14 Table 14-8, R419, R420) -/

/-- The counter instances of a group as (ID, INDEX), in ascending order. -/
def instances (group : Nat) : List (Nat × Nat) :=
  let rows := if group = 0 then [(0x0001, 8), (0x0002, 8), (0x0003, 8), (0x0004, 8), (0x0011, 1), (0x0012, 1), (0x0013, 1),
      (0x0014, 1), (0x0015, 1), (0x0016, 1), (0x0020, 1), (0x0030, 128), (0x0031, 30), (0x0032, 16), (0x0040, 1), (0x0041, 1),
      (0x0042, 1)]
    else [(0x0100, 8), (0x0101, 8), (0x0102, 8), (0x0103, 8), (0x0104, 8), (0x0105, 5), (0x0106, 2)]
  rows.flatMap fun r => (List.range r.2).map fun i => (r.1, i)

/-- A half in which a partition has half store or cores. -/
def inPart (e : PartEntry) (h : Nat) : Bool :=
  ((List.range 4).any fun k => e.cores.testBit (4 * h + k)) || decide (0 < (if h = 0 then e.hsWest else e.hsEast))

/-- An entry that a tenant ring may see in partition mode: its tenant, its cores, units of its partition, or a module-wide
entry (notes/assumptions 22). -/
def visible (s : State) (t id index : Nat) : Bool :=
  match partOf s t with
  | none => false
  | some e =>
    if id ≤ 0x0004 then index = t
    else if id = 0x0031 then (index < 8 && e.cores.testBit index) || ((index = 0x0C || index = 0x0D) && inPart e (index - 0x0C))
    else if id = 0x0030 ∨ id = 0x0032 ∨ id = 0x0105 then false
    else if id = 0x0106 then inPart e index
    else if 0x0100 ≤ id then e.cores.testBit index
    else true

/-- A counter's value on every path: exact, or the value at the start of the 1 ms window rounded down to 4,096. -/
def counterValue (s : State) (id index : Nat) : Nat :=
  let k := ctr id index
  let armed := id < 0x0100 || s.svc.prof.isSome
  if !armed then 0
  else if partitioned s then tgetD s.svc.window k 0 / 4096 * 4096
  else if id < 0x0100 then tgetD s.svc.tallies k 0 else tgetD (s.svc.prof.getD []) k 0

/-- The instances a READ writes. -/
def readable16 (s : State) (group : Nat) (tenant : Option Nat) : List (Nat × Nat) :=
  match tenant with
  | some t => (instances group).filter fun e => !partitioned s || visible s t e.1 e.2
  | none => instances group

/-- The entries of a READ, 16 bytes each. -/
def counterEntries (s : State) (group : Nat) (tenant : Option Nat) : List (Nat × Nat) :=
  (readable16 s group tenant).zipIdx.flatMap fun e =>
    [(2, e.1.1), (2, e.1.2), (4, spare s e.2), (8, counterValue s e.1.1 e.1.2)]

/-- AT (14 Table 14-9). -/
def counterAt (s : State) : Nat := if partitioned s then s.svc.windowAt else now s

/-- Fields written to host memory. -/
def writeFields (addr : Nat) (l : List (Nat × Nat)) (s : State) : State := writeHost addr (packLen l) (pack l) s

end Sys2Proof.Machine
end

