-- ==== Sys2Proof/Machine/Bar.lean ====
section
/-! DEFINITION. BAR0 writes and reads: doorbells, the admin ring, the other registers, LOCAL_TIME (02 R32-R34, R41-R43, R52,
01 R26, R29). -/
namespace Sys2Proof.Machine

/-- BAR0 can be reached: the hub runs, the link is up and the function is in D0 (11 R341, 13 R393), and no loop-back holds
the endpoint (14 R412). -/
def reachable (s : State) : Bool := hubOn s && s.link.up && s.link.dstate != .d3hot && !looped s 0 0

/-! ### Doorbells -/

/-- A doorbell that is ignored is counted (02 Table 2-3). -/
def dropDoorbell (cause ring : Nat) (s : State) : State :=
  { s with bar := { s.bar with dropCount := min (s.bar.dropCount + 1) 0xFFFFFFFF, dropRing := BitVec.ofNat 20 ring,
                               dropCause := BitVec.ofNat 8 cause } }

/-- Latched tail of a ring, as a slot index. -/
def tailIndex (r : Ring) : Nat := r.visible % 2 ^ r.sizeLog2

/-- On a module that is not the active of its pair, a ring keeps at most 16 pairs of tail and doorbell time beyond its fetched
head: with a further pair the two oldest merge into one of the later tail and the earlier time (10 R307). -/
def mergeStamps (l : List (Nat × Tick)) : List (Nat × Tick) :=
  match l with
  | a :: b :: rest => if l.length ≤ 16 then l else (b.1, a.2) :: rest
  | l => l

/-- New slots up to a tail become visible, stamped with LOCAL_TIME (02 R52, 01 R29). -/
def latchDoorbell (ring tail : Nat) (r : Ring) (s : State) : State :=
  let n := (tail + 2 ^ r.sizeLog2 - tailIndex r) % 2 ^ r.sizeLog2
  if n = 0 then s
  else
    let v := r.visible + n
    let stamps := r.stamps ++ [(v, now s)]
    let stamps := if ring ≠ 0 ∧ standbyLike s = true then mergeStamps stamps else stamps
    { s with rings := tset s.rings ring { r with visible := v, pending := true, stamps := stamps } }

/-- DOORBELL_WRITE (02 R32, R52, Table 2-25). DESIGN CHOICE (notes/assumptions 48): where several causes of Table 2-3 apply, the
access size comes first, then the device state, then the ring's state, then TAIL. -/
def doorbell (w64 : Bool) (v : BitVec 64) (s : State) : State :=
  let ring := bitsOf v.toNat 19 0
  let tail := bitsOf v.toNat 47 24
  if !reachable s then s
  else if !w64 then dropDoorbell 5 ring s
  else if s.dev.state = .booting then dropDoorbell 4 ring s
  else
    match tget s.rings ring with
    | none => dropDoorbell 1 ring s
    | some r =>
      if r.st = .error then dropDoorbell 3 ring s
      else if r.st ≠ .active then dropDoorbell 1 ring s
      else if 2 ^ r.sizeLog2 ≤ tail then dropDoorbell 2 ring s
      else latchDoorbell ring tail r s

/-- Meaning of DOORBELL_WRITE. -/
def execDoorbellWrite (w64 : Bool) (v : BitVec 64) (s : State) : Host.Outcome State Fault Refusal :=
  .next (doorbell w64 v s)

/-- Slot index of the oldest reply the host has not consumed. -/
def headIndex (q : RQueue) : Nat := (q.tail - q.unread.length) % 2 ^ q.sizeLog2

/-- REPLY_DOORBELL_WRITE (02 R32, R43). DESIGN CHOICE (notes/assumptions 103): a HEAD that is not below the queue size, of which R43
says nothing, is ignored with cause 7. -/
def replyDoorbell (w64 : Bool) (v : BitVec 64) (s : State) : State :=
  let q := bitsOf v.toNat 10 0
  let head := bitsOf v.toNat 43 24
  if !reachable s then s
  else if !w64 then dropDoorbell 5 q s
  else
    match tget s.queues q with
    | none => dropDoorbell 6 q s
    | some x =>
      let n := (head + 2 ^ x.sizeLog2 - headIndex x) % 2 ^ x.sizeLog2
      if 2 ^ x.sizeLog2 ≤ head ∨ x.unread.length < n then dropDoorbell 7 q s
      else { s with queues := tset s.queues q { x with unread := x.unread.drop n } }

/-- Meaning of REPLY_DOORBELL_WRITE. -/
def execReplyDoorbellWrite (w64 : Bool) (v : BitVec 64) (s : State) : Host.Outcome State Fault Refusal :=
  .next (replyDoorbell w64 v s)

/-! ### Reply queue binding (02 R41, Table 2-16) -/

/-- A descriptor that is valid for a queue. -/
def validDesc (q : Nat) (d : BitVec 256) : Bool :=
  let lo := if q = 0 then 8 else 6
  bytesAt d 0 8 % 4096 = 0 && decide (lo ≤ bytesAt d 8 1 ∧ bytesAt d 8 1 ≤ 20 ∧ bytesAt d 10 2 ≤ 2047)
    && bytesAt d 16 8 % 8 = 0

/-- The queue a descriptor describes, empty. -/
def queueOf (d : BitVec 256) : RQueue :=
  { base := bytesAt d 0 8, sizeLog2 := bytesAt d 8 1, msix := d.getLsbD 72, vector := bytesAt d 10 2,
    tailAddr := bytesAt d 16 8, tail := 0, unread := [], reserved := 0, lastTick := none }

/-- A queue becomes bound, unless it is already; none for a descriptor that is not valid. -/
def bindQueue (q : Nat) (d : BitVec 256) (s : State) : Option State :=
  if (tget s.queues q).isSome then some s
  else if validDesc q d then some { s with queues := tset s.queues q (queueOf d) }
  else none

/-! ### The admin ring (02 R34, R41, R47) -/

/-- Ring 0 as it starts afresh. -/
def adminRing (s : State) (sizeLog2 : BitVec 5) : Ring :=
  { st := .active, base := s.bar.adminBase.toNat, sizeLog2 := sizeLog2.toNat, cls := 0, tenant := none, account := 0,
    queue := 0, fast := false, headAddr := none, fetched := 0, visible := 0, pending := false, stamps := [],
    destroyers := [], partnerUpTo := 0 }

/-- ENABLE written as 1 with a SIZE_LOG2 (02 R34, 11 R341): ring 0 starts afresh, or ENABLE stays 0. `desc` is what the
module read of descriptor 0, where it had to read it. -/
def enableAdmin (sizeLog2 : BitVec 5) (desc : BitVec 256) (s : State) : State :=
  if !reachable s || s.bar.enable then s
  else
    let s := { s with bar := { s.bar with sizeLog2 := sizeLog2 } }
    if s.dev.state = .booting ∨ sizeLog2.toNat < 8 ∨ 12 < sizeLog2.toNat then s
    else
      match bindQueue 0 desc s with
      | none => s
      | some s =>
        { s with bar := { s.bar with enable := true }, rings := tset s.rings 0 (adminRing s sizeLog2),
                 reads := s.reads.filter fun r => r.ring != 0 }

/-- Meaning of ADMIN_RING_ENABLE. -/
def execAdminRingEnable (sizeLog2 : BitVec 5) (desc : BitVec 256) (s : State) : Host.Outcome State Fault Refusal :=
  .next (enableAdmin sizeLog2 desc s)

/-- Reservations that reads of a ring's slots still hold in its queue are released. -/
def releaseReads (ring : Nat) (s : State) : State :=
  let n := (s.reads.filter fun r => r.ring = ring).length
  let q := ((tget s.rings ring).map (·.queue)).getD 0
  { s with reads := s.reads.filter fun r => r.ring != ring,
           queues := tmod s.queues q fun x => { x with reserved := x.reserved - n } }

/-- ENABLE written as 0 stops fetching from ring 0 (02 R34); SIZE_LOG2 takes the value written when ENABLE was 0. A ring 0 in
ERROR stays so until it is enabled again (02 R47). -/
def disableAdmin (sizeLog2 : BitVec 5) (s : State) : State :=
  if !reachable s then s
  else if s.bar.enable then
    let s := releaseReads 0 { s with bar := { s.bar with enable := false } }
    match tget s.rings 0 with
    | some r => if r.st = .error then s else { s with rings := tdel s.rings 0 }
    | none => s
  else { s with bar := { s.bar with sizeLog2 := sizeLog2 } }

/-- Meaning of ADMIN_RING_DISABLE. -/
def execAdminRingDisable (sizeLog2 : BitVec 5) (s : State) : Host.Outcome State Fault Refusal :=
  .next (disableAdmin sizeLog2 s)

/-! ### MSI-X (02 Table 2-1, R42, 13 R394) -/

/-- Vector Control bit 0 of a table entry masks its vector (PCI Express Base Specification). -/
def vectorMasked (s : State) (v : Nat) : Bool := (msixEntry s v).getLsbD 96

/-- The pending bits with one more vector, each vector once, ascending. -/
def addPending (v : Nat) (l : List Nat) : List Nat := if l.contains v then l else insertBy (fun a b => decide (a ≤ b)) v l

/-- A message is sent, or its pending bit is set while the vector is masked or Bus Master Enable is 0 (13 R394). -/
def sendMsix (v : Nat) (s : State) : State :=
  if vectorMasked s v || !s.link.busMaster then { s with link := { s.link with pba := addPending v s.link.pba } }
  else emit (.msix v) { s with link := { s.link with pba := s.link.pba.filter fun x => x != v } }

/-- Pending messages with unmasked vectors are sent (13 R394). -/
def sendPending (s : State) : State :=
  if !s.link.busMaster then s
  else
    let go := s.link.pba.filter fun v => !vectorMasked s v
    { s with link := { s.link with pba := s.link.pba.filter fun v => vectorMasked s v }, tx := s.tx ++ go.map Tx.msix }

/-! ### Other registers -/

/-- A word written over 4 or 8 bytes of a wider value at a byte offset. -/
def overlay (n old off len v : Nat) : BitVec n :=
  BitVec.ofNat n (old - (old >>> (8 * off)) % 2 ^ (8 * len) * 2 ^ (8 * off) + v % 2 ^ (8 * len) * 2 ^ (8 * off))

/-- A base register takes bits [63:12] of what is written (02 Table 2-6). -/
def baseWrite (old : BitVec 64) (off len v : Nat) : BitVec 64 :=
  BitVec.ofNat 64 ((overlay 64 old.toNat off len v).toNat / 4096 * 4096)

/-- A write to a register without a row of its own (02 R34, Tables 2-1, 2-6, 2-7, 2-9, 00 R6); other registers ignore it. -/
def writeReg (off len v : Nat) (s : State) : State :=
  if off / 8 * 8 = 0x20 then
    if s.bar.enable then s else { s with bar := { s.bar with adminBase := baseWrite s.bar.adminBase (off % 8) len v } }
  else if off / 8 * 8 = 0x30 then
    if s.bar.enable then s else { s with bar := { s.bar with replyBase := baseWrite s.bar.replyBase (off % 8) len v } }
  else if off = 0x28 then
    if v.testBit 31 then s else disableAdmin (BitVec.ofNat 5 v) s
  else if off = 0x40 then
    if v.testBit 2 then { s with sent := { s.sent with hubStall := false } } else s
  else if 0x8000 ≤ off then
    let k := (off - 0x8000) / 16
    sendPending { s with link := { s.link with
      msixTable := tset s.link.msixTable k (overlay 128 (msixEntry s k).toNat (off % 16) len v) } }
  else s

/-- Meaning of REGISTER_WRITE: an access that is not naturally aligned is a fault, since 02 R32 forbids it and gives it no
effect. -/
def execRegisterWrite (off : BitVec 16) (w64 : Bool) (v : BitVec 64) (s : State) : Host.Outcome State Fault Refusal :=
  let len := if w64 then 8 else 4
  if off.toNat % len ≠ 0 then .fault .misalignedAccess
  else if !reachable s then .next s
  else .next (writeReg off.toNat len v.toNat s)

/-- LOCAL_TIME_READ (01 R26): a 64-bit read at 0x0058, a 32-bit read there, or (`upper`) a 32-bit read at 0x005C. The value
read leaves the module. -/
def readTime (upper w64 : Bool) (s : State) : State :=
  let t := BitVec.ofNat 64 (now s)
  if !reachable s then s
  else if w64 then emit (.barRead t) { s with clk := { s.clk with shadow := none } }
  else if upper then
    emit (.barRead (((s.clk.shadow).getD (t.extractLsb' 32 32)).setWidth 64)) { s with clk := { s.clk with shadow := none } }
  else emit (.barRead ((t.extractLsb' 0 32).setWidth 64)) { s with clk := { s.clk with shadow := some (t.extractLsb' 32 32) } }

/-- Meaning of LOCAL_TIME_READ. -/
def execLocalTimeRead (upper w64 : Bool) (s : State) : Host.Outcome State Fault Refusal := .next (readTime upper w64 s)

end Sys2Proof.Machine
end

