-- ==== Sys2Proof/Machine/Fetch.lean ====
section
/-! DEFINITION. Fetching: visits to rings, fetched packets and their checks, failed reads, ORDERED (02 R36, R39, R44, R47, R50, R55,
R59, R61, Table 2-15, 10 Table 10-6, 13 R395). -/
namespace Sys2Proof.Machine

/-! ### Visits -/

/-- Rings of this module are fetched at all (02 Table 2-25, R67, 10 R320, R337, 13 R394). -/
def fetching (s : State) : Bool :=
  s.link.busMaster && reachable s && s.dev.state != .booting && s.dev.state != .updating && !s.pair.wedged
    && s.pair.switching.isNone && s.clk.syspll && s.thermal.tripped.isNone && !ending s

/-- Only ring 0 is fetched (02 Table 2-25, 10 R307). -/
def ringZeroFetched (s : State) : Bool :=
  s.dev.state == .halfMast || s.dev.state == .shutdown || standbyLike s

/-- Reads of a ring's slots under way. -/
def readsOf (s : State) (ring : Nat) : Nat := (s.reads.filter fun r => r.ring = ring).length

/-- Slots free for commands in a reply queue: in queue 0, 64 are held back for events (02 R44). -/
def queueRoom (s : State) (q : Nat) : Nat :=
  match tget s.queues q with
  | none => 0
  | some x => 2 ^ x.sizeLog2 - (if q = 0 then 64 else 0) - x.reserved - x.unread.count false

/-- Slots of a ring that could be read now. -/
def readable (s : State) (n : Nat) (r : Ring) : Nat :=
  if r.st = .active ∧ r.pending = true then min (r.visible - r.fetched - readsOf s n) (queueRoom s r.queue) else 0

/-- The order of 02 R55 by class, and within a class ascending from the ring after the one last served. DESIGN CHOICE
(notes/assumptions 13): ring 0, which has no class and so no place in that order, comes before every class. -/
def visitKey (s : State) (n : Nat) (r : Ring) : Nat :=
  if n = 0 then 0
  else 1 + r.cls * 2 ^ 22 + (if s.served.getD r.cls 0 < n then n else n + 2 ^ 21)

/-- The doorbell time of the slot at a count: that of the first doorbell beyond it (02 R54, 01 R29). -/
def stampAt (l : List (Nat × Tick)) (n : Nat) (d : Tick) : Tick :=
  match l.find? fun e => decide (n < e.1) with
  | some e => e.2
  | none => d

/-- The reads of a visit: at most 8 slots, and none of a command other than a request at the in-flight limit (02 R55, R61).
`isReq` says of each slot in turn whether it holds a request. -/
def visitReads (s : State) (n : Nat) (r : Ring) : Nat → Nat → List Bool → List SlotRead
  | _, _, [] => []
  | 0, _, _ => []
  | k + 1, used, q :: rest =>
    if !q && decide (1024 ≤ used) then []
    else
      let c := r.fetched + readsOf s n + (min (readable s n r) 8 - (k + 1))
      { ring := n, order := c, doorbell := stampAt r.stamps c (now s), isReq := q } ::
        visitReads s n r k (used + bit (!q)) rest

/-- The reads of a visit to a ring, as `kinds` says what its next slots hold. -/
def readsFor (s : State) (kinds : Tbl (List Bool)) (n : Nat) (r : Ring) : List SlotRead :=
  visitReads s n r (min (readable s n r) 8) (inFlight s) (tgetD kinds n [])

/-- The ring visited next: the first in order of which a slot can be fetched. One whose next slot the in-flight limit holds back
holds back no other ring (02 R61). -/
def nextRing (s : State) (kinds : Tbl (List Bool)) : Option (Nat × Ring) :=
  let ok := s.rings.filter fun e => (e.1 = 0 || !ringZeroFetched s) && !(readsFor s kinds e.1 e.2).isEmpty
  (sortBy (fun a b => decide (visitKey s a.1 a.2 ≤ visitKey s b.1 b.2)) ok).head?

/-- RING_FETCH_VISIT (02 R44, R55, R61). -/
def fetchVisit (kinds : Tbl (List Bool)) (s : State) : State :=
  if !fetching s then s
  else
    match nextRing s kinds with
    | none => s
    | some (n, r) =>
      let rs := readsFor s kinds n r
      { s with reads := s.reads ++ rs, served := if n = 0 then s.served else s.served.set r.cls n,
               queues := tmod s.queues r.queue fun q => { q with reserved := q.reserved + rs.length } }

/-- Meaning of RING_FETCH_VISIT. -/
def execRingFetchVisit (kinds : Tbl (List Bool)) (s : State) : Host.Outcome State Fault Refusal := .next (fetchVisit kinds s)

/-! ### Checks at fetch (02 Table 2-15) -/

/-- Check 6: the fence of a command with SIGNAL_FENCE. -/
def fenceCheck (s : State) (t : Nat) (f : BitVec 32) : Option (Status × Nat) :=
  let i := bitsOf f.toNat 13 0
  match tget s.fences i with
  | none => some (.badParam, 16)
  | some x =>
    if x.tenant ≠ t then some (.accessDenied, 2)
    else if x.gen ≠ bitsOf f.toNat 31 24 ∨ 2 ≤ bitsOf f.toNat 17 16 then some (.badParam, 16)
    else none

/-- Check 3: the opcode is allowed on the ring (02 Table 2-26, 05 R180). -/
def ringAllows (ring cls op : Nat) : Bool :=
  (anyRing op || (ring = 0 && ringZeroOnly op) || (ring != 0 && tenantOnly op)) && (op != 0x0208 || cls = 3)

/-- Checks 1 to 6. -/
def fetchFault (s : State) (n : Nat) (r : Ring) (p : Packet) : Option (Status × Nat) :=
  let op := opcodeOf p
  let t := r.tenant.getD 0
  if !acceptedOp s op then some (notAccepted s)
  else if !knownOp op then some (.badOpcode, op)
  else if !ringAllows n r.cls op then some (.accessDenied, 1)
  else if n ≠ 0 ∧ tenantActive s t = false then some (.tenantGone, t)
  else if 8 ≤ le p 2 2 then some (.badParam, 2)
  else if n = 0 ∧ (encParams p || signals p) = true then some (.badParam, 2)
  else if seqOf p = 0xFFFFFFFF then some (.badParam, 4)
  else if signals p then fenceCheck s t (fenceOf p)
  else none

/-- Check 7 and the reserved bytes of a packet with ENCRYPTED_PARAMS (09 R285). -/
def openParams (s : State) (r : Ring) (p : Packet) (obj : BitVec 608) : Packet ⊕ (Status × Nat) :=
  if !encParams p then .inl p
  else
    match openSealed s (r.tenant.getD 0) p 2 44 obj.toNat with
    | .inr (st, _) => .inr (st, 20)
    | .inl m =>
      match (List.range 36).find? fun i => le p (28 + i) 1 != 0 with
      | some i => .inr (.badParam, 28 + i)
      | none => .inl (withParams p m)

/-! ### A fetched packet -/

/-- A ring after one more slot has been fetched (02 R50, R55). -/
def ringFetched (r : Ring) : Ring :=
  { r with fetched := r.fetched + 1, stamps := r.stamps.filter fun e => decide (r.fetched + 1 < e.1),
           pending := decide (r.fetched + 1 < r.visible) }

/-- The head word after a fetch, with HEAD_WRITE set (02 R50). -/
def writeHead (r : Ring) (s : State) : State :=
  match r.headAddr with
  | some a => if s.link.busMaster then emit (.headWord a r.fetched) s else s
  | none => s

/-- FETCH record of a fetched slot, and COMMAND record of an active-only command (10 Table 10-6). -/
def tellFetch (n slot : Nat) (r : Ring) (p : Packet) (s : State) : State :=
  if n = 0 then s
  else
    let s := tell (.fetch r.fetched [(opcodeOf p, tagOf p, seqOf p)]) n slot r.tenant s
    if activeOnly (opcodeOf p) then tell (.command (opcodeOf p) (tagOf p) (seqOf p) false) n slot r.tenant s else s

/-- RELEASE of a fetched STREAM_FEED clears OUTPUT_PENDING (07 R226). -/
def releaseAtFetch (n : Nat) (p : Packet) (s : State) : State :=
  if opcodeOf p ≠ 0x0302 ∨ p.getLsbD 322 = false ∨ (badField p false).isSome = true then s
  else
    match findStream s (le p 20 4) with
    | none => s
    | some (i, st) =>
      let clear := fun (b : Buf) =>
        if b.picture = some (le p 44 4) then { b with outPend := false } else b
      if st.ring ≠ n ∨ st.closing.isSome = true then s else modStream i (fun x => { x with bufs := x.bufs.map clear }) s

/-- A RELEASE behind an admission or a buffer selection of the same tick in its stream waits (07 R225). -/
def releaseLate (s : State) (p : Packet) : Bool :=
  opcodeOf p = 0x0302 && p.getLsbD 322 && (findStream s (le p 20 4)).any fun e => e.2.named == some (now s) || e.2.picked == some (now s)

/-- An APPLIQUE_REPLACE takes the appliqué's second version place at its fetch, where that is free (03 R117). -/
def takePlace (cid : Nat) (t : Option Nat) (p : Packet) (s : State) : State :=
  if opcodeOf p ≠ 0x0106 then s
  else
    match findApplique s (le p 20 2) with
    | none => s
    | some (i, a) =>
      if some a.tenant = t ∧ a.retiring = false ∧ placeFree a = true then modApp i (fun a => { a with place := some (.cmd cid) }) s else s

/-- Every earlier command of a ring has its final reply written (02 R59). -/
def earlierDone (s : State) (ring cid : Nat) : Bool :=
  !(s.cmds.any fun e => decide (e.1 < cid) && e.2.ring = ring) &&
    !(s.reqs.any fun e => decide (e.2.order < cid) && e.2.ring = ring && liveState e.2.st)

/-- A command as it is copied at fetch (02 R36). -/
def newCmd (s : State) (rd : SlotRead) (r : Ring) (p : Packet) : Cmd :=
  { ring := rd.ring, order := rd.order % 2 ^ r.sizeLog2, pkt := p, doorbell := rd.doorbell, tenant := r.tenant,
    queue := r.queue,
    phase := if ordered p && !isReqOp (opcodeOf p) && !earlierDone s rd.ring s.nextCid then .ordered else .ready,
    since := now s, keyGen := currentGen s (r.tenant.getD 0), partner := decide (rd.order < r.partnerUpTo), given := none, aux := [] }

/-- The packet of the first outstanding read of a ring arrives: it is copied, checked, and refused or passed on (02 R39).
With `blocks` a request's parameter blocks have been read as well, and it goes on to admission. Nothing is fetched while the hub's
control does not run or the module ends (01 R23, 02 R73), and no RELEASE behind what R225 of 07 puts after it. -/
def commandFetched (ring : Nat) (pkt : Packet) (obj : BitVec 608) (blocks : Option Blocks) (s : State) : State :=
  match s.reads.find? (fun r => r.ring = ring), tget s.rings ring with
  | some rd, some r =>
    if !hubRuns s || ending s || (match openParams s r pkt obj with | .inl p => releaseLate s p | .inr _ => false) then s else
    let r' := ringFetched r
    let cid := s.nextCid
    let s := { s with reads := s.reads.erase rd, rings := tset s.rings ring r', nextCid := cid + 1 }
    let s := tellFetch ring (rd.order % 2 ^ r.sizeLog2) r' pkt (writeHead r' s)
    let c := newCmd { s with nextCid := cid } rd r pkt
    match fetchFault s ring r pkt with
    | some (st, d) => refuse cid st d { s with cmds := tset s.cmds cid { c with phase := .ready } }
    | none =>
      match openParams s r pkt obj with
      | .inr (st, d) => refuse cid st d { s with cmds := tset s.cmds cid { c with phase := .ready } }
      | .inl p =>
        let s := takePlace cid r.tenant p (releaseAtFetch ring p { s with cmds := tset s.cmds cid { c with pkt := p } })
        match blocks with
        | some b => if isReqOp (opcodeOf p) then admitRequest cid b s else s
        | none => s
  | _, _ => s

/-- Meaning of COMMAND_FETCHED. -/
def execCommandFetched (ring : Nat) (pkt : Packet) (sealedObj : BitVec 608) (blocks : Option Blocks) (s : State) :
    Host.Outcome State Fault Refusal := .next (commandFetched ring pkt sealedObj blocks s)

/-! ### Failed reads -/

/-- FETCH_READ_FAILED (02 R47): the ring enters ERROR, its further reads are given up, and RING_ERROR names the slot. -/
def fetchFailed (ring : Nat) (s : State) : State :=
  match s.reads.find? (fun r => r.ring = ring), tget s.rings ring with
  | some rd, some r =>
    let s := releaseReads ring s
    if r.st ≠ .active then s
    else postEvent 2 ring (rd.order % 2 ^ r.sizeLog2) 0 .done
      { s with rings := tset s.rings ring { r with st := .error, pending := false } }
  | _, _ => s

/-- Meaning of FETCH_READ_FAILED. -/
def execFetchReadFailed (ring : Nat) (s : State) : Host.Outcome State Fault Refusal := .next (fetchFailed ring s)

/-- PCIE_READ_ERROR (13 R395): a read of a parameter block or an input fails, and the command ends with INTEGRITY_MISMATCH. -/
def readError (t : Target) (s : State) : State :=
  match t with
  | .req slot => endReq slot .integrityMismatch 0x00010003 s
  | .cmd cid =>
    match tget s.cmds cid with
    | some c => if c.phase = .replied then s else refuse cid .integrityMismatch 0x00010003 (dropWork cid s)
    | none => s

/-- Meaning of PCIE_READ_ERROR. -/
def execPcieReadError (t : Target) (s : State) : Host.Outcome State Fault Refusal := .next (readError t s)

/-- ORDERED_RELEASE (02 R59). -/
def orderedRelease (cid : Nat) (s : State) : State :=
  match tget s.cmds cid with
  | some c => if hubRuns s = true ∧ c.phase = .ordered ∧ earlierDone s c.ring cid = true then
      modCmd cid (fun c => { c with phase := .ready }) s else s
  | none => s

/-- Meaning of ORDERED_RELEASE. -/
def execOrderedRelease (cid : Nat) (s : State) : Host.Outcome State Fault Refusal := .next (orderedRelease cid s)

/-! ### Running a fetched command -/

/-- The command of a number, where it has been fetched, is of the opcode and may begin. -/
def begins (s : State) (cid op : Nat) : Option Cmd :=
  match tget s.cmds cid with
  | some c => if hubRuns s = true ∧ ending s = false ∧ c.phase = .ready ∧ opcodeOf c.pkt = op then some c else none
  | none => none

/-- A command runs: its parameters are checked first (02 R40, R427), those in `more` among them, then its own meaning. -/
def runCmdWith (cid op : Nat) (more : Cmd → State → List Nat) (f : Cmd → State → State) (s : State) : State :=
  match begins s cid op with
  | none => s
  | some c =>
    match ((badField c.pkt false).toList ++ more c s).min? with
    | some d => refuse cid .badParam d s
    | none => f c s

/-- In HALF_MAST, SHUTDOWN, STANDBY and SPARE a command that check 1 accepts for some values of a field refuses the others
before any other check of its own (02 R66, 10 R307). -/
def guarded (cid op : Nat) (ok : Packet → Bool) (s : State) : Option (Status × Nat) :=
  match begins s cid op with
  | none => none
  | some c =>
    let limited := stopping s || s.dev.state == .shutdown || s.dev.state == .halfMast || standbyLike s
    if limited && !ok c.pkt then some (notAccepted s) else none

/-- A command runs: its parameters are checked first (02 R40, R427), then its own meaning. -/
def runCmd (cid op : Nat) (f : Cmd → State → State) (s : State) : State :=
  match begins s cid op with
  | none => s
  | some c =>
    match badField c.pkt false with
    | some d => refuse cid .badParam d s
    | none => f c s

/-- A command has begun and awaits its completion; `aux` is what it keeps. -/
def begun (cid : Nat) (aux : List Nat) (s : State) : State :=
  modCmd cid (fun c => { c with phase := .begun, since := now s, aux := aux }) s

/-- A begun command of an opcode. -/
def inProgress (s : State) (cid op : Nat) : Option Cmd :=
  match tget s.cmds cid with
  | some c => if hubRuns s = true ∧ c.phase = .begun ∧ opcodeOf c.pkt = op then some c else none
  | none => none

end Sys2Proof.Machine
end

