-- ==== Sys2Proof/Machine/Attention.lean ====
section
/-! DEFINITION. Attention inside one core: prickings, the CAUSAL generator, bias tables, tree prickings, the fused pass and the weights of the
backward pass (05 R149, R150, R162 to R168, R171, R177, R178, R182). -/
namespace Sys2Proof.Machine

/-! ### Prickings (05 R162 to R164) -/

/-- The shared diagonal tile, one row of 512 bits for each query row: bit (r, c) is 1 when c ≤ r (05 R163). -/
def diagonalTile : List (BitVec 512) := (List.range 512).map fun r => BitVec.ofNat 512 (2 ^ (r + 1) - 1)

/-- Whether a key is visible to a query under the generated CAUSAL mask, from the tile indices and the diagonal tile. -/
def causalBit (diag : List (BitVec 512)) (q k : Nat) : Bool :=
  if k / 512 < q / 512 then true
  else if q / 512 < k / 512 then false
  else (diag.getD (q % 512) 0).getLsbD (k % 512)

/-- Fields of a pricking's header and directory. -/
def prickQ0 (n : Nat) : Nat := n % 2 ^ 32
def prickQT (n : Nat) : Nat := bitsOf n 47 32
def prickKT (n : Nat) : Nat := bitsOf n 63 48
def prickEntry (n i : Nat) : Nat := (n >>> (8 * (16 + 4 * i))) % 2 ^ 32
def prickKind (n i : Nat) : Nat := prickEntry n i / 2 ^ 30
def prickTile (n i : Nat) : Nat := 16 + 4 * (prickQT n * prickKT n) + 32768 * (prickEntry n i % 2 ^ 30)

/-- A pricking of `len` bytes is well formed: Q0 a multiple of 512, every KIND below 3, directory and tiles within its length, and no
more than 16 MiB. -/
def prickOk (len n : Nat) : Bool :=
  decide (16 ≤ len ∧ len ≤ 2 ^ 24) && prickQ0 n % 512 = 0 && decide (16 + 4 * (prickQT n * prickKT n) ≤ len) &&
    (List.range (prickQT n * prickKT n)).all fun i =>
      prickKind n i != 3 && (prickKind n i != 2 || decide (prickTile n i + 32768 ≤ len))

/-- The bit of a query and a key; positions outside are not visible. -/
def prickBit (n q k : Nat) : Bool :=
  if q < prickQ0 n ∨ prickQ0 n + 512 * prickQT n ≤ q ∨ 512 * prickKT n ≤ k then false
  else
    let r := q - prickQ0 n
    let i := r / 512 * prickKT n + k / 512
    if prickKind n i = 1 then true
    else if prickKind n i = 2 then n.testBit (8 * (prickTile n i + r % 512 * 64 + k % 512 / 8) + k % 8)
    else false

/-! ### Bias tables (05 R165, R166) -/

/-- The bucket of a query and a key position. -/
def bucket (q k : Nat) : Nat := (min (max ((q : Int) - k) (-512)) 511 + 512).toNat

/-- Table 0, CAUSAL, and table 1, FULL. -/
def biasCausal : List (BitVec 32) := List.replicate 512 0xFF800000 ++ List.replicate 512 0
def biasFull : List (BitVec 32) := List.replicate 1024 0

/-- A table may be loaded: 1,024 entries, none +∞ or NaN. -/
def biasOk (l : List (BitVec 32)) : Bool := l.length = 1024 && l.all fun x => !isNan32 x && x != 0x7F800000

/-- A score under an entry: −∞ hides it, a zero leaves it, any other entry is added with one rounding. -/
def biasScore (entry s : BitVec 32) : BitVec 32 :=
  if entry = 0xFF800000 then 0xFF800000 else if entry = 0 ∨ entry = 0x80000000 then s else add32 s entry

/-! ### Masks -/

/-- Where the mask of a layer comes from at run time: the generator with the half's diagonal tile, a pricking, or a bias table. -/
inductive MaskOf where
  | causal (diag : List (BitVec 512))
  | prick (bytes : Nat)
  | table (t : List (BitVec 32))
deriving DecidableEq, Repr

/-- The mask of one request: its source, the position of its first candidate, and the tree pricking of its candidates (05 R167, R171). -/
structure Mask where
  src  : MaskOf
  base : Nat
  depth : List Nat
  tree : List (BitVec 64)
deriving DecidableEq, Repr

/-- Logical position of the query in slot `p` (05 R171). -/
def Mask.logical (m : Mask) (p : Nat) : Nat := if p < m.base then p else m.base + m.depth.getD (p - m.base) 1 - 1

/-- The tree pricking: candidate rows see the candidates of their ancestor mask, input rows none. -/
def Mask.treeBit (m : Mask) (p k : Nat) : Bool := decide (m.base ≤ p) && (m.tree.getD (p - m.base) 0).getLsbD (k - m.base)

/-- A key is hidden from the query in a slot. -/
def Mask.hidden (m : Mask) (p k : Nat) : Bool :=
  if m.base ≤ k then !m.treeBit p k
  else
    match m.src with
    | .causal d => !causalBit d (m.logical p) k
    | .prick n => !prickBit n (m.logical p) k
    | .table t => t.getD (bucket (m.logical p) k) 0 == 0xFF800000

/-- A score under the mask. -/
def Mask.score (m : Mask) (p k : Nat) (s : BitVec 32) : BitVec 32 :=
  if m.hidden p k then 0xFF800000
  else if m.base ≤ k then s
  else
    match m.src with
    | .table t => biasScore (t.getD (bucket (m.logical p) k) 0) s
    | _ => s

/-! ### The fused pass (05 R149, R150) -/

/-- State of one query row. -/
structure RowState where
  m : BitVec 32
  l : BitVec 32
  o : List (BitVec 32)
deriving DecidableEq, Repr

/-- A row before its first key tile. -/
def RowState.start (n : Nat) : RowState := { m := smxStart.1, l := smxStart.2, o := List.replicate n 0 }

/-- What one pass reads: formats of Q, K and V and of the weights, the mask, and the vectors of keys and values by position. -/
structure Pass where
  qf   : Elem
  kf   : Elem
  pv   : Elem
  dim  : Nat
  mask : Mask
  key  : Nat → List (Nat × Nat)
  val  : Nat → List (Nat × Nat)

/-- The masked scores of one row against a list of keys. -/
def Pass.scores (a : Pass) (q : Nat × List (Nat × Nat)) (ks : List Nat) : List (BitVec 32) :=
  ks.map fun k => a.mask.score q.1 k (dotAny a.qf a.kf q.2 (a.key k))

/-- Steps 3 to 5 of R149 for one row. -/
def Pass.rowStep (a : Pass) (ks : List Nat) (q : Nat × List (Nat × Nat)) (r : RowState) : RowState :=
  let x := smxStep r.m r.l (a.scores q ks)
  let ps := x.2.2.2.map fun w => (0x7F, convert a.pv w)
  { m := x.1, l := x.2.1,
    o := r.o.zipIdx.map fun e => fma32 e.1 x.2.2.1 (dotAny a.pv a.kf ps (ks.map fun k => (a.val k).getD e.2 (0x7F, 0))) }

/-- One key tile: skipped where its mask hides every key from every row (05 R150). -/
def Pass.tile (a : Pass) (qs : List (Nat × List (Nat × Nat))) (rs : List RowState) (ks : List Nat) : List RowState :=
  if qs.all fun q => ks.all fun k => a.mask.hidden q.1 k then rs else List.zipWith (a.rowStep ks) qs rs

/-- Key tiles of 512 positions in ascending order. -/
def keyTiles (total : Nat) : List (List Nat) :=
  (List.range (ceilDiv total 512)).map fun t => (List.range (min 512 (total - 512 * t))).map (· + 512 * t)

/-- Row states after the last key tile. -/
def Pass.run (a : Pass) (total : Nat) (qs : List (Nat × List (Nat × Nat))) : List RowState :=
  (keyTiles total).foldl (a.tile qs) (qs.map fun _ => RowState.start a.dim)

/-- The output row; an empty row, of state m = −∞, is +0 throughout (05 R177). -/
def RowState.output (r : RowState) : List (BitVec 32) := smxFinal r.l r.o
def RowState.empty (r : RowState) : Bool := r.m == 0xFF800000

/-- The weights of one row in the backward pass, from its scores, kept or formed again, and its state; an empty row has none (05 R182). -/
def backWeights (m l : BitVec 32) (ss : List (BitVec 32)) : List (BitVec 32) :=
  if m = 0xFF800000 then ss.map fun _ => 0 else ss.map fun x => mul32 (exp2 (sub32 x m)) (rcp l)

end Sys2Proof.Machine
end

