-- ==== Sys2Proof/Machine/Paths.lean ====
section
/-! DEFINITION. Bands and halo paths of vision stages (06 R195-R199, R202, R205, Table 6-4).

A halo path of a pattern is numbered (8 × pattern + boundary) × 2 + direction: boundary b lies between cores b and b + 1,
boundary 3 is the stripe cut, and direction 0 is down (notes/assumptions 36). -/
namespace Sys2Proof.Machine

def pathPattern (path : Nat) : Nat := path / 16
def pathBoundary (path : Nat) : Nat := path / 2 % 8
def pathDown (path : Nat) : Bool := path % 2 = 0

/-- The core that a path leads from by its number, before any reduced plan. -/
def pathFrom (path : Nat) : Nat := if pathDown path then pathBoundary path else pathBoundary path + 1

/-- The half whose frame a path belongs to: that of its producer. -/
def pathHalf (path : Nat) : Nat := halfOfCore (pathFrom path)

/-- Slots that the plan gives a layer's path (06 R199). -/
def slotsOf (p : Pattern) (path layer : Nat) : Nat :=
  match p.plan.conv[layer]? with
  | none => 0
  | some l => if pathBoundary path = 3 then l.cutSlots else l.slots.getD (pathBoundary path) 0

/-- The key of one layer's queue on a path. -/
def haloKey (path layer : Nat) : Nat := path * 256 + layer

/-- A queue as it stands: at the start of a frame every slot is EMPTY and the producer holds every credit. -/
def haloOf (s : State) (path layer : Nat) : HaloPath :=
  let n := ((tget s.pats (pathPattern path)).map fun p => slotsOf p path layer).getD 0
  tgetD s.halo (haloKey path layer) { slots := n, full := [], credits := n, last := none }

/-- The core whose reduced plan a half's stage runs. -/
def reducedCore (s : State) (pi h : Nat) : Option Nat := (tget s.stages (stageKey pi h)).bind (·.reduced)

/-- The core that consumes a path's rows: under a reduced plan the core beyond the halted one, which the rows reach through the
half store (06 R205, Table 6-4). -/
def consumer (s : State) (path : Nat) : Nat :=
  let b := pathBoundary path
  let c := if pathDown path then b + 1 else b
  if reducedCore s (pathPattern path) (halfOfCore c) = some c then (if pathDown path then c + 1 else c - 1) else c

/-- The frame that a half's stage of a pattern runs, while a request of the pattern is at work. -/
def runningFrame (s : State) (pi h : Nat) : Option Nat :=
  if patBusy s pi && coresClocked s then
    match tget s.stages (stageKey pi h) with
    | some g => if g.began.isSome && !g.flushed then some g.frame else none
    | none => none
  else none

/-! ### Bands -/

/-- Cores of a plan in a half, ascending, and their planned heights. -/
def planCores (p : Plan) (h : Nat) : List Nat := p.cores.filter fun k => halfOfCore k = h
def planHeights (p : Plan) (h : Nat) : List Nat := ((p.cores.zip p.heights).filter fun e => halfOfCore e.1 = h).map Prod.snd

/-- Cores of a half and their heights under the full plan, or under the reduced plan for a core (06 R205). -/
def planOf (p : Plan) (h : Nat) (reduced : Option Nat) : List (Nat × Nat) :=
  match reduced with
  | none => (planCores p h).zip (planHeights p h)
  | some o => ((planCores p h).filter (· != o)).zip (((p.reduced.find? fun e => e.1 = o).map (·.2)).getD [])

/-- A stage runs a plan: with the heights of that plan where it has just taken it up (DESIGN CHOICE, notes/assumptions 118). -/
def withPlan (p : Plan) (h : Nat) (reduced : Option Nat) (g : Stage) : Stage :=
  if g.reduced = reduced then g else { g with reduced := reduced, heights := (planOf p h reduced).map (·.2) }

/-- Cores that have a band of a half's stage now, and the heights of their bands. -/
def bandsNow (p : Plan) (h : Nat) (g : Stage) : List (Nat × Nat) := ((planOf p h g.reduced).map (·.1)).zip g.heights

/-- First row and height of a core's band in a layer's input (06 R196, R207): West takes the upper stripe. -/
def bandOf (s : State) (pi : Nat) (p : Plan) (k layer : Nat) : Option (Nat × Nat) :=
  let h := halfOfCore k
  match tget s.stages (stageKey pi h) with
  | none => none
  | some g =>
    let l := bandsNow p h g
    let i := (l.map (·.1)).idxOf k
    let above := if p.striped && h = 1 then (planHeights p 0).sum else 0
    let d := strideBefore p layer
    if i < l.length then some ((above + ((l.map (·.2)).take i).sum) / d, (l.map (·.2)).getD i 0 / d) else none

/-- Output rows that a core computes in a layer: those of its band (06 R196), up to the layer's extent. -/
def outRows (s : State) (pi : Nat) (p : Plan) (k layer : Nat) (l : ConvLayer) : List Nat :=
  match bandOf s pi p k layer with
  | none => []
  | some (a, n) => (List.range (outExtent l.v)).filter fun oy => decide (a ≤ oy * l.v.s ∧ oy * l.v.s < a + n)

/-- A row of a layer's input that a core's taps read outside its band, and that another core's band holds (06 R196). -/
def rowNeeded (s : State) (pi : Nat) (p : Plan) (k layer row : Nat) (l : ConvLayer) : Bool :=
  takesHalo l && (outRows s pi p k layer l).any fun oy => (rowsRead l oy).contains row

/-- A core's band holds a row of a layer's input. -/
def holdsRow (s : State) (pi : Nat) (p : Plan) (k layer row : Nat) : Bool :=
  match bandOf s pi p k layer with
  | some (a, n) => decide (a ≤ row ∧ row < a + n)
  | none => false

/-- The FULL row that a consumer holds of a layer's input (06 Table 6-6 step 3). -/
def heldRow (s : State) (pi k layer row : Nat) : Option HaloRow :=
  let rows := s.halo.flatMap fun e =>
    let path := e.1 / 256
    if pathPattern path = pi ∧ e.1 % 256 = layer ∧ consumer s path = k then e.2.full else []
  rows.find? fun r => r.row = row

end Sys2Proof.Machine
end

