-- ==== Sys2Proof/Machine/Units.lean ====
section
/-! DEFINITION. What the units that run a request do to the stores: DMA, the array, the vector unit, atomic operations, KV entries, attention,
convolution and the picot engine (04 R126 to R144, 05 R149 to R182, 06 R186 to R216). The operations themselves come from the pattern image,
which the manual does not describe, and so as operands (notes/assumptions 109). -/
namespace Sys2Proof.Machine

/-! ### Stores (04 R142, Table 4-8) -/

/-- Capacities: 64 MiB of a core store, the channels in service of LPDDR4X (08 R240). -/
def coreStoreBytes : Nat := 64 * 2 ^ 20
def lpddrBytes (s : State) (h : Nat) : Nat := channelsIn s h * 2013265920

/-- Where a half-local address lies in the contents of LPDDR4X. -/
def lpddrKey (h addr : Nat) : Nat := h * 2 ^ 37 + addr

/-- A unit of a request reaches `n` bytes at a place: a core of the request, its tenant's share of a half store its pattern uses, LPDDR4X. -/
def reaches (s : State) (r : Req) (p : Place) (n : Nat) : Bool :=
  match p with
  | .core k a => r.cores.contains k && decide (a + n ≤ coreStoreBytes)
  | .half h a => patUses s r.pattern h && decide ((halfShare s r.tenant h).1 ≤ a ∧ a + n ≤ (halfShare s r.tenant h).2)
  | .lpddr h a => decide (a + n ≤ lpddrBytes s h)
  | .output _ => false

/-- Pages of LPDDR4X that `n` bytes at a place touch. -/
def pagesAt (p : Place) (n : Nat) : List Nat :=
  match p with
  | .lpddr h a => ((List.range (n / 65536 + 2)).map fun i => pageKey h (a / 65536 + i)).filter fun k => decide (k % 2 ^ 21 * 65536 < a + n)
  | _ => []

/-- The first page of a transfer whose owner is not the tenant it acts for (09 R288). -/
def foreignPage (s : State) (r : Req) (p : Place) (n : Nat) : Option Nat :=
  (pagesAt p n).find? fun k => ((tget s.pages k).map (·.tenant)) != some r.tenant

/-- `n` bytes at a place. -/
def readAt (s : State) (p : Place) (n : Nat) : Nat :=
  match p with
  | .core k a => readBytes (coreOf s k).store a n
  | .half h a => readBytes (halfOf s h).store a n
  | .lpddr h a => readBytes s.mem.data (lpddrKey h a) n
  | .output _ => 0

/-- A place `off` bytes on. -/
def Place.plus (p : Place) (off : Nat) : Place :=
  match p with
  | .core k a => .core k (a + off)
  | .half h a => .half h (a + off)
  | .lpddr h a => .lpddr h (a + off)
  | .output o => .output (o + off)

/-! ### Lines of LPDDR4X (08 R241, R242, R245) -/

/-- The channel and the channel-local line of a half-local address. -/
def lineAt (s : State) (h addr : Nat) : Nat × Nat :=
  let g := granuleAt (channelsIn s h) addr
  (64 * h + servingAt s h g.1, 2 * g.2 + addr % 128 / 64)

/-- First addresses of the lines that `n` bytes touch. -/
def linesOf (addr n : Nat) : List Nat := (List.range (n / 64 + 2)).map (fun i => (addr / 64 + i) * 64) |>.filter fun a => decide (a < addr + n)

/-- A write covers a line whole. -/
def wholeLine (addr n a : Nat) : Bool := decide (addr ≤ a ∧ a + 64 ≤ addr + n)

/-- The uncorrectable line that a write less than a line, or an atomic operation, would read first (08 R245). -/
def stuckLine (s : State) (h addr n : Nat) (whole : Bool) : Option (Nat × Nat) :=
  ((linesOf addr n).filter fun a => !(whole && wholeLine addr n a)).map (lineAt s h) |>.find? fun l => s.mem.badLines.contains l

/-- `n` bytes are written; the lines written whole get correct check bytes. -/
def writeAt (p : Place) (n data : Nat) (s : State) : State :=
  match p with
  | .core k a => modCore k (fun c => { c with store := writeBytes c.store a n data }) s
  | .half h a => modHalf h (fun x => { x with store := writeBytes x.store a n data }) s
  | .lpddr h a =>
    let fresh := ((linesOf a n).filter (wholeLine a n)).map (lineAt s h)
    { s with mem := { s.mem with data := writeBytes s.mem.data (lpddrKey h a) n data,
                                 badLines := s.mem.badLines.filter fun l => !fresh.contains l } }
  | .output _ => s

/-- The unit's work on a request ends with DATA_ERROR: LPDDR4X of a half, its channel; the half's Isaush-M records the line (08 R245, R268,
Table 8-7). -/
def stuck (slot h : Nat) (l : Nat × Nat) (s : State) : State :=
  let s := bobPost (0x0A + h) 0x0010 (lineIndex s l.1 l.2) s
  endReq slot .dataError (dataDetail 1 h (l.1 % 64)) (modReq slot (fun r => { r with stopped := true }) s)

/-- A transfer to a page of another owner is not made: the request ends with ACCESS_DENIED, and the unit records the page (09 R288). -/
def denied (slot key : Nat) (s : State) : State :=
  let s := bobPost (0x0A + key / 2 ^ 21) 0x0014 (key % 2 ^ 21) s
  endReq slot .accessDenied 3 (modReq slot (fun r => { r with stopped := true }) s)

/-- A transfer by a request's unit at some places: it reaches them, and the tenant owns the pages. -/
def transfer (slot : Nat) (r : Req) (l : List (Place × Nat)) (f : State → State) (s : State) : State :=
  if !(l.all fun e => reaches s r e.1 e.2) then s
  else match l.findSome? fun e => foreignPage s r e.1 e.2 with
    | some k => denied slot k s
    | none => f s

/-- Reads by a request's unit; where a line cannot be read its data is withheld (08 R268). -/
def unitReads (slot : Nat) (r : Req) (l : List (Place × Nat)) (f : State → State) (s : State) : State :=
  let bad := fun (e : Place × Nat) => match e.1 with
    | .lpddr h a => (stuckLine s h a e.2 false).map fun k => (h, k)
    | _ => none
  transfer slot r l (fun s => match l.findSome? bad with
    | some (h, k) => stuck slot h k s
    | none => f s) s

/-- Bytes of a request's output buffer that its units may write. -/
def outCapacity (s : State) (r : Req) : Nat := ((tget s.pats r.pattern).map outBytesOf).getD 0

/-- A write by a request's unit; the lines it must read first can be read, and pages of the previous generation are restitched first (08 R245, 09
R296). -/
def unitWrite (slot : Nat) (r : Req) (p : Place) (n data : Nat) (s : State) : State :=
  match p with
  | .output off => if off + n ≤ outCapacity s r then writeHost (r.outAddr + off) n data s else s
  | .lpddr h a => transfer slot r [(p, n)] (fun s => match stuckLine s h a n true with
      | some l => stuck slot h l s
      | none => restitchPages (pagesAt p n).contains r.tenant (writeAt p n data s)) s
  | _ => transfer slot r [(p, n)] (writeAt p n data) s

/-! ### The array (04 R126 to R137) -/

/-- Elements of a plane in a core store as (scale, code). -/
def tensorAt (s : State) (k n : Nat) (p : Plane) : List (Nat × Nat) :=
  unpackTensor p.fmt n (readBytes (coreOf s k).store p.elems (planeBytes p.fmt n))
    (if p.blocked then some (readBytes (coreOf s k).store p.scales (ceilDiv n 32)) else none)

/-- The tile a loading puts beside the one in use (04 R128, Table 4-3). A block format has scales. -/
def loadTile (k sub : Nat) (m : ArrayMode) (f : Fold) (p : Plane) (s : State) : State :=
  let st := (coreOf s k).store
  if f.count ≤ sub ∨ pairOk m p.fmt p.fmt = false ∨ (p.fmt.blockOnly && !p.blocked) = true then s
  else
    let t : Tile := { mode := m, fold := f, fmt := p.fmt, elems := readBytes st p.elems (tileBytes m f p.fmt),
                      scales := if p.blocked then some (readBytes st p.scales (tileScales m f)) else none }
    modCore k (fun c =>
      let g := tgetD c.tiles sub { inUse := none, next := none, streamed := 0 }
      { c with tiles := tset c.tiles sub { g with next := some t } }) s

/-- ACLK cycles that a tile takes to load: 1 KiB each, scales included (04 R128, Table 4-3). -/
def loadCycles (t : Tile) : Nat :=
  ceilDiv (tileBytes t.mode t.fold t.fmt + if t.scales.isSome then tileScales t.mode t.fold else 0) 1024

/-- The loaded tile comes into use; tiles of another fold mode leave the array (04 R129). Where the tile before it streamed for fewer cycles than
the loading takes, the array was idle for the rest (R128, notes/assumptions 124). -/
def swapTile (k sub : Nat) (s : State) : State :=
  match tget (coreOf s k).tiles sub with
  | some { inUse := old, next := some t, streamed := n } =>
    let turn := fun (j : Nat) (g : Staging) =>
      if j = sub then { inUse := some t, next := none, streamed := 0 }
      else if (g.inUse.map (·.fold)) == some t.fold then g else { g with inUse := none }
    let s := modCore k (fun c => { c with tiles := tmap c.tiles turn }) s
    if old.isSome then profile 0x0103 k (loadCycles t - n) s else s
  | _ => s

/-- The edge register of a column: the sub-arrays' columns follow one another (04 Table 4-4); 2,048 in all. -/
def edgeIndex (t : Tile) (sub j : Nat) : Nat := sub * subCols t.mode t.fold + j

/-- The tile that a pass of `n` elements runs against: the one in use, where the vector fits it (04 R126, R128). -/
def passTile (s : State) (k sub n : Nat) (p : Plane) : Option Tile :=
  ((tget (coreOf s k).tiles sub).bind (·.inUse)).filter fun t =>
    decide (n ≤ subRows t.mode t.fold) && pairOk t.mode p.fmt t.fmt && !(p.fmt.blockOnly && !p.blocked)

/-- ACLK cycles in which the vector of an operation enters the array: one, and one for each further pass (04 R132). -/
def passCycles (s : State) (op : UnitOp) : Nat :=
  match op with
  | .pass k sub n p => match passTile s k sub n p with
    | some t => 1 + furtherPasses t p.fmt (tensorAt s k n p)
    | none => 0
  | _ => 0

/-- A pass of a vector of `n` elements against the tile in use: every column of the sub-array takes its sum; further passes are counted
(04 R131 to R133, R137, 14 Table 14-8). -/
def arrayPass (k sub n : Nat) (p : Plane) (s : State) : State :=
  match passTile s k sub n p with
  | none => s
  | some t =>
      let xs := tensorAt s k n p
      let put := fun (e : Tbl Edge) (j : Nat) =>
        let i := edgeIndex t sub j
        tset e i (passColumn t p.fmt xs j (tgetD e i Edge.clear))
      let more := furtherPasses t p.fmt xs
      let stream := fun (g : Staging) => { g with streamed := g.streamed + 1 + more }
      profile 0x0100 k more (modCore k (fun c =>
        { c with edge := (List.range (subCols t.mode t.fold)).foldl put c.edge, tiles := tmod c.tiles sub stream }) s)

/-- Edge registers start at zero for new dot products. -/
def clearEdge (k first n : Nat) (s : State) : State :=
  modCore k (fun c => { c with edge := c.edge.filter fun e => !decide (first ≤ e.1 ∧ e.1 < first + n) }) s

/-! ### The vector unit (04 R138 to R141) -/

/-- Register `reg` of a lane. -/
def regKey (lane reg : Nat) : Nat := 64 * lane + reg % 64
def laneReg (s : State) (k lane reg : Nat) : BitVec 32 := tgetD (coreOf s k).vregs (regKey lane reg) 0

def setReg (k lane reg : Nat) (v : BitVec 32) (s : State) : State :=
  modCore k (fun c => { c with vregs := if v = 0 then tdel c.vregs (regKey lane reg) else tset c.vregs (regKey lane reg) v }) s

/-- Lanes `lane` to `lane + n − 1`, of 1,024. -/
def lanesFrom (lane n : Nat) : List Nat := ((List.range n).map (· + lane)).filter (· < 1024)

/-- Lanes take values computed from the state before. -/
def setLanes (k lane n reg : Nat) (f : State → Nat → BitVec 32) (s : State) : State :=
  (lanesFrom lane n).foldl (fun t i => setReg k i reg (f s i) t) s

/-- FP32 words of a row in the core store. -/
def rowAt (s : State) (k addr n : Nat) : List (BitVec 32) :=
  (List.range n).map fun i => BitVec.ofNat 32 (readBytes (coreOf s k).store (addr + 4 * i) 4)
def putRow (k addr : Nat) (l : List (BitVec 32)) (s : State) : State :=
  writeAt (.core k addr) (4 * l.length) (packElems .fp32 (l.map (·.toNat))) s

/-- FP32 value of an element without a scale. -/
def elemValue (k : Elem) (code : Nat) : BitVec 32 := round32 (k.decode code)

/-- SMX_STEP on a row: state (m, l) at `state`, scores replaced by the weights, c at `factor` (04 R141). -/
def smxRow (k state scores n factor : Nat) (first : Bool) (s : State) : State :=
  let ml := rowAt s k state 2
  let m := if first then smxStart.1 else ml.getD 0 0
  let l := if first then smxStart.2 else ml.getD 1 0
  let x := smxStep m l (rowAt s k scores (min n 512))
  putRow k factor [x.2.2.1] (putRow k scores x.2.2.2 (putRow k state [x.1, x.2.1] s))

/-! ### Atomic operations (04 R143, R144) -/

/-- A line after an operation on its lanes under a mask. -/
def atomicLine (max : Bool) (mask : BitVec 16) (operand : BitVec 512) (line : Nat) : Nat :=
  packElems .fp32 ((List.range 16).map fun i =>
    let old := BitVec.ofNat 32 (elemAt .fp32 line i)
    let x := operand.extractLsb' (32 * i) 32
    (if mask.getLsbD i then (if max then max32 old x else add32 old x) else old).toNat)

/-- An atomic operation of a request on a line of a half store or of LPDDR4X, applied when it reaches the bank or controller: operations
on one line follow one another in the order of their coming (04 R144). -/
def atomicOp (slot : Nat) (r : Req) (max : Bool) (p : Place) (mask : BitVec 16) (x : BitVec 512) (s : State) : State :=
  let apply := fun (h : Nat) (s : State) => profile 0x0106 h 1 (writeAt p 64 (atomicLine max mask x (readAt s p 64)) s)
  match p with
  | .half h a => if a % 64 = 0 then transfer slot r [(p, 64)] (apply h) s else s
  | .lpddr h a =>
    if a % 64 = 0 then
      transfer slot r [(p, 64)] (fun s => match stuckLine s h a 64 false with
        | some l => stuck slot h l s
        | none => restitchPages (pagesAt p 64).contains r.tenant (apply h s)) s
    else s
  | _ => s

/-! ### KV entries (05 R153 to R158) -/

/-- The page and the offset in it of a position of a layer: of the request's sequence, or of its scratch pages (05 R154, R157). -/
def entryPage (s : State) (slot : Nat) (r : Req) (j : Nat) (l : AttnLayer) (ex pos : Nat) : Option (Nat × Nat × Bool) :=
  let perEx := match r.adapt with
    | some a => ceilDiv a.maxLen (perPage l)
    | none => 0
  let is := fun (u : PageUse) => match r.adapt, r.seqIdx, u with
    | none, some i, .kv k m n _ hot => if k = i ∧ m = j ∧ n = pos / perPage l then some hot else none
    | _, _, .scratch k m n => if k = slot ∧ m = j ∧ n = ex * perEx + pos / perPage l then some true else none
    | _, _, _ => none
  s.pages.findSome? fun e => (is e.2.use).map fun hot => (e.1, pos % perPage l * l.kvBytes, hot)

/-- K (`v` false) or V of one head at a position: the halves of the entry, scales after the elements of each (05 R154, 04 R125). -/
def kvHead (s : State) (l : AttnLayer) (head : Nat) (v : Bool) (e : Nat × Nat × Bool) : List (Nat × Nat) :=
  let half := entryBytes s e (if v then l.kvBytes / 2 else 0) (l.kvBytes / 2)
  let all := unpackTensor l.kv (l.heads * l.headDim) half
    (if l.blocked then some (half >>> (8 * scaleStart l.kv (l.heads * l.headDim))) else none)
  (all.drop (head * l.headDim)).take l.headDim

/-- Positions that a request has when it runs: below L for its sequence, and its own pending and provisional ones (05 R158). -/
def ownEnd (r : Req) : Nat := r.baseLen + r.inUnits + max r.genTokens r.cands
def runEnd (r : Req) : Nat := match r.adapt with | some a => a.maxLen | none => ownEnd r
def runStart (r : Req) : Nat := match r.adapt with | some _ => 0 | none => r.baseLen

/-- An entry is written at a position of the request's own, into the half store copy (05 R156, R158). -/
def kvWrite (slot : Nat) (r : Req) (k j ex pos addr : Nat) (s : State) : State :=
  match (layersOf s r.pattern)[j]? with
  | none => s
  | some l =>
    if pos < runStart r ∨ runEnd r ≤ pos ∨ halfOfCore k ≠ l.half then s
    else
      match entryPage s slot r j l ex pos with
      | some (key, off, true) =>
        let data := readBytes (coreOf s k).store addr l.kvBytes
        putEntry (key, off, true) l.kvBytes data s
      | _ => s

/-! ### Attention (05 R149 to R171, R182) -/

/-- The mask source that a layer of a request has now: on the table path table 0 from the core store, else the generator with the half's
diagonal tile, or the pricking in the half's pricking store (05 R166 to R169). -/
def maskOf (s : State) (slot : Nat) (r : Req) (k j : Nat) (l : AttnLayer) : Option MaskOf :=
  let held := fun (f : PrickCopy → Bool) => ((halfOf s l.half).pricks.find? fun x => x.layer = j && x.pattern = r.pattern && f x).map
    fun x => MaskOf.prick x.bytes.2
  if r.table then ((tget (coreOf s k).bias 0).map .table)
  else
    match l.source with
    | .causal => if (halfOf s l.half).diagonal.isEmpty then none else some (.causal (halfOf s l.half).diagonal)
    | .pattern => held fun x => x.slot.isNone
    | .request => held fun x => x.slot == some slot

/-- The mask of a request's layer, with the tree pricking of its candidates (05 R171). -/
def maskFor (s : State) (slot : Nat) (r : Req) (k j : Nat) (l : AttnLayer) : Option Mask :=
  let parents := (r.verify.map (·.parents)).getD []
  (maskOf s slot r k j l).map fun m =>
    { src := m, base := if r.verify.isSome then r.baseLen + r.inUnits else runEnd r,
      depth := (List.range parents.length).map (depthOf parents 64), tree := tgetD (coreOf s k).trees slot [] }

/-- What a pass of a head of a layer reads. -/
def passOf (s : State) (slot : Nat) (r : Req) (j : Nat) (l : AttnLayer) (head ex : Nat) (qf : Elem) (m : Mask) : Pass :=
  let vec := fun (v : Bool) (pos : Nat) => match entryPage s slot r j l ex pos with
    | some e => kvHead s l head v e
    | none => []
  { qf := qf, kf := l.kv, pv := l.pv, dim := l.headDim, mask := m, key := vec false, val := vec true }

/-- Query rows from slot `q0`, read from a plane in the core store. -/
def queriesAt (s : State) (k q0 rows dim : Nat) (q : Plane) : List (Nat × List (Nat × Nat)) :=
  ((List.range rows).map fun i => (q0 + i, ((tensorAt s k (rows * dim) q).drop (i * dim)).take dim))

/-- The rows an attention operation may take: up to 512, of the request's own positions, on the core's half (05 Table 5-1, R158). -/
def rowsOk (r : Req) (k : Nat) (l : AttnLayer) (q0 rows : Nat) (q : Plane) : Bool :=
  inRange 1 512 rows && decide (runStart r ≤ q0 ∧ q0 + rows ≤ runEnd r) && halfOfCore k = l.half &&
    (pairOk .bits8 q.fmt l.kv || pairOk .bits16 q.fmt l.kv) && (pairOk .bits8 l.pv l.kv || pairOk .bits16 l.pv l.kv) &&
    (q.blocked || !q.fmt.blockOnly)

/-- The fused pass of some rows: outputs to the core store, empty rows counted; an ADAPT_STEP's states, and its scores where an example has
up to 2,048 positions, are kept at `keep` (05 R149, R177, R182). -/
def attend (slot : Nat) (r : Req) (k j head ex q0 rows : Nat) (q : Plane) (out keep : Nat) (s : State) : State :=
  match (layersOf s r.pattern)[j]? with
  | none => s
  | some l =>
    match maskFor s slot r k j l with
    | none => s
    | some m =>
      if !rowsOk r k l q0 rows q then s
      else
        let a := passOf s slot r j l head ex q.fmt m
        let qs := queriesAt s k q0 rows l.headDim q
        let rs := a.run (runEnd r) qs
        let s := putRow k out (rs.flatMap (·.output)) (modReq slot (fun r => { r with empties := r.empties + (rs.filter (·.empty)).length }) s)
        if r.adapt.isNone then s
        else
          let states := rs.flatMap fun x => if x.empty then [0xFF800000, 0] else [x.m, x.l]
          let kept := if runEnd r ≤ 2048 then qs.flatMap fun x => a.scores x (List.range (runEnd r)) else []
          putRow k keep (states ++ kept) s

/-- The weights of the backward pass of some rows: from the kept scores, or from scores formed again, and the kept states (05 R182). -/
def backward (slot : Nat) (r : Req) (k j head ex q0 rows : Nat) (q : Plane) (keep out : Nat) (s : State) : State :=
  match (layersOf s r.pattern)[j]? with
  | none => s
  | some l =>
    match maskFor s slot r k j l with
    | none => s
    | some m =>
      if r.adapt.isNone || !rowsOk r k l q0 rows q then s
      else
        let n := runEnd r
        let a := passOf s slot r j l head ex q.fmt m
        let scores := fun (i : Nat) (x : Nat × List (Nat × Nat)) =>
          if n ≤ 2048 then rowAt s k (keep + 8 * rows + 4 * (i * n)) n else a.scores x (List.range n)
        let ws := (queriesAt s k q0 rows l.headDim q).zipIdx.flatMap fun e =>
          let st := rowAt s k (keep + 8 * e.2) 2
          backWeights (st.getD 0 0) (st.getD 1 0) (scores e.2 e.1)
        putRow k out ws s

/-! ### Convolution (06 R186 to R216) -/

/-- The weights of a layer: elements by output channel, vertical tap, horizontal tap and channel of the group, with a scale for each block
of 32 of those channels (notes/assumptions 113). -/
def weightAt (l : ConvLayer) (rd : Nat → Nat → Nat) (rdScale : Nat → Nat) (co i j c : Nat) : Nat × Nat :=
  let n := l.cin / l.groups
  let t := (co * l.v.k + i) * l.h.k + j
  let b := Elem.bits l.wgt * (t * n + c)
  (if l.wgtBlocked then rdScale (t * ceilDiv n 32 + c / 32) else 0x7F, (rd (b / 8) 4 >>> (b % 8)) % 2 ^ Elem.bits l.wgt)

/-- An element of a halo row's payload: elements by channel and column, then scales by channel block and column (notes/assumptions 115). -/
def rowElem (l : ConvLayer) (data c x : Nat) : Nat × Nat :=
  let n := planeBytes l.act (l.h.extent * l.cin)
  (if l.actBlocked then (data >>> (8 * (n + c / 32 * l.h.extent + x))) % 256 else 0x7F, elemAt l.act data (c * l.h.extent + x))

/-- The code of an output in a format, without a scale. -/
def outCode (k : Elem) (v : BitVec 32) : Nat := convert k v

/-- An output row of a channel as a core computes it: its own band from its store, rows beyond from the halo rows it holds; it waits for a
row that is missing (06 R196, Table 6-6 step 3). -/
def convRow (slot : Nat) (r : Req) (k j co oy x : Nat) (w : Plane) (out : Nat) (fmt : Elem) (s : State) : State :=
  match tget s.pats r.pattern with
  | none => s
  | some p =>
    match p.plan.conv[j]?, bandOf s r.pattern p.plan k j with
    | some l, some (a, n) =>
      let rows := rowsRead l oy
      let inBand := fun (y : Nat) => decide (a ≤ y ∧ y < a + n)
      if l.picot.isSome || decide (l.cout ≤ co) || !(outRows s r.pattern p.plan k j l).contains oy ||
          !(rows.all fun y => inBand y || (heldRow s r.pattern k j y).isSome) then s
      else
        let m : Image := { c := l.cin, h := n, w := l.h.extent, fmt := l.act, blocked := l.actBlocked }
        let rd := fun (base : Nat) (o n : Nat) => readBytes (coreOf s k).store (base + o) n
        let xs := fun (c y i : Nat) =>
          if inBand y then m.at (rd x) c (y - a) i else rowElem l (((heldRow s r.pattern k j y).map (·.data)).getD 0) c i
        let ws := weightAt l (rd w.elems) (fun o => rd w.scales o 1) co
        let o := (List.range (outExtent l.h)).map fun ox => outCode fmt (convOut l xs ws co oy ox)
        unitWrite slot r (.core k out) (planeBytes fmt o.length) (packElems fmt o) s
    | _, _ => s

/-- The picture that a request's first layer reads: the samples of its buffer within the conformance window, with range, matrix and siting of
the report or those the pattern declares (06 R212, R213, 07 R222). -/
def decodedFor (s : State) (r : Req) (full bt601 : Option Bool) : Option Decoded :=
  match r.picture with
  | none => none
  | some (ref, _) =>
    match findStream s (ref % 2 ^ 32) with
    | none => none
    | some (_, st) =>
      (bufferOf st (ref / 2 ^ 32)).map fun e =>
        let b := e.2
        let sample := fun (p y x : Nat) => poolSample st b p y x
        let wx := (b.window.extractLsb' 0 16).toNat
        let wy := (b.window.extractLsb' 16 16).toNat
        { luma := fun y x => sample 0 (wy + y) (wx + x)
          chroma := fun p y x => sample (p + 1) (wy / 2 + y) (wx / 2 + x)
          w := (b.window.extractLsb' 32 16).toNat, h := (b.window.extractLsb' 48 16).toNat
          ten := b.bits = 10, full := full.getD b.full
          bt601 := bt601.getD ((b.colour.toNat % 16) = 1), loc := b.colour.toNat / 16 % 4 }

/-- Output rows of a half's picot engine in a layer: those of its stripe, or all (06 R212). -/
def picotRows (s : State) (pi : Nat) (p : Plan) (h j : Nat) (l : ConvLayer) (oy : Nat) : Bool :=
  decide (oy < outExtent l.v) && ((planCores p h).any fun k => (outRows s pi p k j l).contains oy)

/-- Where a picot layer's output may go (06 Table 6-8). -/
def picotDest (s : State) (pi : Nat) (p : Plan) (j oy : Nat) (l : ConvLayer) (out : Place) : Bool :=
  match l.output, out with
  | .cores, .core k _ => (outRows s pi p k j l).contains oy
  | .lpddr, .lpddr _ _ => true
  | .buffer, .output _ => true
  | _, _ => false

/-- An output row of a channel on a half's picot engine: decoded planes are read in place from the pool, other tensors at `x` whole, planar or
interleaved (06 R187, R210 to R213). -/
def picotRow (slot : Nat) (r : Req) (h j co oy : Nat) (x w : Place) (scales : Nat) (out : Place) (fmt : Elem) (s : State) : State :=
  match tget s.pats r.pattern with
  | none => s
  | some p =>
    match p.plan.conv[j]? with
    | none => s
    | some l =>
      let m : Image := { c := l.cin, h := l.v.extent, w := l.h.extent, fmt := l.act, blocked := l.actBlocked }
      let rd := fun (o n : Nat) => readAt s (x.plus o) n
      let input : Option (Nat → Nat → Nat → Nat × Nat) := match l.input with
        | .planar => some fun c y i => m.at rd c y i
        | .interleaved k _ => some fun c y i =>
            let b := interleavedBit { m with fmt := k } c y i
            (0x7F, convert l.act (elemValue k ((rd (b / 8) 4 >>> (b % 8)) % 2 ^ Elem.bits k)))
        | .decoded mode full bt601 near => (decodedFor s r full bt601).map fun d => fun c y i => d.operand l mode near c y i
      match input with
      | none => s
      | some xs =>
        if l.picot.isNone || decide (l.cout ≤ co) || !picotRows s r.pattern p.plan h j l oy || !picotDest s r.pattern p.plan j oy l out then s
        else
          let ws := weightAt l (fun o n => readAt s (w.plus o) n) (fun o => readAt s (w.plus (scales + o)) 1) co
          let o := (List.range (outExtent l.h)).map fun ox => outCode fmt (convOut l xs ws co oy ox)
          let source := match l.input with
            | .planar => [(x, m.bytes)]
            | .interleaved k _ => [(x, ceilDiv (Elem.bits k * (m.c * m.h * m.w)) 8)]
            | .decoded .. => []
          let weights := planeBytes l.wgt (l.cout * l.v.k * l.h.k * (l.cin / l.groups))
          unitReads slot r ((w, weights) :: source) (unitWrite slot r out (planeBytes fmt o.length) (packElems fmt o)) s

/-- A core's DMA engine turns an interleaved input into planar layout (06 R187). -/
def planarCopy (slot : Nat) (r : Req) (k : Nat) (m : Image) (src dst : Nat) (s : State) : State :=
  if interleavedOk m.fmt false then
    unitWrite slot r (.core k dst) m.bytes (toPlanar m (readBytes (coreOf s k).store src (ceilDiv (Elem.bits m.fmt * (m.c * m.h * m.w)) 8))) s
  else s

/-- Argmax over the channels of a planar tensor on a picot engine (06 R216). -/
def argmaxOp (slot : Nat) (r : Req) (m : Image) (src dst : Place) (values : Option Place) (s : State) : State :=
  if !inRange 1 4096 m.c then s
  else
    unitReads slot r [(src, m.bytes)] (fun s =>
      let v := argmaxPlanes m fun o n => readAt s (src.plus o) n
      let s := unitWrite slot r dst (2 * (m.h * m.w)) v.1 s
      match values with
      | some d => unitWrite slot r d (4 * (m.h * m.w)) v.2 s
      | none => s) s

/-! ### Bias tables of the hub (05 R165, 11 R343, 14 R415) -/

/-- The test bias that the firmware image carries for a table. -/
def testTable (n : Nat) : List (BitVec 32) := (List.range 1024).map (Config.testBias n)

/-- Tables 2 to 15 are loaded with the test biases; one that holds +∞ or NaN is refused and stays as it was. -/
def loadTestBias (s : State) : State :=
  let load := fun (t : Tbl (List (BitVec 32))) (n : Nat) => if biasOk (testTable n) then tset t n (testTable n) else t
  { s with svc := { s.svc with bias := ((List.range 14).map (· + 2)).foldl load s.svc.bias } }

/-- A bias table of the hub: tables 0 and 1 are fixed (05 R165). -/
def biasTable (s : State) (n : Nat) : List (BitVec 32) :=
  if n = 0 then biasCausal else if n = 1 then biasFull else tgetD s.svc.bias n (List.replicate 1024 0)

/-! ### Running operations -/

/-- The store port of an operation: array staging goes before the vector unit, and that before DMA (04 R142). -/
def portOf : UnitOp → Nat
  | .loadTile .. | .pass .. | .swapTile .. | .clearEdge .. => 0
  | .copy .. | .hostRead .. | .atomic .. | .planar .. => 2
  | _ => 1

/-- The core or half an operation runs on is one of the request's, and the core runs (06 R205). -/
def opHere (s : State) (r : Req) (op : UnitOp) : Bool :=
  match op with
  | .copy k _ _ _ | .hostRead k _ _ _ | .loadTile k _ _ _ _ | .swapTile k _ | .clearEdge k _ _ | .pass k _ _ _ | .edgeRead k _ _ _ _
  | .vload k _ _ _ _ _ | .vstore k _ _ _ _ _ | .quantise k _ _ _ | .vec k _ _ _ _ _ _ _ | .reduce k _ _ _ _ _ | .smxStep k _ _ _ _ _
  | .smxFinal k _ _ _ | .atomic k _ _ _ _ | .kvWrite k _ _ _ _ | .attend k _ _ _ _ _ _ _ _ | .backward k _ _ _ _ _ _ _ _
  | .convRow k _ _ _ _ _ _ _ | .planar k _ _ _ _ _ _ => r.cores.contains k && (coreOf s k).halted.isNone
  | .picotRow h _ _ _ _ _ _ _ _ | .argmax h _ _ _ _ _ _ _ _ => patUses s r.pattern h

/-- One operation of a request. -/
def runOp (slot : Nat) (r : Req) (op : UnitOp) (s : State) : State :=
  match op with
  | .copy _ dst src n => unitReads slot r [(src, n)] (fun s => unitWrite slot r dst n (readAt s src n) s) s
  | .hostRead _ dst n data => unitWrite slot r dst n (data % 2 ^ (8 * n)) s
  | .loadTile k sub m f p => loadTile k sub m f p s
  | .swapTile k sub => swapTile k sub s
  | .clearEdge k first n => clearEdge k first n s
  | .pass k sub n p => arrayPass k sub n p s
  | .edgeRead k e lane reg int =>
    let g := tgetD (coreOf s k).edge e Edge.clear
    if lane < 1024 then setReg k lane reg (if int then g.int32 else g.fp32) s else s
  | .vload k lane n reg addr f =>
    setLanes k lane n reg (fun s i => elemValue f (elemAt f (readBytes (coreOf s k).store addr (planeBytes f n)) (i - lane))) s
  | .vstore k lane n reg addr f =>
    unitWrite slot r (.core k addr) (planeBytes f n) (packElems f ((lanesFrom lane n).map fun i => convert f (laneReg s k i reg))) s
  | .quantise k lane reg p =>
    let q := mxQuantise p.fmt ((lanesFrom lane 32).map fun i => laneReg s k i reg)
    unitWrite slot r (.core k p.scales) 1 q.1 (unitWrite slot r (.core k p.elems) (planeBytes p.fmt 32) (packElems p.fmt q.2) s)
  | .vec k lane n op d a b c => setLanes k lane n d (fun s i => op.eval (laneReg s k i a) (laneReg s k i b) (laneReg s k i c)) s
  | .reduce k lane n mx d a =>
    let l := (lanesFrom lane n).map fun i => laneReg s k i a
    if l.isEmpty then s else setReg k lane d (if mx then treeMax (treeDepth l.length) l else treeSum (treeDepth l.length) l) s
  | .smxStep k st sc n f first => smxRow k st sc n f first s
  | .smxFinal k st row n => putRow k row (smxFinal ((rowAt s k st 2).getD 1 0) (rowAt s k row n)) s
  | .atomic _ mx p mask x => atomicOp slot r mx p mask x s
  | .kvWrite k j ex pos addr => kvWrite slot r k j ex pos addr s
  | .attend k j head ex q0 rows q out keep => attend slot r k j head ex q0 rows q out keep s
  | .backward k j head ex q0 rows q keep out => backward slot r k j head ex q0 rows q keep out s
  | .convRow k j co oy x w out f => convRow slot r k j co oy x w out f s
  | .picotRow h j co oy x w sc out f => picotRow slot r h j co oy x w sc out f s
  | .planar k c h w f src dst => planarCopy slot r k { c := c, h := h, w := w, fmt := f, blocked := false } src dst s
  | .argmax _ c h w f b src dst v => argmaxOp slot r { c := c, h := h, w := w, fmt := f, blocked := b } src dst v s

/-- The units run an operation of a request: it runs on cores of its own, and its tenant's epoch is the one it was issued under (09 R288, R293
step 3). -/
def unitRuns (s : State) (r : Req) (op : UnitOp) : Bool :=
  coresClocked s && occupies r && !r.stopped && tenantActive s r.tenant && opHere s r op

/-- One operation of the request in a slot. -/
def runUnit (slot : Nat) (op : UnitOp) (s : State) : State :=
  match tget s.reqs slot with
  | none => s
  | some r => if unitRuns s r op then runOp slot r op s else s

/-- ARRAY_ACTIVE: the cycles that a group of operations keeps the array of a core taking vectors; sub-arrays take theirs together (14 Table
14-8). -/
def countActive (slot : Nat) (l : List UnitOp) (s : State) : State :=
  match tget s.reqs slot with
  | none => s
  | some r => (List.range 8).foldl (fun t k =>
      let mine := fun (op : UnitOp) => match op with | .pass j _ _ _ => j = k && unitRuns s r op | _ => false
      profile 0x0102 k (((l.filter mine).map (passCycles s)).foldl max 0) t) s

/-- What a request's units do in one cycle: the stores serve them in their fixed order (04 R142). -/
def runCycle (slot : Nat) (l : List UnitOp) (s : State) : State :=
  (sortBy (fun a b => decide (portOf a ≤ portOf b)) l).foldl (fun s op => runUnit slot op s) (countActive slot l s)

/-- The operations of a request's units, cycle by cycle. -/
def runUnits (slot : Nat) (ops : List (List UnitOp)) (s : State) : State := ops.foldl (fun s l => runCycle slot l s) s

end Sys2Proof.Machine
end

