-- ==== Sys2Proof/Machine/Requests.lean ====
section
/-! DEFINITION. The life of an admitted request: ready, dispatch, preemption, hems, results, fallbacks, retirement; budget windows and
slices (03 R75-R108, R113, R114, 05 R156-R159, R169-R177, R181-R185, 08 R266, R267, 10 R312). -/
namespace Sys2Proof.Machine

/-- A request changes state, mirrored to the partner (10 Table 10-6). -/
def setReqState (slot : Nat) (st : ReqState) (s : State) : State := tellReq slot (modReq slot (fun r => { r with st := st }) s)

/-! ### Ready (03 Table 3-3, 05 R157, R169, R181) -/

/-- An earlier request that satisfies a condition has no final reply. -/
def earlierLive (s : State) (r : Req) (f : Req → Bool) : Bool :=
  s.reqs.any fun e => decide (e.2.number < r.number) && liveState e.2.st && f e.2

/-- Every earlier request of the request's sequence is REPLIED, and the sequence is not in AWAITING_COMMIT (03 R79). -/
def seqClear (s : State) (r : Req) : Bool :=
  match r.seqIdx with
  | none => true
  | some i => !earlierLive s r (fun q => q.seqIdx == some i) &&
      (match tget s.seqs i with
        | some q => q.st != .awaitingCommit
        | none => false)

/-- ADAPT_STEPs of one appliqué run one at a time (05 R181). -/
def adaptClear (s : State) (r : Req) : Bool :=
  match r.adapt, r.applique with
  | some _, some (i, _) => !earlierLive s r (fun q => q.adapt.isSome && (q.applique.map (·.1)) == some i)
  | _, _ => true

/-- COMMITTED_LEN of a request's sequence. -/
def committedOf (s : State) (r : Req) : Nat := ((r.seqIdx.bind (tget s.seqs)).map (·.committed)).getD 0

/-- Pages a request needs beyond those its sequence has, in one layer (05 R154, R157, R158). -/
def layerPages (s : State) (slot : Nat) (r : Req) (j : Nat) (l : AttnLayer) : List PageUse :=
  let base := committedOf s r
  let len := r.inUnits + max r.genTokens r.cands
  match r.adapt, r.seqIdx with
  | some a, _ => (List.range (a.examples * ceilDiv a.maxLen (perPage l))).map (.scratch slot j)
  | none, none => (List.range (ceilDiv len (perPage l))).map (.scratch slot j)
  | none, some i =>
    let have_ := fun n => s.pages.any fun e => match e.2.use with
      | .kv k m p _ _ => k = i && m = j && p = n
      | _ => false
    let first := base / perPage l
    let pages := (List.range (ceilDiv (base + len) (perPage l) - first)).map (· + first)
    (pages.filter fun n => !have_ n).map fun n =>
      .kv i j n (decide (base + r.inUnits ≤ n * perPage l ∧ 0 < r.cands)) false

/-- Pages of a sequence in a half: its KV pages and those of its list (05 R155). -/
def seqPages (s : State) (i h : Nat) : Nat :=
  ownedPages s h fun p => match p.use with | .kv k _ _ _ _ => k = i | _ => false

def listPages (s : State) (i h : Nat) : Nat :=
  ownedPages s h fun p => match p.use with | .pageList k => k = i | _ => false

/-- Pages of the version that an ADAPT_STEP with APPLY is to create, in a half (03 R115, 05 R184, 09 R287). -/
def versionNeeds (s : State) (r : Req) (h : Nat) : List PageUse :=
  match r.adapt, r.applique with
  | some a, some (i, _) =>
    match tget s.apps i with
    | some x =>
      if a.apply then
        List.replicate (appPages s x x.bytes h - ownedPages s h fun p => versionPage i (x.current + 1) p.use)
          (.applique i (x.current + 1))
      else []
    | none => []
  | _, _ => []

/-- All pages a request must have reserved before it leaves ADMITTED, by half (05 R157). The page list has 8 bytes for each
page (05 R155). -/
def needPages (s : State) (slot : Nat) (r : Req) (h : Nat) : List PageUse :=
  let kv := ((layersOf s r.pattern).zipIdx.filter fun e => e.1.half = h).flatMap fun e => layerPages s slot r e.2 e.1
  match r.seqIdx with
  | none => kv ++ versionNeeds s r h
  | some i =>
    List.replicate (ceilDiv (8 * (seqPages s i h + kv.length)) 65536 - listPages s i h) (.pageList i) ++ kv

/-- Positions a sequence may hold (05 Table 5-1). -/
def maxPositions : Nat := 1048576

/-- Room for a request's pages in both halves. The manual refuses no request that would take a sequence past its largest length: its
positions cannot be reserved (DESIGN CHOICE, notes/assumptions 117). -/
def pagesRoom (s : State) (slot : Nat) (r : Req) : Bool :=
  (r.seqIdx.isNone || decide (committedOf s r + r.inUnits + max r.genTokens r.cands ≤ maxPositions)) && [0, 1].all fun h => decide ((needPages s slot r h).length ≤ freePages s h r.tenant)

/-- The halves of a request's pattern serve, and a recovery window lets it run (01 R18, 05 R169). -/
def halvesClear (s : State) (p : Pattern) : Bool :=
  [0, 1].all fun h => !usesHalf p h || (halfInService s h && (purelyCausal p || !(halfOf s h).window))

/-- A request under policy 1 or 2 whose cut-off has passed does no further work (03 R98). -/
def pastCutoff (s : State) (slot : Nat) (r : Req) : Bool :=
  r.hemPolicy != 0 && (match (tget s.sent.entries slot).bind (·.cutoff) with
    | some c => decide (c ≤ now s)
    | none => false)

/-- The conditions of 03 Table 3-3 for leaving ADMITTED. -/
def canLeaveAdmitted (s : State) (slot : Nat) (r : Req) : Bool :=
  (!r.ordered || earlierDone s r.ring r.order) && seqClear s r && adaptClear s r && !pastCutoff s slot r &&
    s.dev.state != .updating && !holdsCopy s && s.pair.switching.isNone && hubRuns s && !ending s &&
    (match tget s.pats r.pattern with
      | some p => p.sram && !p.leaving && halvesClear s p && (coreSets s p).any (setServes s)
      | none => false) && pagesRoom s slot r

/-- Slots of the requests that occupy a core of a set. -/
def occupants (s : State) (l : List Nat) : List (Nat × Req) := s.reqs.filter fun e => occupies e.2 && overlaps e.2.cores l

/-- `a` is preempted before `b`: lower class, then later deadline (03 R86). -/
def preemptFirst (a b : Nat × Req) : Bool :=
  if a.2.cls ≠ b.2.cls then decide (b.2.cls < a.2.cls) else tickLe b.2.deadline a.2.deadline

/-- A request that runs stops at its next tile boundary and keeps its state on its cores (03 R86). -/
def preemptOne (k : Nat) (r : Req) (s : State) : State :=
  if (tget s.reqs k).any (·.st == .running) then r.cores.foldl (fun s c => profile 0x0104 c 1 s) (setReqState k .preempted s) else s

/-- Several requests are preempted. -/
def preemptAll (l : List (Nat × Req)) (s : State) : State := l.foldl (fun s e => preemptOne e.1 e.2 s) s

/-- What dispatches a request: 0 the fast path, 1 to 4 the command processors (02 R49, 14 Table 14-8). -/
def dispatcher (r : Req) : Nat := if r.fast then 0 else 1 + r.ring % 4

/-- A PREEMPTED request of the class or a higher one keeps its state on a core of a set, where it resumes (03 R86). -/
def keptFor (s : State) (cls : Nat) (l : List Nat) : Bool :=
  s.reqs.any fun e => e.2.st == .preempted && decide (e.2.cls ≤ cls) && overlaps e.2.cores l

/-- Cores free for a request of a class: they serve, no request runs on them, and none of its class or a higher one waits PREEMPTED
there. -/
def setFree (s : State) (cls : Nat) (l : List Nat) : Bool :=
  setServes s l && (occupants s l).isEmpty && !keptFor s cls l

/-- What a request of a class preempts among the occupants of the cores it can run on: nothing where a set of cores is free; of
a REPLICATED pattern's copies the first of R86; else every occupant of a lower class. -/
def toPreempt (s : State) (cls : Nat) (sets : List (List Nat)) : List (Nat × Req) :=
  if sets.any (setFree s cls) then []
  else
    let open_ := sets.filter fun l => setServes s l && !keptFor s cls l
    let all := sortBy preemptFirst ((occupants s open_.flatten).filter fun e => decide (cls < e.2.cls) && e.2.st == .running)
    if sets.length ≤ 1 then all else all.take 1

/-- REQUEST_READY (03 R77, R86): pages are reserved, the request is QUEUED, and it preempts what R86 gives it. -/
def requestReady (slot : Nat) (s : State) : State :=
  match tget s.reqs slot with
  | none => s
  | some r =>
    if r.st = .admitted ∧ canLeaveAdmitted s slot r = true then
      let s := allocPages 1 r.tenant (needPages s slot r 1) (allocPages 0 r.tenant (needPages s slot r 0) s)
      let s := setReqState slot .queued s
      match tget s.pats r.pattern with
      | some p => preemptAll (toPreempt s r.cls (coreSets s p)) s
      | none => s
    else s

/-- Meaning of REQUEST_READY. -/
def execRequestReady (slot : Nat) (s : State) : Host.Outcome State Fault Refusal := .next (requestReady slot s)

/-! ### Dispatch (03 R85, R88, 05 R156) -/

/-- Cores take work. -/
def coresPowered (s : State) : Bool := coresClocked s && serving s && s.pair.switching.isNone

/-- `a` is dispatched before `b` (03 R85). -/
def dispatchBefore (a b : Req) : Bool :=
  if a.cls ≠ b.cls then decide (a.cls < b.cls)
  else if tickLt a.deadline b.deadline then true
  else if tickLt b.deadline a.deadline then false
  else decide (a.number < b.number)

/-- Every slot of a pattern's stages is EMPTY: no frame runs that has not been flushed (06 R202). -/
def stagesClear (s : State) (pi : Nat) : Bool := (s.stages.filter fun e => e.1 / 2 = pi).all fun e => e.2.began.isNone

/-- A QUEUED request that can run. -/
def dispatchable (s : State) (r : Req) : Bool :=
  r.st == .queued && !r.stopped && stagesClear s r.pattern && (match tget s.pats r.pattern with
    | some p => p.sram && !p.leaving && halvesClear s p
    | none => false)

/-- A queued request that needs the same cores goes first. -/
def outranked (s : State) (l : List Nat) (r : Req) : Bool :=
  s.reqs.any fun e => dispatchable s e.2 && dispatchBefore e.2 r && (match tget s.pats e.2.pattern with
    | some p => (coreSets s p).any fun m => overlaps m l
    | none => false)

/-- Attention on a pattern runs on the bias table path: its mask is purely causal, and a recovery window of a half it uses is open (05
R167). -/
def tablePath (s : State) (p : Pattern) : Bool :=
  purelyCausal p && [0, 1].any fun h => usesHalf p h && (halfOf s h).window

/-- The cores that run a request get table 0 where it takes the table path (05 R166), and the tree pricking of its candidates (05 R167,
R171). -/
def armCores (slot : Nat) (r : Req) (s : State) : State :=
  let parents := (r.verify.map (·.parents)).getD []
  let tree := (List.range parents.length).map fun i => BitVec.ofNat 64 (ancestors parents 64 i)
  let arm := fun (c : Core) =>
    { c with bias := if r.table then tset c.bias 0 (biasTable s 0) else c.bias, trees := if tree.isEmpty then c.trees else tset c.trees slot tree }
  r.cores.foldl (fun s k => modCore k arm s) s

/-- The layers of a pattern that take their pricking from the request, each with what host memory held at the offset the pattern declares
(05 Table 5-4): length and bytes. -/
def reqPricks (p : Pattern) (pricks : List (Nat × Nat)) : List ((AttnLayer × Nat) × Nat × Nat) :=
  let l := p.plan.attn.zipIdx.filter fun e => e.1.source == .request
  l.zipIdx.map fun e => (e.1, pricks.getD e.2 (0, 0))

/-- REQUEST prickings go to the pricking stores, or the first malformed one ends the request (05 R164, R169). -/
def takePricks (slot : Nat) (p : Pattern) (pi : Nat) (pricks : List (Nat × Nat)) (s : State) : State :=
  let l := reqPricks p pricks
  match l.find? fun e => !prickOk e.2.1 e.2.2 with
  | some e => endReq slot .integrityMismatch (0x8000 + e.1.1.offset) (modReq slot (fun r => { r with stopped := true }) s)
  | none => l.foldl (fun s e => modHalf e.1.1.half (fun x =>
      { x with pricks := x.pricks ++ [{ pattern := pi, slot := some slot, layer := e.1.2, bytes := e.2 }] }) s) s

/-- What a request kept in cores and pricking stores for its life is gone. -/
def dropHeld (slot : Nat) (s : State) : State :=
  { s with cores := s.cores.map fun c => { c with trees := tdel c.trees slot }
           halves := s.halves.map fun x => { x with pricks := x.pricks.filter fun y => y.slot != some slot } }

/-- A frame of a vision pattern begins with its request: every slot is EMPTY and every credit back (06 R202, Table 6-6 step 1). -/
def beginFrame (pi : Nat) (s : State) : State :=
  { s with stages := tmap s.stages fun k g => if k / 2 = pi then { g with began := some (now s), waited := [], waits := [], flushed := false } else g }

/-- BULK may run on the partner's cores: in ACTIVE/STANDBY, over a mirror link that is up (10 R308). -/
def lendable (s : State) (r : Req) : Bool := r.cls == 3 && s.pair.mode == .activeStandby && s.pair.linkUp

/-- The active places a BULK request on the standby's idle cores (10 R308): RUNNING, on none of its own. -/
def lendOut (slot : Nat) (r : Req) (p : Pattern) (s : State) : State :=
  if dispatchable s r && lendable s r && s.pair.role == .active && serving s && s.pair.switching.isNone && hubRuns s && decide (inFlight s < 1024) then
    let r' := { r with cores := [], lent := true, baseLen := committedOf s r, used := r.used + unitTokens p, ran := true, table := false, empties := 0 }
    traceReq 0x0100 (reqHandle r.gen slot) (profile 0x0105 (dispatcher r) 1 (setReqState slot .running (modReq slot (fun _ => r') s)))
  else s

/-- The standby runs work of the active on its own idle cores, against its own copy of the pattern (10 R308), on pages of its own. -/
def hostLent (slot : Nat) (r : Req) (p : Pattern) (pricks : List (Nat × Nat)) (s : State) : State :=
  if !(r.st == .admitted && lendable s r && coresPowered s && p.sram && !p.leaving && halvesClear s p && pagesRoom s slot r) then s
  else
    match (coreSets s p).find? (setFree s r.cls) with
    | none => s
    | some l =>
      let r' := { r with cores := l, lent := true, st := .running, baseLen := committedOf s r, table := tablePath s p, empties := 0 }
      let s := allocPages 1 r.tenant (needPages s slot r 1) (allocPages 0 r.tenant (needPages s slot r 0) s)
      takePricks slot p r.pattern pricks (armCores slot r' (modReq slot (fun _ => r') s))

/-- REQUEST_DISPATCH (03 R61, R85, R107, 05 R156, R164, R167): RUNNING on the first free set of cores. `lend`: the active has chosen to place
BULK work on the standby (10 R308; which it places is its choice, notes/assumptions 101). -/
def requestDispatch (slot : Nat) (pricks : List (Nat × Nat)) (lend : Bool) (s : State) : State :=
  match tget s.reqs slot with
  | none => s
  | some r =>
    match tget s.pats r.pattern with
    | none => s
    | some p =>
      if s.pair.role = .standby then (if lend then hostLent slot r p pricks s else s)
      else if lend then lendOut slot r p s
      else if !(dispatchable s r && coresPowered s && decide (inFlight s < 1024)) then s
      else
        match (coreSets s p).find? fun l => setFree s r.cls l && !outranked s l r with
        | none => s
        | some l =>
          let base := committedOf s r
          let r' := { r with cores := l, baseLen := base, used := r.used + unitTokens p, ran := true, table := tablePath s p, empties := 0 }
          let s := armCores slot r' (beginFrame r.pattern (modReq slot (fun _ => r') s))
          let s := match r.seqIdx with
            | some i => heatPages i base p.plan.attn s
            | none => s
          takePricks slot p r.pattern pricks <| traceReq 0x0100 (reqHandle r.gen slot) (profile 0x0105 (dispatcher r) 1 (setReqState slot .running s))

/-- Meaning of REQUEST_DISPATCH. -/
def execRequestDispatch (slot : Nat) (pricks : List (Nat × Nat)) (lend : Bool) (s : State) : Host.Outcome State Fault Refusal :=
  .next (requestDispatch slot pricks lend s)

/-- A request of a higher class waits for a core of a PREEMPTED one: QUEUED for it, or PREEMPTED on it in its turn (03 R85, R86). -/
def higherWaits (s : State) (r : Req) : Bool :=
  s.reqs.any fun e => decide (e.2.cls < r.cls) &&
    ((e.2.st == .preempted && overlaps e.2.cores r.cores) || (dispatchable s e.2 && (match tget s.pats e.2.pattern with
      | some p => (coreSets s p).any fun m => overlaps m r.cores
      | none => false)))

/-- REQUEST_RESUME (03 R86): a PREEMPTED request runs again on the same cores once nothing runs on them and no request of a higher
class waits for them. -/
def requestResume (slot : Nat) (s : State) : State :=
  match tget s.reqs slot with
  | none => s
  | some r =>
    if r.st = .preempted ∧ r.stopped = false ∧ setServes s r.cores = true ∧ coresPowered s = true ∧
        (occupants s r.cores).isEmpty = true ∧ higherWaits s r = false then setReqState slot .running s
    else s

/-- Meaning of REQUEST_RESUME. -/
def execRequestResume (slot : Nat) (s : State) : Host.Outcome State Fault Refusal := .next (requestResume slot s)

/-! ### Hems and results -/

/-- HEM_COMPLETE (03 R89, R98, R99): a hem head of the current run has run; the hub writes a deeper one into the sentinel's
entry. -/
def hemComplete (slot hem : Nat) (ops : List (List UnitOp)) (s : State) : State :=
  let s := runUnits slot ops s
  match tget s.reqs slot with
  | none => s
  | some r =>
    match tget s.pats r.pattern with
    | none => s
    | some p =>
      if r.st = .running ∧ holdsCopy s = false ∧ r.stopped = false ∧ r.hemPolicy ≠ 0 ∧ r.deepest < hem ∧ hem ≤ hemCount p ∧ coresClocked s = true then
        let s := modReq slot (fun r => { r with deepest := hem, used := r.used + hemTokens p }) s
        modEntry slot (fun e => { e with deepest := max e.deepest hem }) s
      else s

/-- Meaning of HEM_COMPLETE. -/
def execHemComplete (slot hem : Nat) (ops : List (List UnitOp)) (s : State) : Host.Outcome State Fault Refusal :=
  .next (hemComplete slot hem ops s)

/-- VERIFY_PASS_COMPLETE (05 R172, R173): VERIFYING, with the path a GREEDY pass accepts. -/
def verifyPass (slot : Nat) (rows : List (List (BitVec 32))) (ops : List (List UnitOp)) (s : State) : State :=
  let s := runUnits slot ops s
  match tget s.reqs slot with
  | none => s
  | some r =>
    match r.verify with
    | none => s
    | some v =>
      if r.st ≠ .running ∨ holdsCopy s = true ∨ r.stopped = true ∨ coresClocked s = false then s
      else
        let a := acceptFrom v.parents v.tokens rows 64 0xFF
        let v' := if v.greedy then { v with path := a.1, bonus := a.2, rows := rows } else { v with rows := rows }
        setReqState slot .verifying (modReq slot (fun r => { r with verify := some v' }) s)

/-- Meaning of VERIFY_PASS_COMPLETE. -/
def execVerifyPassComplete (slot : Nat) (rows : List (List (BitVec 32))) (ops : List (List UnitOp)) (s : State) :
    Host.Outcome State Fault Refusal := .next (verifyPass slot rows ops s)

/-- COMMITTED_LEN that DONE of a request gives its sequence (05 R159, R172, R173). -/
def lenAfter (r : Req) : Nat :=
  match r.verify with
  | none => r.baseLen + r.inUnits + r.genTokens
  | some v => r.baseLen + r.inUnits + (if v.greedy then v.path.length else 0)

/-- Pages that the commit of a REQ_VERIFY frees (05 R174, Table 5-9). -/
def freedAfter (s : State) (r : Req) : Nat :=
  match r.verify, r.seqIdx with
  | some v, some i => if v.greedy then trimCount i (lenAfter r) s else 0
  | _, _ => 0

/-- LEAF (05 Table 5-9). -/
def leafOf (v : Verify) : Nat := v.path.getLast?.getD 0xFF

/-- The first 64 bytes of a REQ_VERIFY output (05 Table 5-9), its reserved bytes free values (00 R6); a hem's output accepts nothing
(notes/assumptions 20). -/
def verifyHeader (s : State) (r : Req) (v : Verify) (hem : Bool) : Nat :=
  let accepted := if hem then 0 else v.path.length
  pack [(4, accepted), (1, if hem then 0xFF else leafOf v), (1, r.cands), (2, spare s 0), (4, if hem then 0xFFFFFFFF else v.bonus),
    (4, sat 32 r.empties), (4, if hem then r.baseLen else lenAfter r), (4, if hem then 0 else freedAfter s r),
    (8, spare s 1), (8, spare s 2), (8, spare s 3), (8, spare s 4), (8, spare s 5)]

/-- A row of FP32 values as it lies in memory. -/
def rowBytes (l : List (BitVec 32)) : Nat := pack (l.map fun x => (4, x.toNat))

/-- ROWS of a REQ_VERIFY output (05 Table 5-9, R173): the row of the last accepted node, or all N + 1, each of OUT_BYTES bytes. -/
def verifyRows (n : Nat) (v : Verify) : List (Nat × Nat) :=
  if v.greedy then [(n, rowBytes (v.rows.getD ((v.path.getLast?.map (· + 1)).getD 0) []))]
  else (List.range (v.tokens.length + 1)).map fun i => (n, rowBytes (v.rows.getD i []))

/-- The output of a request before sealing: its length and its bytes (03 R84, R98, 05 Tables 5-9, 5-13, R177). -/
def outputBytes (s : State) (r : Req) (p : Pattern) (w : WorkResult) (hem : Bool) : Nat × Nat :=
  let n := outBytesOf p
  match r.verify, r.adapt with
  | some v, _ =>
    let rows := if hem then [(n, w.data)] else verifyRows n v
    let l := (64, verifyHeader s r v hem) :: rows
    (packLen l, pack l)
  | none, some _ => (16, pack [(4, w.loss.toNat), (4, (norm32 w.grads).toNat), (4, w.positions), (4, sat 32 r.empties)])
  | none, none =>
    let len := if hem then n else min w.outBytes n
    (len, if p.plan.attn.isEmpty then w.data else pack [(n - 4, w.data), (4, sat 32 r.empties)])

/-- Output sealed for the tenant (03 Table 3-6). -/
def sealedOut (r : Req) : Bool := r.bufFlags.getLsbD 0

/-- The output as it lies in host memory, sealed where the request asks for it: its length and its bytes (09 R285). -/
def outputObject (s : State) (r : Req) (p : Pattern) (w : WorkResult) (hem : Bool) : Nat × Nat :=
  let o := outputBytes s r p w hem
  if sealedOut r then (o.1 + 32, sealedObject s r.tenant r.keyGen 1 r.tag r.seqNo o.1 o.2) else o

/-- The output of a request becomes visible, with its CRC-32C where asked for (03 R60, 08 R267, 09 R285). -/
def writeOutput (r : Req) (p : Pattern) (w : WorkResult) (hem : Bool) (s : State) : State :=
  let o := outputObject s r p w hem
  let s := writeHost r.outAddr o.1 o.2 s
  let s := if r.bufFlags.getLsbD 2 then writeHost (r.ioAddr + 0x1C) 4 (crc32c o.1 o.2) s else s
  let s := if sealedOut r then useNonce r.tenant r.keyGen s else s
  if r.verify.isSome then useSpares 6 s else s

/-- Output bytes of a DONE of a request without a fixed layout (03 R84). -/
def doneBytes (p : Pattern) (w : WorkResult) : Nat := min w.outBytes (outBytesOf p)

/-- DETAIL of DONE (03 R84, 05 R176, R185). -/
def doneDetail (s : State) (r : Req) (p : Pattern) (w : WorkResult) : Nat :=
  match r.verify, r.adapt with
  | some v, _ => (if v.greedy then v.path.length else 0) + (if v.greedy then leafOf v else 0xFF) * 2 ^ 8
      + sat 16 r.empties * 2 ^ 16
  | none, some a =>
    let dropped := match r.applique with
      | some (i, b) => ((tget s.apps i).map (·.tag)) != some b
      | none => true
    sat 16 r.empties + bit a.apply * 2 ^ 16 + bit dropped * 2 ^ 17
  | none, none => doneBytes p w + (if sealedOut r then 32 else 0)

/-- VALUE of DONE: for ADAPT_STEP the new version in place of the sequence (05 R185). -/
def doneValue (s : State) (slot : Nat) (r : Req) : BitVec 64 :=
  match r.adapt, r.applique with
  | some a, some (i, _) =>
    BitVec.ofNat 64 (reqHandle r.gen slot + (if a.apply then ((tget s.apps i).map fun x => x.current + 1).getD 0 else 0) * 2 ^ 32)
  | _, _ => reqValue s slot r

/-- REPLY_FLAGS of a result (02 Table 2-14, 05 R175, R177). -/
def resultFlags (r : Req) (hem : Bool) : BitVec 16 :=
  (if r.empties = 0 then 0 else 8) ||| (match r.verify with
    | some v => if v.greedy && !hem && decide (v.path.length < v.tokens.length) then 16 else 0
    | none => 0)

/-- KV records of the positions a DONE would commit (10 R312). -/
def tellKv (r : Req) (s : State) : State :=
  match r.seqIdx with
  | none => s
  | some i => (List.range (layersOf s r.pattern).length).foldl
      (fun s j => tell (.kv j r.baseLen (lenAfter r - r.baseLen) (kvData s i j r.baseLen (lenAfter r - r.baseLen) (sourceSlot r))) i r.order (some r.tenant) s) s

/-- Positions and generated tokens that a request's run counts in all (03 R107, 05 R176, R185). -/
def countable (r : Req) : Nat :=
  match r.adapt with
  | some a => a.examples * a.maxLen
  | none => r.inUnits + r.cands + r.genTokens

/-- USED counts `n` positions and generated tokens, never more than there are, and each once. -/
def countUse (n : Nat) (r : Req) : Req :=
  let m := min n (countable r)
  { r with used := r.used + (m - r.counted), counted := max m r.counted }

/-- A result whose input has passed its checks becomes a candidate: at once, or for a mirrored request once its RESULT record is
acknowledged (08 R266, 10 R312). -/
def submitResult (slot : Nat) (s : State) : State :=
  match tget s.reqs slot with
  | none => s
  | some r =>
    match r.result with
    | none => s
    | some (st, d, v, fl) =>
      if !liveState r.st || !r.inOk then s
      else
        let c := reqCand s slot r st d v fl false
        if r.mirror && mirroring s then
          let s := if st = .done then tellKv r s else s
          sendRecord (.result st d v (if st = .done then lenAfter r else r.baseLen)) slot r.order (some r.tenant) (some c) none none s
        else submit c s

/-- REQUEST_WORK_COMPLETE (03 R60, R84, R98, R107): the units' last operations, and the full result, its output visible. A request that must
seal its output under a generation without BUF_KEY ends with KEY_STALE (09 R286); the output of one whose tenant is being removed is dropped
(09 R293 step 3, R294). -/
def workComplete (slot : Nat) (w : WorkResult) (s : State) : State :=
  let s := modReq slot (fun r => if r.lent then { r with empties := w.empties } else r) (runUnits slot w.ops s)
  match tget s.reqs slot with
  | none => s
  | some r =>
    match tget s.pats r.pattern with
    | none => s
    | some p =>
      let due := if r.verify.isSome then r.st == .verifying else r.st == .running
      if !due || holdsCopy s || r.stopped || r.result.isSome || !coresClocked s || !tenantActive s r.tenant then s
      else
        match (if sealedOut r then sealFault s r.tenant r.keyGen else none) with
        | some (st, d) => endReq slot st d (modReq slot (fun r => { r with stopped := true }) s)
        | none =>
          let res := (Status.done, doneDetail s r p w, doneValue s slot r, resultFlags r false)
          let ad := r.adapt.map fun a => { a with grads := w.grads }
          let s := writeOutput r p w false s
          submitResult slot (modReq slot
            (fun r => { countUse (if r.adapt.isSome then w.positions else countable r) r with result := some res, adapt := ad }) s)

/-- Meaning of REQUEST_WORK_COMPLETE. -/
def execRequestWorkComplete (slot : Nat) (w : WorkResult) (s : State) : Host.Outcome State Fault Refusal :=
  .next (workComplete slot w s)

/-- IN_CRC_CHECK (08 R266, 09 R286): the last input byte has been read. A sealed input's generation and tag are checked, then
IN_CRC. -/
def inCrcCheck (slot : Nat) (crc : BitVec 32) (sealedGen : Nat) (tagOk : Bool) (s : State) : State :=
  match tget s.reqs slot with
  | none => s
  | some r =>
    if !liveState r.st || r.inOk || holdsCopy s || !hubRuns s then s
    else
      let stop := modReq slot (fun r => { r with stopped := true }) s
      match (if sealedOut r then sealedFault s r.tenant sealedGen 0 tagOk else none) with
      | some (st, d) => endReq slot st d stop
      | none =>
        if r.bufFlags.getLsbD 1 && crc != r.inCrc then endReq slot .integrityMismatch 0x800C stop
        else submitResult slot (modReq slot (fun r => { r with inOk := true }) s)

/-- Meaning of IN_CRC_CHECK. -/
def execInCrcCheck (slot : Nat) (crc : BitVec 32) (sealedGen : Nat) (tagOk : Bool) (s : State) :
    Host.Outcome State Fault Refusal := .next (inCrcCheck slot crc sealedGen tagOk s)

/-! ### The sentinel (03 R91, R95-R98) -/

/-- The sentinel can write: it is alive and SCLK runs. -/
def sentinelRuns (s : State) : Bool := s.sent.alive && s.clk.sclk

/-- FALLBACK_TICK (03 R91, R95, 08 R257): cause 1, with DEEPEST_HEM of the sentinel's entry. -/
def fallbackTick (slot : Nat) (s : State) : State :=
  match tget s.sent.entries slot with
  | none => s
  | some e =>
    match e.fallback with
    | none => s
    | some f =>
      if sentinelRuns s && armedEntry e && decide (f ≤ now s) then
        submit (sentinelCand s slot e .deadlineFallback (1 + e.deepest * 256) false) s
      else s

/-- Meaning of FALLBACK_TICK. -/
def execFallbackTick (slot : Nat) (s : State) : Host.Outcome State Fault Refusal := .next (fallbackTick slot s)

/-- The deepest hem of the current run that qualifies under the request's policy (03 R98). -/
def qualifies (r : Req) : Bool := decide (0 < r.deepest) && (r.hemPolicy != 2 || decide (r.minHem ≤ r.deepest))

/-- HEM_CUTOFF (03 R98): the work stops, and the deepest qualifying hem of the current run, if any, is the result. -/
def hemCutoff (slot : Nat) (w : WorkResult) (s : State) : State :=
  match tget s.reqs slot, tget s.sent.entries slot with
  | some r, some e =>
    match tget s.pats r.pattern with
    | none => s
    | some p =>
      let due := match e.cutoff with
        | some c => decide (c ≤ now s)
        | none => false
      if !(due && armedEntry e && r.hemPolicy != 0 && liveState r.st && !r.stopped && r.result.isNone && hubRuns s) then s
      else
        let ended := modReq slot (fun r => { r with stopped := true }) s
        if !(qualifies r && inFlightState r.st && tenantActive s r.tenant) then ended
        else
          match (if sealedOut r then sealFault s r.tenant r.keyGen else none) with
          | some (st, d) => endReq slot st d ended
          | none =>
            let res := (Status.doneAtHem, r.deepest, reqValue s slot r, resultFlags r true)
            submitResult slot (modReq slot (fun r => { r with stopped := true, result := some res }) (writeOutput r p w true s))
  | _, _ => s

/-- Meaning of HEM_CUTOFF. -/
def execHemCutoff (slot : Nat) (w : WorkResult) (s : State) : Host.Outcome State Fault Refusal := .next (hemCutoff slot w s)

/-- Nothing of the sweep is left at the arbiter. -/
def sweepDone (s : State) : Bool := !(s.arb.cands.any (·.sweep))

/-- Die power is cut and the module latches off (12 R380). -/
def cutPower (s : State) : State := { s with dev := { s.dev with on := false }, link := { s.link with up := false } }

/-- SWEEP_COMPLETE (03 R97, 02 R73, 11 R345, 12 R380): what followed the sweep takes place. -/
def sweepComplete (s : State) : State :=
  match s.sent.sweep with
  | none => s
  | some a =>
    if !sweepDone s then s
    else
      let s := { s with sent := { s.sent with sweep := none } }
      match a with
      | .nothing => s
      | .resetModule source => moduleReset source s
      | .cutHub => cutPower s

/-- Meaning of SWEEP_COMPLETE. -/
def execSweepComplete (s : State) : Host.Outcome State Fault Refusal := .next (sweepComplete s)

/-! ### Retirement (03 R77, R107, R108) -/

/-- REQUEST_UNITS_STOPPED (03 Table 3-3, R107): REPLIED becomes RETIRING. `ran` is how many positions have run their first layer, and
tokens been generated, where the request was cut short; one that never reached RUNNING used nothing. -/
def unitsStopped (slot ran : Nat) (s : State) : State :=
  match tget s.reqs slot with
  | none => s
  | some r =>
    if r.st ≠ .replied ∨ holdsCopy s = true ∨ hubRuns s = false then s
    else
      let full := (r.result.map (·.1)) == some .done
      setReqState slot .retiring (modReq slot (fun r => if r.ran && !full then countUse ran r else r) s)

/-- Meaning of REQUEST_UNITS_STOPPED. -/
def execRequestUnitsStopped (slot ran : Nat) (s : State) : Host.Outcome State Fault Refusal := .next (unitsStopped slot ran s)

/-- BALANCE after a reconciliation (03 R108): a rise does not take it above BURST_CAP, and only refills raise one that is
negative. -/
def reconcile (a : Account) (charged used : Nat) : Int :=
  let d : Int := (charged : Int) - used
  if d ≤ 0 then a.balance + d
  else if a.balance < 0 then a.balance
  else max a.balance (min (a.balance + d) a.fig.cap)

/-- The positions a sequence keeps: those committed, and the provisional ones that wait for REQ_COMMIT (05 R173). -/
def keptLen (q : Sequence) : Nat := max q.committed ((q.prov.map fun pr => pr.base + pr.parents.length).getD 0)

/-- The end of the positions that a request beyond ADMITTED has reserved (05 R157, R158); one that has its final reply needs none. -/
def reservedEnd (q : Sequence) (r : Req) : Nat :=
  if !liveState r.st then 0
  else (if r.st = .queued then q.committed else r.baseLen) + r.inUnits + max r.genTokens r.cands

/-- Pages a request leaves behind: scratch, and those beyond what its sequence keeps and other requests of it have reserved (05 R159,
R173); half store copies of one that did not commit are dropped. -/
def releasePages (slot : Nat) (r : Req) (s : State) : State :=
  let scratch := fun (u : PageUse) => match u with | .scratch k _ _ => k = slot | _ => false
  let s := dropHeld slot (freePagesOf scratch s)
  match r.seqIdx with
  | none => s
  | some i =>
    match tget s.seqs i with
    | none => s
    | some q =>
      let others := s.reqs.filter fun e => e.1 != slot && e.2.seqIdx == some i && e.2.st != .admitted
      let s := if others.any fun e => inFlightState e.2.st then s else coolPages i s
      trimSeq i (max (keptLen q) ((others.map fun e => reservedEnd q e.2).foldl max 0)) s

/-- An admission on an account has already been applied in this tick, so that no reconciliation of this tick can follow (03 R103). -/
def admittedThisTick (s : State) (i : Nat) : Bool := ((tget s.accts i).bind (·.lastAdmit)) == some (now s)

/-- REQUEST_RETIRED (03 R75, R103, R108, R116, 05 R184, 07 R235, 08 R257, 09 R297): reconciled after any refill that is due, released,
FREE, its generation advanced. One that comes after an admission of its tick waits for the next tick (notes/assumptions 50). -/
def requestRetired (slot : Nat) (s : State) : State :=
  match tget s.reqs slot with
  | none => s
  | some r =>
    if r.st ≠ .retiring ∨ holdsCopy s = true ∨ hubRuns s = false ∨ admittedThisTick s r.account = true then s
    else
      let s := budgetRefill r.account s
      let s := { s with accts := tmod s.accts r.account fun a => { a with balance := reconcile a r.charged r.used } }
      let s := releasePages slot r s
      let s := match r.picture with
        | some (ref, _) => holdPicture ref (· - 1) s
        | none => s
      let bal := ((tget s.accts r.account).map (·.balance)).getD 0
      let s := tell (.final (r.final.getD .done) bal (committedOf s r)) slot r.order (some r.tenant) s
      let s := { s with reqs := tdel s.reqs slot, reqGens := tset s.reqGens slot (nextGen 65535 r.gen) }
      let s := { s with sent := { s.sent with entries := tdel s.sent.entries slot } }
      let s := match r.applique with
        | some (i, _) => drainApplique i s
        | none => s
      retireKeys r.tenant s

/-- Meaning of REQUEST_RETIRED. -/
def execRequestRetired (slot : Nat) (s : State) : Host.Outcome State Fault Refusal := .next (requestRetired slot s)

/-- A request runs again from ADMITTED, keeping nothing of the hems and work of its earlier run (03 R98, 10 R325, 11 R356, 12
R379). -/
def backToAdmitted (slot : Nat) (s : State) : State :=
  match tget s.reqs slot with
  | none => s
  | some r =>
    let again := fun (r : Req) =>
      { r with deepest := 0, stopped := false, result := none, empties := 0, lent := false, inOk := !r.bufFlags.getLsbD 0 && !r.bufFlags.getLsbD 1 }
    setReqState slot .admitted (releasePages slot r (modReq slot again s))

/-! ### Budgets and slices -/

/-- Meaning of BUDGET_REFILL. -/
def execBudgetRefill (account : Nat) (s : State) : Host.Outcome State Fault Refusal := .next (budgetRefill account s)

/-- Meaning of SLICE_START. -/
def execSliceStart (s : State) : Host.Outcome State Fault Refusal := .next (sliceStart s)

/-- Meaning of PATTERN_SRAM_RELEASE. -/
def execPatternSramRelease (pattern : Nat) (s : State) : Host.Outcome State Fault Refusal := .next (sramRelease pattern s)

end Sys2Proof.Machine
end

