-- ==== Sys2Proof/Machine/Outage.lean ====
section
/-! DEFINITION. What withdraws parts of the module from service: DYING and pair modes, halted cores, reset and faulted halves, channels
out of service (01 R16-R18, 02 R72, 08 R253, R254, 10 R298, R317, R318, R322, R330, 12 R379). -/
namespace Sys2Proof.Machine

/-! ### Halyard frames (10 Tables 10-8, 10-9) -/

/-- HB_FLAGS. -/
def hbFlags (s : State) : Nat :=
  bit s.pair.dyingSent.isSome + bit s.pair.handover * 2 + roleCode s.pair.role * 4

/-- Bytes followed by their CRC-32C. -/
def withCrc (n v : Nat) : Nat := v % 2 ^ (8 * n) + crc32c n v * 2 ^ (8 * n)

/-- A Halyard A frame. -/
def frameA (s : State) : BitVec 256 :=
  BitVec.ofNat 256 (withCrc 28 (pack [(1, 1), (1, hbFlags s), (1, s.pair.dyingSent.getD 0), (1, modeCode s.pair.mode),
    (4, s.pair.pairId.toNat), (8, now s), (8, s.pair.progress), (4, 0)]))

/-- A Halyard B frame. -/
def frameB (s : State) : BitVec 128 :=
  BitVec.ofNat 128 (withCrc 12 (pack [(1, hbFlags s), (1, s.pair.dyingSent.getD 0), (2, s.pair.pairId.toNat),
    (4, s.pair.progress), (4, now s)]))

/-- A frame on each halyard: A while the mirror link is up and powered, B while SCLK runs (01 R23, 10 R318, 12 R380, 13 R399,
R405). -/
def sendFrames (cutsShort : Bool) (s : State) : State :=
  if !s.clk.sclk then s
  else
    let a := s.pair.linkUp && opticsOn s
    emit (.halyardB (frameB s) cutsShort) (if a then emit (.halyardA (frameA s)) s else s)

/-- BULK work placed on the partner, or here for the partner, returns to ADMITTED (10 R308, R325 step 6). -/
def shedOne (k : Nat) (s : State) : State :=
  if (tget s.reqs k).any fun r => r.lent && liveState r.st then backToAdmitted k s else s

/-- All of it returns. -/
def shedLent (s : State) : State := (s.reqs.map Prod.fst).foldl (fun s k => shedOne k s) s

/-- Mode and role change, and PAIR_CHANGE reports a change of Table 10-2 (10 R298). Outside ACTIVE/STANDBY no work is lent (R308). -/
def setMode (m : PairMode) (r : Role) (s : State) : State :=
  let t := modPair (fun p => { p with mode := m, role := r }) s
  let t := if m = .activeStandby then t else shedLent t
  if s.pair.mode = m ∧ s.pair.role = r then t else postEvent 4 (modeCode m) 0 0 .done t

/-- Candidates for requests left to the partner are withdrawn: no final reply is written for them any more (10 R322). -/
def leaveMirrored (s : State) : State :=
  let keep := fun (c : Cand) => match c.target with
    | .req slot => !((tget s.reqs slot).map (·.mirror)).getD false
    | .cmd _ => true
  settleCancels { s with arb := { s.arb with cands := s.arb.cands.filter keep } }

/-! ### Waits for the partner (10 R304, R312, R313) -/

/-- A FENCE_SIGNAL whose FENCE record is acknowledged takes effect. -/
def signalNow (cid i gen : Nat) (s : State) : State :=
  match tget s.cmds cid, tget s.fences i with
  | some c, some f =>
    if f.gen ≠ gen then refuse cid .badParam 20 s
    else
      let v := fenceAfter (le c.pkt 24 1) f.value (BitVec.ofNat 64 (le c.pkt 32 8))
      done cid 0 v (setFence i v s)
  | some _, none => refuse cid .badParam 20 s
  | none, _ => s

/-- What an acknowledgement releases: a held result, a fence update, a FENCE_SIGNAL. -/
def releaseAck (u : Unacked) (s : State) : State :=
  let s := match u.onAck with
    | some c => submit { c with tick := arrival s c.queue } s
    | none => s
  match u.fence, u.cid with
  | some (i, g, _), some cid => signalNow cid i g s
  | some (f, q, _), none => updateFence (BitVec.ofNat 32 f) (BitVec.ofNat 32 q) .done s
  | none, _ => s

/-- A module that no longer mirrors waits for nothing. -/
def releaseWaits (s : State) : State :=
  let us := s.pair.unacked
  let ws := s.pair.awaiting
  let s := us.foldl (fun s u => releaseAck u s) (modPair (fun p => { p with unacked := [], awaiting := [] }) s)
  ws.foldl (fun s w => submit { w.2 with tick := arrival s w.2.queue } s) s

/-- DYING (10 R318, R322, 12 R383): a bound module that has not signalled it yet records the cause, leaves its mirrored requests
to a partner that can take over, and reports DEGRADED with ROLE none. The first cause stays. -/
def signalDying (cause : Nat) (s : State) : State :=
  if !bound s || s.pair.dyingSent.isSome then s
  else
    let leaving := s.pair.role = .active ∧ s.pair.mode = .activeStandby
    let s := modPair (fun p => { p with dyingSent := some cause, leaves := leaving, copies := holdsCopy s }) s
    let s := sendFrames true s
    let s := if leaving then leaveMirrored s else s
    releaseWaits (bobPost 0x1A 0x0018 cause (setMode .degraded .none s))

/-! ### Cores (12 R379, 06 R205) -/

/-- Requests at work on a core. -/
def atWorkOn (s : State) (k : Nat) : List (Nat × Req) :=
  s.reqs.filter fun e => inFlightState e.2.st && e.2.cores.contains k

/-- The reduced plan a stage should run: that for its first halted core (06 R205). -/
def reducedFor (s : State) (pi h : Nat) : Option Nat :=
  ((tget s.pats pi).map fun p => p.plan.cores.find? fun k => halfOfCore k = h && (coreOf s k).halted.isSome).getD none

/-- Stages of patterns at rest take the plan that fits the cores now; others at the next frame boundary (06 R205). -/
def replanIdle (s : State) : State :=
  let f := fun (k : Nat) (g : Stage) =>
    match tget s.pats (k / 2) with
    | some p => if patBusy s (k / 2) || g.began.isSome then g else withPlan p.plan (k % 2) (reducedFor s (k / 2) (k % 2)) g
    | none => g
  { s with stages := tmap s.stages f }

/-- A core halts (12 R379): its other work returns to ADMITTED or migrates; its stages' frames end through their deadlines. -/
def haltCore (k : Nat) (cause : HaltCause) (s : State) : State :=
  let work := atWorkOn s k
  let s := modCore k (fun c => { c with halted := some cause, below := none }) s
  let s := work.foldl (fun s e =>
    match tget s.pats e.2.pattern with
    | some p => if banded p || e.2.result.isSome || e.2.stopped then s else backToAdmitted e.1 s
    | none => s) s
  refreshThrottled (replanIdle (migrateParts s))

/-- A core serves again (12 R379). -/
def serveCore (k : Nat) (s : State) : State :=
  refreshThrottled (replanIdle (modCore k (fun c => { c with halted := none, below := none }) s))

/-! ### Users of a half -/

/-- Live requests against patterns that use a half. -/
def halfReqs (s : State) (h : Nat) : List Nat := liveReqs s fun r => patUses s r.pattern h

/-- Commands at work on patterns that use a half: staging, pinning, and with `evict` also evictions. -/
def patternCmds (s : State) (h : Nat) (evict : Bool) : List Nat :=
  (s.pats.filter fun e => usesHalf e.2 h).flatMap fun e =>
    (e.2.staging.toList ++ e.2.loading.toList ++ if evict then e.2.evicting.toList else [])

/-- The command loading an appliqué. -/
def loaderOf (a : Applique) : Option Nat :=
  match a.place with
  | some (.cmd c) => if a.loading then some c else none
  | _ => none

/-- Commands loading appliqués of patterns that use a half. -/
def loadCmds (s : State) (h : Nat) : List Nat :=
  (s.apps.filter fun e => patUses s e.2.pattern h).filterMap fun e => loaderOf e.2

/-- Pattern and appliqué commands at work on a half end; what they wrote is given up (02 R72, 08 R253). -/
def endHalfCmds (h : Nat) (evict : Bool) (st : Status) (d : Nat) (s : State) : State :=
  let cids := patternCmds s h evict ++ loadCmds s h
  let loads := (s.apps.filter fun e => patUses s e.2.pattern h && e.2.loading).map Prod.fst
  let stop := fun (p : Pattern) =>
    { p with staging := none, loading := none, evicting := if evict then none else p.evicting }
  let s := { s with pats := tmap s.pats fun _ p => if usesHalf p h then stop p else p }
  refuseAll cids st d (loads.foldl (fun s i => dropLoad i s) s)

/-- Feeds and frames whose stream or encoder has its pool in a half end. -/
def endHalfVideo (h : Nat) (st : Status) (d : Nat) (s : State) : State :=
  let feed := fun (e : Nat × Cmd) => opcodeOf e.2.pkt = 0x0302 && le e.2.pkt 32 4 != 0 && e.2.phase != .replied &&
    (findStream s (le e.2.pkt 20 4)).any fun x => x.2.half = h
  let feeds := (s.cmds.filter feed).map Prod.fst
  let frames := (s.encs.filter fun e => e.2.half = h).flatMap fun e => e.2.frames.map (·.cid)
  let idx := (s.streams.filter fun e => e.2.half = h).map Prod.fst
  let s := refuseAll ((feeds ++ frames).filter fun c => (tget s.cmds c).any fun x => x.phase != .replied) st d s
  { s with engines := s.engines.filter fun e => !idx.contains e.2.stream }

/-! ### RESET_UNIT at HALF scope (02 R72) -/

/-- Resident patterns of a half return to the staged tier. -/
def unreside (p : Pattern) : Pattern := { p with res := .none, sram := false, leaving := false, want := none, migrated := [] }

def resetHalf (h cid : Nat) (s : State) : State :=
  let s := stopReqs (halfReqs s h) .cancelled 4 s
  let s := endHalfCmds h false .cancelled 4 s
  let s := dropStages (fun k => patUses s k h) s
  let s := { s with pats := tmap s.pats fun _ p => if usesHalf p h then unreside p else p }
  rotate (modHalf h (fun x => { x with heldBy := some cid, store := [], hot := [], diagonal := [], pricks := [] }) s)

/-! ### Closing streams and encoders (07 R236) -/

/-- A stream closes: its marks but HELD_BY_VISION go, and with `cancel` its feeds that have not begun end. -/
def closeStream (i cid : Nat) (cancel : Bool) (s : State) : State :=
  match tget s.streams i with
  | none => s
  | some st =>
    let running := (s.engines.filter fun e => e.2.stream = i).map fun e => e.2.cid
    let clear := fun (b : Buf) => { b with shortRef := false, longRef := false, outPend := false }
    let s := modStream i (fun x => { x with closing := some cid, bufs := x.bufs.map clear, slots := List.replicate 8 none }) s
    if cancel then
      refuseAll (st.feeds.filter fun c => !running.contains c && (tget s.cmds c).any fun x => x.phase == .begun && x.aux == [])
        .cancelled 3 s
    else s

/-- An encoder closes; with `cancel` its frames end that its engine has not begun. -/
def closeEncoder (i cid : Nat) (cancel : Bool) (s : State) : State :=
  match tget s.encs i with
  | none => s
  | some e =>
    let waiting := (e.frames.map (·.cid)).filter fun c =>
      ((tget s.cmds c).any fun x => x.phase == .begun) && encodingNow s e.engine != some c
    let s := { s with encs := tset s.encs i { e with closing := some cid } }
    finishEncoder i (if cancel then refuseAll waiting .cancelled 3 s else s)

/-! ### Channels leaving service (08 R253, R254) -/

/-- An appliqué is released with what holds it lost (08 R253 step 3). -/
def lostApplique (i : Nat) (s : State) : State :=
  match tget s.apps i with
  | none => s
  | some a =>
    let s := freePagesOf (appPage i) { s with apps := tdel s.apps i, appGens := tset s.appGens i (nextGen 62 a.gen) }
    if a.current = 0 then s else postEvent 1 (appObject a i) 1 (BitVec.ofNat 64 a.current) .done s

/-- A pattern returns to the stored tier, its appliqués released. -/
def lostPattern (pi : Nat) (s : State) : State :=
  let mine := fun (u : PageUse) => match u with | .pattern k => k = pi | _ => false
  let s := ((s.apps.filter fun e => e.2.pattern = pi).map Prod.fst).foldl (fun s i => lostApplique i s) s
  dropStages (· == pi) (freePagesOf mine (modPat pi unstage s))

/-- A sequence is BROKEN, unless it is closing (05 Table 5-2). Provisional entries of one in AWAITING_COMMIT stay until SEQ_CLOSE discards them
(DESIGN CHOICE, notes/assumptions 116: R161 does not say; R175 has SEQ_CLOSE report them). -/
def breakSeq (i : Nat) (s : State) : State :=
  match tget s.seqs i with
  | none => s
  | some q => if q.st = .closing then s
      else tellSeq i (modSeq i (fun q => { q with st := .broken }) s)

/-- Sequences with pages in a half. -/
def halfSeqs (s : State) (h : Nat) : List Nat :=
  (s.seqs.filter fun e => decide (0 < seqPages s e.1 h)).map Prod.fst

/-- Streams and encoders with their pools in a half. -/
def halfStreams (s : State) (h : Nat) : List Nat := (s.streams.filter fun e => e.2.half = h && e.2.closing.isNone).map Prod.fst
def halfEncs (s : State) (h : Nat) : List Nat := (s.encs.filter fun e => e.2.half = h && e.2.closing.isNone).map Prod.fst

/-! ### Half faults (01 R16, R18, Table 1-5, 10 R322, R330) -/

/-- Everything held in a half is lost: stores and registers of its cores, its half store, its channels, pages, sequences' entries,
pools, and the patterns and appliqués that use it. DESIGN CHOICE (notes/assumptions 72): a sequence with pages there is BROKEN, its
streams and encoders close, and APPLIQUE_DRAINED reports each appliqué, as when a channel leaves (08 R253). -/
def loseHalf (h : Nat) (s : State) : State :=
  let s := (halfSeqs s h).foldl (fun s i => breakSeq i s) s
  let gone := (s.pats.filter fun e => usesHalf e.2 h && (e.2.staged || resident e.2)).map Prod.fst
  let s := gone.foldl (fun s i => lostPattern i s) s
  let s := (halfStreams s h).foldl (fun s i => closeStream i 0 true s) s
  let s := (halfEncs s h).foldl (fun s i => closeEncoder i 0 true s) s
  let s := (List.range 4).foldl (fun s k => modCore (4 * h + k) Core.wiped s) s
  let keep := fun (i : Nat) => decide (i / 64 ≠ h) && s.mem.inService.getLsbD i
  { modHalf h (fun x => { x with store := [], hot := [], diagonal := [], pricks := [], window := false }) s with
    pages := s.pages.filter fun e => decide (e.1 / 2 ^ 21 ≠ h)
    mem := { s.mem with data := s.mem.data.filter fun e => decide (e.1 / 2 ^ 37 ≠ h), inService := BitVec.ofNat 128 (((List.range 128).filter keep).map (2 ^ ·)).sum } }

/-- A half fault: the summary bit is set, requests and commands that need the half end, what it held is lost, and DEVICE_STATE
becomes DEGRADED while serving. -/
def halfFault (h : Nat) (s : State) : State :=
  if (halfOf s h).faulted then s
  else
    let s := signalDying 6 s
    let s := setHealth (5 + h) true (modHalf h (fun x => { x with faulted := true }) s)
    let s := stopReqs (halfReqs s h) .stateLost 4 s
    let s := endHalfVideo h .stateLost 4 (endHalfCmds h false .stateLost 4 s)
    rotate (refreshService (loseHalf h s))

/-- A channel (0 to 127) leaves service: the half's LPDDR4X contents are lost, the steps of R253 in order, and a half fault beyond 8 channels
(08 R254). -/
def channelLeaves (ch : Nat) (s : State) : State :=
  if !s.mem.inService.getLsbD ch then s
  else
    let h := ch / 64
    let d := dataDetail 6 h (ch % 64)
    let s := signalDying 6 s
    let s := bobPost (0x0A + h) 0x0011 ch
      { s with mem := { s.mem with inService := s.mem.inService &&& ~~~ BitVec.twoPow 128 ch
                                   data := s.mem.data.filter fun e => decide (e.1 / 2 ^ 37 ≠ h) } }
    let s := stopReqs (halfReqs s h) .dataError d s
    let s := endHalfVideo h .dataError d (endHalfCmds h true .dataError d s)
    let s := (halfSeqs s h).foldl (fun s i => breakSeq i s) s
    let gone := (s.pats.filter fun e => usesHalf e.2 h && (e.2.staged || resident e.2)).map Prod.fst
    let s := gone.foldl (fun s i => lostPattern i s) s
    let s := (halfStreams s h).foldl (fun s i => closeStream i 0 true s) s
    let s := (halfEncs s h).foldl (fun s i => closeEncoder i 0 true s) s
    let s := rotate (refreshService (modHalf h (fun x => { x with rebuilding := true }) s))
    if channelsIn s h < 56 then halfFault h s else s

end Sys2Proof.Machine
end

