-- ==== Sys2Proof/Machine/Admin.lean ====
section
/-! DEFINITION. The admin commands: NOP, IDENTIFY, GET_HEALTH, configuration, rings, accounts, RESET_UNIT and SHUTDOWN (02 R41, R48-R51,
R68-R74, 11 R349, 14 R423). -/
namespace Sys2Proof.Machine

/-! ### NOP, IDENTIFY, GET_HEALTH -/

/-- NOP (02 R68). -/
def nop (cid : Nat) (s : State) : State := runCmd cid 0x0001 (fun _ s => done cid 0 (BitVec.ofNat 64 (now s)) s) s

/-- Meaning of NOP. -/
def execNop (cid : Nat) (s : State) : Host.Outcome State Fault Refusal := .next (nop cid s)

/-- IDENTIFY (02 Tables 2-28, 2-29). -/
def identify (cid : Nat) (s : State) : State :=
  runCmd cid 0x0002 (fun c s =>
    done cid 0 (BitVec.ofNat 64 (fwVersion s)) (useSpares 1 (writeFields (le c.pkt 24 8) (identity s) s))) s

/-- Meaning of IDENTIFY. -/
def execIdentify (cid : Nat) (s : State) : Host.Outcome State Fault Refusal := .next (identify cid s)

/-- GET_HEALTH (02 Table 2-28, 14 R423). -/
def getHealth (cid : Nat) (s : State) : State :=
  runCmd cid 0x0003 (fun c s =>
    finish cid .done 0 (BitVec.ofNat 64 (healthWord s)) (coarsened s) .none
      (useSpares 6 (writeFields (le c.pkt 24 8) (healthRecord s c.tenant) s))) s

/-- Meaning of GET_HEALTH. -/
def execGetHealth (cid : Nat) (s : State) : Host.Outcome State Fault Refusal := .next (getHealth cid s)

/-! ### Configuration (02 R69, R70, 11 R360, R363) -/

/-- SET_CONFIG (02 R69). -/
def setConfig (cid : Nat) (s : State) : State :=
  runCmd cid 0x0004 (fun c s =>
    done cid 0 0 { s with cfg := { s.cfg with staged := tset s.cfg.staged (le c.pkt 20 2) (le c.pkt 24 8) } }) s

/-- Meaning of SET_CONFIG. -/
def execSetConfig (cid : Nat) (s : State) : Host.Outcome State Fault Refusal := .next (setConfig cid s)

/-- Items of a copy with staged values over them. -/
def withStaged (items staged : Tbl Nat) : Tbl Nat := staged.foldl (fun t e => tset t e.1 e.2) items

/-- The copy that CONFIG_COMMIT writes three times: the stored items, in the running image's format, with the staged values
(02 R70, 11 R360, R363). -/
def committedCopy (s : State) : CfgCopy :=
  match s.nor.copies.head? with
  | some (.valid f n items) =>
    .valid s.dev.format ((n + 1) % 2 ^ 64) (withStaged (if f = s.dev.format then items else itemsOf s.cfg.live) s.cfg.staged)
  | _ => .valid s.dev.format 1 (withStaged (itemsOf s.cfg.live) s.cfg.staged)

/-- CONFIG_COMMIT (02 R70): the three copies are written and the previous ones erased; the values apply from its reply. -/
def configCommit (cid : Nat) (s : State) : State :=
  runCmd cid 0x0005 (fun _ s =>
    let c := committedCopy s
    finish cid .done 0 0 0 .applyConfig
      { s with nor := { s.nor with copies := [c, c, c], previous := [.blank, .blank, .blank] },
               cfg := { s.cfg with staged := [] } }) s

/-- Meaning of CONFIG_COMMIT. -/
def execConfigCommit (cid : Nat) (s : State) : Host.Outcome State Fault Refusal := .next (configCommit cid s)

/-! ### Rings (02 R41, R48-R51) -/

/-- Further faults of RING_CREATE: a tenant that does not exist, an account not set. -/
def ringFaults (c : Cmd) (s : State) : List Nat :=
  (if tenantActive s (le c.pkt 34 1 % 8) then [] else [34]) ++ (if (tget s.accts (le c.pkt 36 2 % 4096)).isSome then [] else [36])

/-- The ring that a RING_CREATE packet describes. -/
def ringOf (p : Packet) : Ring :=
  { st := .active, base := le p 24 8, sizeLog2 := le p 32 1, cls := le p 33 1, tenant := some (le p 34 1 % 8),
    account := le p 36 2 % 4096, queue := le p 38 2 % 2048, fast := p.getLsbD 280,
    headAddr := if p.getLsbD 281 then some (le p 40 8) else none, fetched := 0, visible := 0, pending := false, stamps := [],
    destroyers := [], partnerUpTo := 0 }

/-- Rings created with FAST set (02 R49). -/
def fastRings (s : State) : Nat := (s.rings.filter fun e => e.2.fast).length

/-- RING_CREATE (02 R48, R49, Table 2-20); `desc` is what the module read of the queue's descriptor, where it had to. -/
def ringCreate (cid : Nat) (desc : BitVec 256) (s : State) : State :=
  runCmdWith cid 0x0006 ringFaults (fun c s =>
    let n := le c.pkt 20 4
    let r := ringOf c.pkt
    if (tget s.rings n).isSome then refuse cid .badState 0 s
    else if ((tget s.accts r.account).map (·.tenant)) != r.tenant then refuse cid .accessDenied 2 s
    else if r.fast && decide (65536 ≤ fastRings s) then refuse cid .busy 0 s
    else
      match bindQueue r.queue desc s with
      | none => refuse cid .badParam 38 s
      | some s => done cid 0 0 { s with rings := tset s.rings n r }) s

/-- Meaning of RING_CREATE. -/
def execRingCreate (cid : Nat) (desc : BitVec 256) (s : State) : Host.Outcome State Fault Refusal := .next (ringCreate cid desc s)

/-- RING_DESTROY (02 R51): fetching stops at once; the reply waits for RING_DESTROY_COMPLETE. -/
def ringDestroy (cid : Nat) (s : State) : State :=
  runCmd cid 0x0007 (fun c s =>
    let n := le c.pkt 20 4
    match tget s.rings n with
    | none => refuse cid .badState 0 s
    | some r =>
      let r' : Ring := { r with st := .destroying, pending := false, destroyers := r.destroyers ++ [cid] }
      begun cid [n] (releaseReads n { s with rings := tset s.rings n r' })) s

/-- Meaning of RING_DESTROY. -/
def execRingDestroy (cid : Nat) (s : State) : Host.Outcome State Fault Refusal := .next (ringDestroy cid s)

/-- Every command fetched from a ring has its final reply written. -/
def ringQuiet (s : State) (n : Nat) : Bool :=
  !(s.cmds.any fun e => e.2.ring = n) && !(s.reqs.any fun e => e.2.ring = n && liveState e.2.st)

/-- A ring becomes FREE; its queue is unbound with its last ring, queue 0 excepted (02 R41). -/
def freeRing (n : Nat) (s : State) : State :=
  match tget s.rings n with
  | none => s
  | some r =>
    let rings := tdel s.rings n
    let used := r.queue = 0 || rings.any fun e => e.2.queue = r.queue
    { s with rings := rings, queues := if used then s.queues else tdel s.queues r.queue }

/-- RING_DESTROY_COMPLETE (02 R51). -/
def ringDestroyed (n : Nat) (s : State) : State :=
  match tget s.rings n with
  | none => s
  | some r =>
    if r.st = .destroying ∧ ringQuiet s n = true then r.destroyers.foldl (fun s c => done c 0 0 s) (freeRing n s) else s

/-- Meaning of RING_DESTROY_COMPLETE. -/
def execRingDestroyComplete (ring : Nat) (s : State) : Host.Outcome State Fault Refusal := .next (ringDestroyed ring s)

/-! ### Accounts (02 R71, 03 R101, R102) -/

/-- Further faults of ACCOUNT_SET: DELETE of an account that is not set, a tenant that is not ACTIVE. -/
def accountFaults (c : Cmd) (s : State) : List Nat :=
  (if c.pkt.getLsbD 184 && (tget s.accts (le c.pkt 20 2 % 4096)).isNone then [20] else []) ++
    (if tenantActive s (le c.pkt 22 1 % 8) then [] else [22])

/-- The figures of an ACCOUNT_SET packet. -/
def figuresOf (p : Packet) : Figures :=
  { refill := le p 24 4, cap := le p 28 4, reserve := le p 32 4, windowMs := le p 36 2 }

/-- A new account at its first tick (03 R101, R102). -/
def newAccount (s : State) (t : Nat) (f : Figures) : Account :=
  { tenant := t, fig := f, pending := none, balance := min f.refill f.cap, window := now s, lastAdmit := none }

/-- ACCOUNT_SET (02 R71). -/
def accountSet (cid : Nat) (s : State) : State :=
  runCmdWith cid 0x0008 accountFaults (fun c s =>
    let i := le c.pkt 20 2 % 4096
    let t := le c.pkt 22 1 % 8
    match tget s.accts i with
    | none => done cid 0 0 { s with accts := tset s.accts i (newAccount s t (figuresOf c.pkt)) }
    | some a =>
      if a.tenant ≠ t then refuse cid .accessDenied 2 s
      else if c.pkt.getLsbD 184 then
        if s.rings.any fun e => e.1 != 0 && e.2.account = i then refuse cid .busy 0 s
        else done cid 0 0 { s with accts := tdel s.accts i }
      else done cid 0 0 { s with accts := tset s.accts i { a with pending := some (figuresOf c.pkt) } }) s

/-- Meaning of ACCOUNT_SET. -/
def execAccountSet (cid : Nat) (s : State) : Host.Outcome State Fault Refusal := .next (accountSet cid s)

/-! ### RESET_UNIT (02 R72, R73, 11 R349) -/

/-- The scope of a RESET_UNIT that has been fetched and may begin. -/
def resetScope (s : State) (cid : Nat) : Option Nat := (begins s cid 0x0009).map fun c => le c.pkt 20 1

/-- A RESET_UNIT of a scope runs; a scope beyond CORE is refused by whichever row meets it. -/
def runReset (cid scope : Nat) (f : Cmd → State → State) (s : State) : State :=
  match resetScope s cid with
  | none => s
  | some x =>
    if x ≠ scope ∧ x ≤ 2 then s
    else
      match guarded cid 0x0009 (fun p => le p 20 1 = 0) s with
      | some (st, d) => refuse cid st d s
      | none => runCmd cid 0x0009 f s

/-- RESET_UNIT at module scope in HALF-MAST lets one more start be tried, and after CONFIG_DIVERGED rewrites the
configuration with the defaults (11 R349, R362). -/
def halfMastReset (s : State) : State :=
  if s.dev.state ≠ .halfMast then s
  else
    let d : CfgCopy := .valid 1 0 []
    let n := s.nor
    { s with nor := { n with startFails := 2, copies := if n.lastReason = .configDiverged then [d, d, d] else n.copies } }

/-- RESET_UNIT_MODULE (02 R73, 10 R322): DONE first; the sweep and the reset follow its acceptance. -/
def resetModuleCmd (cid : Nat) (s : State) : State :=
  runReset cid 0 (fun _ s => finish cid .done 0 0 0 (.resetModule 2) (halfMastReset (signalDying 8 s))) s

/-- Meaning of RESET_UNIT_MODULE. -/
def execResetUnitModule (cid : Nat) (s : State) : Host.Outcome State Fault Refusal := .next (resetModuleCmd cid s)

/-- RESET_UNIT_HALF (02 R72); a half that another RESET_UNIT holds is waited for (notes/assumptions 23). -/
def resetHalfCmd (cid : Nat) (s : State) : State :=
  runReset cid 1 (fun c s =>
    let h := le c.pkt 21 1
    if (halfOf s h).heldBy.isSome then s else begun cid [1, h] (resetHalf h cid s)) s

/-- Meaning of RESET_UNIT_HALF. -/
def execResetUnitHalf (cid : Nat) (s : State) : Host.Outcome State Fault Refusal := .next (resetHalfCmd cid s)

/-- RESET_UNIT_CORE (02 R72): the requests using the core end, and it is withdrawn. A core halted for another cause stays
halted for it (notes/assumptions 23). -/
def resetCoreCmd (cid : Nat) (s : State) : State :=
  runReset cid 2 (fun c s =>
    let k := le c.pkt 21 1
    let s := stopReqs ((atWorkOn s k).map Prod.fst) .cancelled 4 s
    begun cid [2, k] (if (coreOf s k).halted.isNone then haltCore k (.reset cid) s else s)) s

/-- Meaning of RESET_UNIT_CORE. -/
def execResetUnitCore (cid : Nat) (s : State) : Host.Outcome State Fault Refusal := .next (resetCoreCmd cid s)

/-- The reset half is let go; its pricking stores are rebuilt in a recovery window (05 R169). -/
def releaseHalf (h cid : Nat) (s : State) : State :=
  if (halfOf s h).heldBy = some cid then modHalf h (fun x => { x with heldBy := none, window := true }) s else s

/-- RESET_UNIT_COMPLETE (02 R72): DONE when the unit serves again. -/
def resetDone (cid : Nat) (s : State) : State :=
  match inProgress s cid 0x0009 with
  | none => s
  | some c =>
    match c.aux with
    | [1, h] =>
      let s := releaseHalf h cid s
      if halfInService s h then done cid 0 0 s else s
    | [2, k] =>
      let s := if (coreOf s k).halted = some (.reset cid) then serveCore k s else s
      if (coreOf s k).halted.isNone then done cid 0 0 s else s
    | _ => s

/-- Meaning of RESET_UNIT_COMPLETE. -/
def execResetUnitComplete (cid : Nat) (s : State) : Host.Outcome State Fault Refusal := .next (resetDone cid s)

/-! ### SHUTDOWN (02 R74) -/

/-- Admission stops; with `abort` each admitted request ends with CANCELLED (02 R74). -/
def beginStop (by_ : StopBy) (abort : Bool) (s : State) : State :=
  let s := modDev (fun d => { d with stopping := some by_ }) (signalDying 7 s)
  if abort then endReqs (liveReqs s fun _ => true) .cancelled 5 s else s

/-- SHUTDOWN (02 R74). -/
def shutdownCmd (cid : Nat) (s : State) : State :=
  if stopping s || s.dev.state == .shutdown then
    match begins s cid 0x000A with
    | some _ => refuse cid .badState (stateCode .shutdown) s
    | none => s
  else runCmd cid 0x000A (fun c s => beginStop (.cmd cid) (le c.pkt 20 1 = 1) (begun cid [] s)) s

/-- Meaning of SHUTDOWN. -/
def execShutdown (cid : Nat) (s : State) : Host.Outcome State Fault Refusal := .next (shutdownCmd cid s)

/-- Requests left to the partner do not hold back the end (10 R322). -/
def stopQuiet (s : State) (cid : Nat) : Bool :=
  (liveReqs s fun r => !leftToPartner s r.mirror).isEmpty && !(s.cmds.any fun e => e.1 != cid) && s.reads.isEmpty &&
    !(s.reqs.any fun e => inFlightState e.2.st && !leftToPartner s e.2.mirror)

/-- SHUTDOWN_COMPLETE (02 R74, 13 R387): every admitted request has its final reply and nothing is in flight. A flow shutdown ends
by its drain (12 R382), an entry to D3hot by the change of state (13 R393). -/
def shutdownDone (s : State) : State :=
  match s.dev.stopping with
  | some (.cmd cid) => if stopQuiet s cid && (inProgress s cid 0x000A).isSome then finish cid .done 0 0 0 .endShutdown s else s
  | some .latch => if stopQuiet s 0 then modDev (fun d => { d with stopping := none }) (setDevState .shutdown s) else s
  | _ => s

/-- Meaning of SHUTDOWN_COMPLETE. -/
def execShutdownComplete (s : State) : Host.Outcome State Fault Refusal := .next (shutdownDone s)

end Sys2Proof.Machine
end

