-- ==== Sys2Proof/Machine/Arbiter.lean ====
section
/-! DEFINITION. The reply arbiter: acceptance of final replies and events, and what follows from it (02 R42, R45, R46, R63, 03 R92,
R93, 13 R394). -/
namespace Sys2Proof.Machine

/-- Candidates for the same final reply. -/
def sameTarget (a b : Cand) : Bool := a.target == b.target && a.gen = b.gen

/-- The waiting candidates of 03 R93: those that arrived in the tick of the first, and, where the first is a sweep's, all that
wait for its handle, which stay eligible until the sweep reaches it (03 R96). -/
def rivals (c : Cand) (l : List Cand) : List Cand :=
  l.filter fun d => sameTarget c d && (d.tick = c.tick || c.sweep)

/-- The first in the order of 03 Table 3-8 among rivals. -/
def bestOf (c : Cand) : List Cand → Cand
  | [] => c
  | d :: t => let b := bestOf c t
    if candRank d.status ≤ candRank b.status then d else b

/-- A reply goes into the queue's next slot: its bytes, the tail word, then any message (02 R42). -/
def writeReply (q : Nat) (bytes : BitVec 256) (event : Bool) (s : State) : State :=
  match tget s.queues q with
  | none => s
  | some x =>
    let x' : RQueue :=
      { x with tail := x.tail + 1, unread := x.unread ++ [event], lastTick := some (now s),
               reserved := if event then x.reserved else x.reserved - 1 }
    let s := { s with queues := tset s.queues q x' }
    let s := emit (.tailWord x.tailAddr (x.tail + 1)) (emit (.reply q (x.tail % 2 ^ x.sizeLog2) (withReserved q x.tail bytes)) s)
    if x.msix then sendMsix x.vector s else s

/-- A reply accepted while Bus Master Enable is 0 is discarded and recorded (13 R394). -/
def discardReply (q : Nat) (event : Bool) (s : State) : State :=
  let drop := fun (x : RQueue) =>
    { x with lastTick := some (now s), reserved := if event then x.reserved else x.reserved - 1 }
  bobPost 0x10 0x0007 q { s with queues := tmod s.queues q drop }

/-- Tallies of final replies (14 Table 14-8); DATA_ERROR by the SOURCE of its DETAIL (08 Table 8-7), which the video causes of 07
R228 leave 0. -/
def countReply (t : Option Nat) (st : Status) (detail : Nat) (s : State) : State :=
  match st with
  | .dataError => if detail / 2 ^ 28 = 0 then s else tally (0x0010 + detail / 2 ^ 28) 0 1 s
  | .deadlineFallback => tally 0x0002 (t.getD 0) 1 s
  | .doneAtHem => tally 0x0003 (t.getD 0) 1 s
  | .budgetExhausted => tally 0x0004 (t.getD 0) 1 s
  | .integrityMismatch => tally 0x0020 0 1 s
  | _ => s

/-- A reply the sentinel wrote counts; HUB_STALL is set while the hub's clocks have stopped (02 Table 2-9). -/
def countSentinel (c : Cand) (s : State) : State :=
  if c.sweep || c.status == .deadlineFallback then
    { s with sent := { s.sent with fallbacks := min (s.sent.fallbacks + 1) 0xFFFFFFFF,
                                   hubStall := s.sent.hubStall || !s.clk.syspll || s.pair.wedged } }
  else s

/-- A sequence in CLOSING keeps no provisional entries: the reply to its SEQ_CLOSE says that some were discarded (05 R175). -/
def discardClosing (i : Nat) (s : State) : State :=
  match (tget s.seqs i).bind (·.closer) with
  | some cid => modCmd cid (fun c => { c with aux := c.aux.set 1 1 }) s
  | none => s

/-- The pending entries of an accepted DONE commit (05 R159, R172, R173). -/
def commitDone (slot : Nat) (r : Req) (s : State) : State :=
  match r.seqIdx with
  | none => s
  | some i =>
    match r.verify with
    | none => tellSeq i (settlePages i (r.baseLen + r.inUnits + r.genTokens)
        (commitSeq i (r.baseLen + r.inUnits + r.genTokens) s))
    | some v =>
      let base := r.baseLen + r.inUnits
      if v.greedy then
        let len := base + v.path.length
        tellSeq i (trimSeq i len (settlePages i len (commitSeq i len (moveEntries i base v.path s))))
      else
        let pr : Provisional := { base := base, parents := v.parents, slot := slot, gen := r.gen }
        let wait := fun (q : Sequence) =>
          if q.st = .open then { q with st := .awaitingCommit, prov := some pr } else q
        tellSeq i (settlePages i base (modSeq i wait (commitSeq i base (discardClosing i s))))

/-- What acceptance of a request's DONE brings about besides the reply; any other status releases what it held (05 R183, R184). -/
def requestEffects (slot : Nat) (r : Req) (st : Status) (s : State) : State :=
  let s := if st = .done then commitDone slot r s else s
  match r.adapt, r.applique with
  | some a, some (i, v) => if st = .done then adaptDone a i v s else releasePlace (.req slot) i s
  | _, _ => s

/-- The fence of an accepted final reply: at once, or, while records are mirrored, once the FINAL record is acknowledged
(02 R63, 10 R313). -/
def replyFence (f : Option (BitVec 32)) (seqNo : BitVec 32) (st : Status) (s : State) : State :=
  match f with
  | none => s
  | some f =>
    if mirroring s then
      if f.getLsbD 18 && !succeeds st then s
      else
        let note := fun (l : List Unacked) => match l.reverse with
          | u :: t => (({ u with fence := some (f.toNat, seqNo.toNat, 0) } : Unacked) :: t).reverse
          | [] => []
        modPair (fun p => { p with unacked := note p.unacked }) s
    else updateFence f seqNo st s

/-- Acceptance of a request's final reply: FINAL is set, the entry disarmed, the request REPLIED (03 R77, R92). -/
def finalRequest (slot : Nat) (r : Req) (c : Cand) (written : Bool) (s : State) : State :=
  let s := modReq slot (fun r => { r with final := some c.status, st := .replied }) s
  let s := modEntry slot (fun e => { e with final := true, armed := false }) s
  let s := requestEffects slot r c.status s
  let s := tell (.final c.status (((tget s.accts r.account).map (·.balance)).getD 0)
    ((r.seqIdx.bind fun i => (tget s.seqs i).map (·.committed)).getD 0)) slot r.order (some r.tenant) s
  let s := if written then replyFence r.fence r.seqNo c.status s else s
  let s := settleCancels (countCancel c.act s)
  traceReq 0x0101 (reqHandle r.gen slot) (countReply (some r.tenant) c.status c.detail (countSentinel c s))

/-- CONFIG_COMMIT's values apply from its reply, as the stored copies now hold them (02 R70). -/
def applyConfig (s : State) : State :=
  match s.nor.copies.head? with
  | some (.valid _ _ items) => { s with cfg := { s.cfg with live := cfgOfItems items } }
  | _ => s

/-- KEY_ROTATE's generation is current from its reply (09 R295). -/
def keyCurrent (t : Nat) (s : State) : State :=
  let turn := fun (x : Tenant) => match x.next with
    | some g => { x with prev := x.cur, cur := some g, next := none, keyless := g.bufKey.isNone && x.keyless }
    | none => x
  retireKeys t { s with tenants := tmod s.tenants t turn }

/-- Requests fetched and not yet admitted have no sentinel entry; R73's sweep cancels them as well (notes/assumptions 107). -/
def cancelUnadmitted (s : State) : State :=
  let l := s.cmds.filter fun e => isReqOp (opcodeOf e.2.pkt) && e.2.phase != .replied
  l.foldl (fun s e => submit { cmdCand s e.1 e.2 .cancelled 4 0 0 .none with sweep := true }
    (modCmd e.1 (fun c => { c with phase := .replied }) s)) s

/-- What acceptance of another command's final reply brings about. -/
def onAccept (a : OnAccept) (s : State) : State :=
  match a with
  | .none => s
  | .applyConfig => applyConfig s
  | .appliqueCurrent i => replaceCurrent i s
  | .keyCurrent t => keyCurrent t s
  | .resetModule source => cancelUnadmitted (sweep .cancelled 4 (.resetModule source) s)
  | .cancelled _ => s
  | .endShutdown => { setDevState .shutdown s with dev := { (setDevState .shutdown s).dev with stopping := none } }

/-- A version place held by a command whose reply brings no new version is released with that reply (03 R117). -/
def placeAccepted (cid : Nat) (st : Status) (s : State) : State :=
  if succeeds st then s
  else ((s.apps.filter fun e => e.2.place == some (.cmd cid)).map Prod.fst).foldl (fun s i => releasePlace (.cmd cid) i s) s

/-- Acceptance of another command's final reply. -/
def finalCommand (cid : Nat) (k : Cmd) (c : Cand) (written : Bool) (s : State) : State :=
  let s := placeAccepted cid c.status (videoAccepted cid k { s with cmds := tdel s.cmds cid })
  let s := if k.ring ≠ 0 then
      tell (.command (opcodeOf k.pkt) c.tag c.seqNo true) k.ring k.order k.tenant s else s
  let s := if written ∧ signals k.pkt = true then replyFence (some (fenceOf k.pkt)) c.seqNo c.status s else s
  let s := match k.tenant with
    | some t => retireKeys t s
    | none => s
  onAccept c.act (countReply k.tenant c.status c.detail s)

/-- A candidate is accepted: the reply leaves, or is discarded, and its handle is final; the handle's other candidates are
discarded, counted where they carried a result (03 R92). -/
def acceptCand (c : Cand) (s : State) : State :=
  let lost := (s.arb.cands.filter fun d => sameTarget c d).erase c
  let s := { s with arb := { s.arb with cands := s.arb.cands.filter fun d => !sameTarget c d } }
  let written := s.link.busMaster
  let s := if written then
      writeReply c.queue (replyBits c.tag c.seqNo c.status c.flags c.detail c.value (now s)) false s
    else discardReply c.queue false s
  match c.target with
  | .cmd cid =>
    match tget s.cmds cid with
    | some k => finalCommand cid k c written s
    | none => s
  | .req slot =>
    match tget s.reqs slot with
    | some r => finalRequest slot r c written (tally 0x0001 r.tenant (lost.countP fun d => succeeds d.status) s)
    | none => s

/-- The first waiting event is accepted for queue 0 (02 R45). -/
def acceptEvent (s : State) : State :=
  match s.arb.events with
  | [] => s
  | e :: rest =>
    let s := { s with arb := { s.arb with events := rest } }
    if s.link.busMaster then writeReply 0 (eventBits e (now s)) true s else discardReply 0 true s

/-- REPLY_ACCEPT: at most one reply per queue per tick; in queue 0 replies to commands go before events (02 R45). -/
def replyAccept (q : Nat) (s : State) : State :=
  match tget s.queues q with
  | none => s
  | some x =>
    if hubOn s = false ∨ looped s 0 0 = true ∨ x.lastTick = some (now s) then s
    else
      match s.arb.cands.find? fun c => c.queue = q with
      | some c => acceptCand (bestOf c (rivals c s.arb.cands)) s
      | none => if q = 0 then acceptEvent s else s

/-- Meaning of REPLY_ACCEPT. -/
def execReplyAccept (queue : Nat) (s : State) : Host.Outcome State Fault Refusal := .next (replyAccept queue s)

/-- Held events move to the event slots while there is room (02 R46). -/
def drainEvents : Nat → State → State
  | 0, s => s
  | n + 1, s =>
    match s.arb.backlog with
    | [] => s
    | e :: rest =>
      if eventRoom s then
        drainEvents n { s with arb := { s.arb with events := s.arb.events ++ [e], backlog := rest } }
      else s

/-- EVENT_BACKLOG_DRAIN (02 R46): the held events, and then one EVENTS_LOST with the number discarded. -/
def backlogDrain (s : State) : State :=
  refreshBacklog (postLost (drainEvents s.arb.backlog.length s))

/-- Meaning of EVENT_BACKLOG_DRAIN. -/
def execEventBacklogDrain (s : State) : Host.Outcome State Fault Refusal := .next (backlogDrain s)

end Sys2Proof.Machine
end

