-- ==== Sys2Proof/Machine/Firmware.lean ====
section
/-! DEFINITION. Firmware slots, their verification, activation and trials, and configuration formats (11 R350-R359, R363). -/
namespace Sys2Proof.Machine

/-! ### Slot states (11 Table 11-5) -/

/-- Every block below BLOCKS is written. -/
def slotComplete (sl : FwSlot) : Bool :=
  factoryImage sl || (List.range (min (fwBlocks sl) 769)).all fun b => (tget sl.blocks b).isSome

/-- The slot in service, none in HALF-MAST. -/
def runningSlot (s : State) : Option Nat := if s.dev.state = .halfMast then none else some s.dev.activeSlot

/-- STATE of a slot (11 Table 11-5; the order among states that both hold is notes/assumptions 31). -/
def slotState (s : State) (i : Nat) : Nat :=
  let sl := slotOf s i
  if runningSlot s = some i then 4
  else if factoryImage sl then 3
  else if (tget sl.blocks 0).isNone then 0
  else if !slotComplete sl then 1
  else if !rootTrusted s sl || !notRolledBack s sl then 5
  else if sl.verified then 3
  else 2

/-- A slot changes. -/
def modSlot (i : Nat) (f : FwSlot → FwSlot) (s : State) : State :=
  modNor (fun n => if i = 0 then { n with slotA := f n.slotA } else { n with slotB := f n.slotB }) s

/-! ### Activation record (11 Table 11-6) -/

/-- AR_FLAGS. -/
def arFlags (a : ActRecord) : Nat := bit a.trial + bit a.aFailed * 2 + bit a.bFailed * 4

/-- The record is written with the next RECORD_SEQ. -/
def writeRecord (f : ActRecord → ActRecord) (s : State) : State :=
  let old : ActRecord := s.nor.act.getD { seqNo := 0, slot := 0, trial := false, aFailed := false, bFailed := false }
  let r := f old
  modNor (fun n => { n with act := some { r with seqNo := (old.seqNo + 1) % 2 ^ 32 } }) s

/-- The TRIAL_FAILED bit of a slot. -/
def trialFailed (i : Nat) (v : Bool) (a : ActRecord) : ActRecord :=
  if i = 0 then { a with aFailed := v } else { a with bFailed := v }

/-- The slot a command's SLOT names (11 Table 11-7). -/
def slotNamed (s : State) (code : Nat) : Nat :=
  if code = 1 then 0
  else if code = 2 then 1
  else
    match runningSlot s with
    | some r => 1 - r
    | none => match s.nor.act with
      | some a => 1 - a.slot
      | none => 1

/-! ### FW_WRITE_BLOCK (11 R352) -/

/-- Blocks of a slot after one is erased for writing: block 0 takes every other with it. -/
def eraseBlock (b : Nat) (l : Tbl (Nat × BitVec 32)) : Tbl (Nat × BitVec 32) := if b = 0 then [] else tdel l b

/-- FW_WRITE_BLOCK: the block has been read; `aux` holds slot, block and bytes while it is written. -/
def fwWriteBlock (cid data : Nat) (s : State) : State :=
  runCmd cid 0x0701 (fun c s =>
    let i := slotNamed s (le c.pkt 20 1)
    let b := le c.pkt 24 4
    let sl := slotOf s i
    if runningSlot s = some i then refuse cid .badState 22 s
    else if b ≠ 0 ∧ (tget sl.blocks 0).isNone = true then refuse cid .badState 25 s
    else if sl.busy.isSome then refuse cid .busy 12 s
    else if crc32c 65536 data ≠ le c.pkt 36 4 then
      refuse cid .fwCheckFail b (modSlot i (fun x => { x with blocks := tdel x.blocks b, verified := false }) s)
    else
      begun cid [i, b, data % 2 ^ 524288]
        (modSlot i (fun x => { x with blocks := eraseBlock b x.blocks, verified := false, busy := some cid }) s)) s

/-- Meaning of FW_WRITE_BLOCK. -/
def execFwWriteBlock (cid data : Nat) (s : State) : Host.Outcome State Fault Refusal := .next (fwWriteBlock cid data s)

/-- FW_BLOCK_WRITTEN (11 R352): the block is there; the slot's TRIAL_FAILED bit clears (11 R359). -/
def fwBlockWritten (cid : Nat) (s : State) : State :=
  match inProgress s cid 0x0701 with
  | none => s
  | some c =>
    match c.aux with
    | [i, b, data] =>
      let put := fun (x : FwSlot) =>
        { x with blocks := tset x.blocks b (data, BitVec.ofNat 32 (le c.pkt 36 4)), busy := none }
      let s := modSlot i put s
      let s := match s.nor.act with
        | some a => if (if i = 0 then a.aFailed else a.bFailed) then writeRecord (trialFailed i false) s else s
        | none => s
      done cid 0 (BitVec.ofNat 64 (slotOf s i).blocks.length) s
    | _ => s

/-- Meaning of FW_BLOCK_WRITTEN. -/
def execFwBlockWritten (cid : Nat) (s : State) : Host.Outcome State Fault Refusal := .next (fwBlockWritten cid s)

/-! ### FW_VERIFY (11 R353) -/

/-- FW_VERIFY begins, unless another FW_ command acts on the slot (11 Table 11-12, BUSY 12; notes/assumptions 84). -/
def fwVerify (cid : Nat) (s : State) : State :=
  runCmd cid 0x0702 (fun c s =>
    let i := slotNamed s (le c.pkt 20 1)
    if (slotOf s i).busy.isSome then refuse cid .busy 12 s
    else begun cid [i] (modSlot i (fun x => { x with busy := some cid }) s)) s

/-- Meaning of FW_VERIFY. -/
def execFwVerify (cid : Nat) (s : State) : Host.Outcome State Fault Refusal := .next (fwVerify cid s)

/-- FW_VERIFY_COMPLETE: the checks of R350 give the reply; on DONE the slot is VERIFIED. -/
def fwVerified (cid : Nat) (s : State) : State :=
  match inProgress s cid 0x0702 with
  | none => s
  | some c =>
    let i := c.aux.headD 0
    let sl := slotOf s i
    let free := fun (x : FwSlot) => { x with busy := if x.busy = some cid then none else x.busy }
    match slotFault s sl with
    | some (st, d) => refuse cid st d (modSlot i (fun x => { free x with verified := false }) s)
    | none => done cid 0 (BitVec.ofNat 64 (fwHeader sl 8 8)) (modSlot i (fun x => { free x with verified := true }) s)

/-- Meaning of FW_VERIFY_COMPLETE. -/
def execFwVerifyComplete (cid : Nat) (s : State) : Host.Outcome State Fault Refusal := .next (fwVerified cid s)

/-! ### FW_ACTIVATE (11 R354-R357) -/

/-- MODE is taken as FULL. -/
def fullActivation (s : State) (p : Packet) : Bool := le p 21 1 = 1 || bound s || s.dev.state == .halfMast

/-- Commands that block a KEEP activation: groups 0x01, 0x05 other than ATTEST_QUOTE, 0x06, FW_WRITE_BLOCK and FW_VERIFY. -/
def blocksKeep (s : State) : Bool :=
  s.cmds.any fun e =>
    let op := opcodeOf e.2.pkt
    op / 256 = 1 || (op / 256 = 5 && op != 0x0505) || op / 256 = 6 || op = 0x0701 || op = 0x0702

/-- What refuses an activation of a slot: it is RUNNING, or not VERIFIED (11 Table 11-5), or KEEP is not possible. -/
def activateFault (s : State) (i : Nat) (full : Bool) : Option (Status × Nat) :=
  if runningSlot s = some i then some (.badState, 22)
  else if slotState s i ≠ 3 then some (.badState, 24)
  else if full then none
  else if fwHeader (slotOf s i) 8 2 ≠ runningMajor s then some (.badState, 23)
  else if blocksKeep s then some (.busy, 13)
  else none

/-- The record names the slot on trial, and START_FAILS becomes 0 (11 R346, R354). -/
def nameTrial (i : Nat) (s : State) : State :=
  modNor (fun n => { n with startFails := 0 }) (writeRecord (fun a => { a with slot := i, trial := true }) s)

/-- An FW_ACTIVATE runs in the row of its mode; a MODE out of range is refused by whichever row meets it. -/
def runActivate (cid : Nat) (full : Bool) (f : Cmd → Nat → State → State) (s : State) : State :=
  match begins s cid 0x0703 with
  | none => s
  | some c =>
    if (badField c.pkt false).isNone ∧ fullActivation s c.pkt ≠ full then s
    else
      runCmd cid 0x0703 (fun c s =>
        let i := slotNamed s (le c.pkt 20 1)
        if s.dev.update.isSome then s
        else
          match activateFault s i full with
          | some (st, d) => refuse cid st d s
          | none => f c i (nameTrial i s)) s

/-- Requests at work return to ADMITTED, CHARGED kept; a result already submitted stands. -/
def pauseRequests (s : State) : State :=
  (s.reqs.filter fun e => inFlightState e.2.st && e.2.result.isNone).foldl (fun s e => backToAdmitted e.1 s) s

/-- FW_ACTIVATE in KEEP mode (11 R355): UPDATING; `aux` holds the slot. -/
def fwActivateKeep (cid : Nat) (s : State) : State :=
  runActivate cid false (fun _ i s =>
    pauseRequests (modDev (fun d => { d with update := some (cid, now s) }) (setDevState .updating (begun cid [i] s)))) s

/-- Meaning of FW_ACTIVATE_KEEP. -/
def execFwActivateKeep (cid : Nat) (s : State) : Host.Outcome State Fault Refusal := .next (fwActivateKeep cid s)

/-- FW_ACTIVATE in FULL mode (11 R357): DONE first, then the module resets with RESET_SOURCE 3. -/
def fwActivateFull (cid : Nat) (s : State) : State :=
  runActivate cid true (fun _ i s =>
    finish cid .done 0 (BitVec.ofNat 64 (fwHeader (slotOf s i) 8 8)) 0 (.resetModule 3) (signalDying 8 s)) s

/-- Meaning of FW_ACTIVATE_FULL. -/
def execFwActivateFull (cid : Nat) (s : State) : Host.Outcome State Fault Refusal := .next (fwActivateFull cid s)

/-! ### Configuration formats (11 R361, R363) -/

/-- The content that at least two of three copies agree on. -/
def agreed (l : List CfgCopy) : Option (Nat × Nat × Tbl Nat) :=
  let valid := fun (c : CfgCopy) => match c with | .valid f n items => some (f, n, items) | _ => none
  match l with
  | [a, b, c] =>
    if a = b then valid a else if a = c then valid a else if b = c then valid b else none
  | _ => none

/-- A value that conversion gives a CONFIG_ID: free, within the item's range (02 Table 2-31, notes/assumptions 6). -/
def convertedValue (s : State) (id : Nat) : Nat :=
  let f := (Config.freeValue (s.free + id)).toNat
  if id = 1 then 500 + f % 49501 else if id = 2 then 1 + f % 100 else if id = 3 then 1 + f % 168 else f % 128

/-- Items after conversion: those whose value changed, by the mask, have new ones. -/
def convertItems (s : State) (changed : BitVec 16) (items : Tbl Nat) : Tbl Nat :=
  [1, 2, 3, 4].foldl (fun t id => if changed.getLsbD (id - 1) then tset t id (convertedValue s id) else t) items

/-- CONFIG_MIGRATED. -/
def postMigrated (old new detail : Nat) (s : State) : State := postEvent 7 old detail (BitVec.ofNat 64 new) .done s

/-- A stored format older than the image's is converted; a newer one is left, and the previous copies or the defaults serve
(11 R363). -/
def migrate (fmt : Nat) (changed : BitVec 16) (s : State) : State :=
  let live := fun (c : CfgVals) (s : State) => ({ s with cfg := { s.cfg with live := c } } : State)
  match agreed s.nor.copies with
  | none => s
  | some (f, n, items) =>
    if f = fmt then live (cfgOfItems items) s
    else if f < fmt then
      let items' := convertItems s (changed &&& 0xF) items
      let c : CfgCopy := .valid fmt n items'
      let s := { modNor (fun x => { x with previous := x.copies, copies := [c, c, c] }) s with free := s.free + 5 }
      postMigrated f fmt (changed &&& 0xF).toNat (live (cfgOfItems items') s)
    else
      match agreed s.nor.previous with
      | some (g, _, old) =>
        if g ≤ fmt then postMigrated f fmt (2 ^ 16) (live (cfgOfItems old) s)
        else postMigrated f fmt (2 * 2 ^ 16) (live CfgVals.defaults s)
      | none => postMigrated f fmt (2 * 2 ^ 16) (live CfgVals.defaults s)

/-! ### The end of a pause (11 R355, R356, 13 R387) -/

/-- A latch opened while the module booted or updated acts as SHUTDOWN in ABORT mode from now on (13 R387). -/
def lateLatch (s : State) : State :=
  if s.dev.latchDue then beginStop .latch true (modDev (fun d => { d with latchDue := false }) s) else s

/-- Ticks within which a pause must be complete (11 R356). -/
def pauseTicks : Nat := 200000000

/-- ACTIVATION_PAUSE_END: the new image serves, and FW_ACTIVATE replies. -/
def pauseEnd (fmt : Nat) (changed : BitVec 16) (s : State) : State :=
  match s.dev.update with
  | none => s
  | some (cid, t0) =>
    if t0 + pauseTicks ≤ now s then s
    else
      let i := ((tget s.cmds cid).map fun c => c.aux.headD 0).getD s.dev.activeSlot
      let s := modDev (fun d => { d with update := none, activeSlot := i, format := fmt }) s
      let s := migrate fmt changed s
      let s := setDevState (serviceState s) s
      lateLatch (done cid 0 (BitVec.ofNat 64 (fwHeader (slotOf s i) 8 8)) s)

/-- Meaning of ACTIVATION_PAUSE_END. -/
def execActivationPauseEnd (formatOf : Nat) (changed : BitVec 16) (s : State) : Host.Outcome State Fault Refusal :=
  .next (pauseEnd formatOf changed s)

/-- ACTIVATION_PAUSE_TIMEOUT (11 R356): the hub watchdog resets the module. -/
def pauseTimeout (s : State) : State :=
  match s.dev.update with
  | none => s
  | some (_, t0) => if t0 + pauseTicks ≤ now s then moduleReset 5 s else s

/-- Meaning of ACTIVATION_PAUSE_TIMEOUT. -/
def execActivationPauseTimeout (s : State) : Host.Outcome State Fault Refusal := .next (pauseTimeout s)

/-! ### FW_QUERY (11 Table 11-8) -/

/-- 60 s in ticks. -/
def minuteTicks : Nat := 6000000000

/-- The slot in service runs on trial, and since when (11 R358). -/
def trialSince (s : State) : Option Tick :=
  match s.nor.act with
  | some a => if a.trial && a.slot = s.dev.activeSlot && serving s then s.dev.serviceSince else none
  | none => none

/-- A slot descriptor; `k` numbers its spare values. -/
def slotDescriptor (s : State) (i k : Nat) : List (Nat × Nat) :=
  let sl := slotOf s i
  [(1, slotState s i), (1, spare s k), (2, sl.blocks.length), (4, securityVersion sl), (8, fwHeader sl 8 8), (4, fwBlocks sl),
   (8, spare s (k + 1)), (4, spare s (k + 2))]

/-- The 128 bytes of FW_QUERY. -/
def fwQueryData (s : State) : List (Nat × Nat) :=
  [(1, (runningSlot s).getD 0xFF), (1, (s.nor.act.map (·.slot)).getD 0xFF), (1, (s.nor.act.map arFlags).getD 0),
   (1, s.nor.startFails), (1, reasonCode s.nor.lastReason), (1, antiRollback s), (2, spare s 0),
   (8, ((trialSince s).map (· + minuteTicks)).getD 0)] ++
  slotDescriptor s 0 1 ++ slotDescriptor s 1 4 ++ (List.range 6).map fun k => (8, spare s (7 + k))

/-- FW_QUERY. -/
def fwQuery (cid : Nat) (s : State) : State :=
  runCmd cid 0x0704 (fun c s => done cid 0 0 (useSpares 13 (writeFields (le c.pkt 24 8) (fwQueryData s) s))) s

/-- Meaning of FW_QUERY. -/
def execFwQuery (cid : Nat) (s : State) : Host.Outcome State Fault Refusal := .next (fwQuery cid s)

/-! ### Trials (11 R358, 09 R272, R275) -/

/-- Bits are blown in all three cells. -/
def blow (bits : BitVec 4096) (s : State) : State :=
  let f := s.fuses
  { s with fuses := { f with cellA := f.cellA ||| bits, cellB := f.cellB ||| bits, cellC := f.cellC ||| bits } }

/-- The shadow is read back from the cells (09 R272). -/
def readShadow (s : State) : State := { s with fuses := { s.fuses with shadow := majority s.fuses } }

/-- The bits a completed trial blows: ANTI_ROLLBACK to SECURITY_VERSION where that is higher, and REVOKE_REQUEST. -/
def trialBits (s : State) (sl : FwSlot) : BitVec 4096 :=
  let v := securityVersion sl
  let roll := if antiRollback s < v ∧ v ≤ 64 then BitVec.twoPow 4096 (1152 + v - 1) else 0
  roll ||| BitVec.ofNat 4096 (revokeRequest sl * 2 ^ 1216)

/-- TRIAL_COMPLETE (11 R358). -/
def trialComplete (s : State) : State :=
  match trialSince s with
  | none => s
  | some t =>
    if now s < t + minuteTicks then s
    else writeRecord (fun a => { a with trial := false }) (readShadow (blow (trialBits s (slotOf s s.dev.activeSlot)) s))

/-- Meaning of TRIAL_COMPLETE. -/
def execTrialComplete (s : State) : Host.Outcome State Fault Refusal := .next (trialComplete s)

end Sys2Proof.Machine
end

