-- ==== Sys2Proof/Machine/Boot.lean ====
section
/-! DEFINITION. Power-on, starts and HALF-MAST (01 R10, R25, 02 R33, 09 R272-R276, 11 R340-R363, 13 R387, R390). -/
namespace Sys2Proof.Machine

/-! ### Power-on (01 R25, 13 R390) -/

/-- Power-good on a module that is off; one that the thermal trip latched off comes back only once both feeds have been removed
(12 R383). What outlives a loss of power: fuses' cells, boot NOR, the model store, and what stands outside the module. -/
def powerOn (s : State) : State :=
  if s.dev.on || s.clk.sclk || s.thermal.tripped.isSome then s
  else
    let r := State.reset
    let s' : State :=
    { r with link := { r.link with perst := s.link.perst, disabled := s.link.disabled, slotPins := s.link.slotPins,
                                   slotId := s.link.slotPins, latchOpen := s.link.latchOpen },
             pats := tmap s.pats fun _ p => unstage p, patGens := s.patGens, fuses := { s.fuses with shadow := 0 },
             sec := { r.sec with draws := s.sec.draws }, pair := { r.pair with linkUp := s.pair.linkUp },
             nor := { s.nor with slotA := { s.nor.slotA with busy := none }, slotB := { s.nor.slotB with busy := none } },
             power := { r.power with feedA := s.power.feedA, feedB := s.power.feedB },
             thermal := { r.thermal with sensors := s.thermal.sensors }, tx := s.tx, free := s.free, pending := s.pending }
    bobPost 0x10 0x0003 0 (emit (.uart 0x0003 0) s')

/-- Meaning of POWER_ON. -/
def execPowerOn (s : State) : Host.Outcome State Fault Refusal := .next (powerOn s)

/-! ### The stages of a start (11 Table 11-2) -/

/-- A stage ends in a state, and in a reason where it stops the start. -/
abbrev Stage' := State × Option Reason

/-- A module in DEPLOYED breaks R10: not exactly one core disabled in each half, or a channel disabled. -/
def breaksR10 (s : State) : Bool :=
  let cores := fun h => ((List.range 5).filter fun p => bitOf (fuse s 1241 1232) (5 * h + p)).length
  lifecycle s = 1 && (cores 0 != 1 || cores 1 != 1 || fuse s 1535 1408 != 0)

/-- The checks of 09 R274. -/
def fuseFault (s : State) : Bool :=
  let b := s.fuses.shadow.toNat
  crc32c 184 (fuseCrcInput b) != bitsOf b 1567 1536 || !([0, 1, 3].contains (lifecycle s)) || debugPolicy s = 2 ||
    pairPolicy s = 2 || keyRevoke s = 7 || breaksR10 s

/-- START_FAILS rises at the beginning of a start that a watchdog reset in service began (11 R346); tallies count from every
start (14 R419). -/
def stageRom (s : State) : Stage' :=
  let n := s.nor
  let s := { s with svc := { s.svc with tallies := [] }, sent := { s.sent with alive := true } }
  if s.dev.watchdogReset then
    ({ s with dev := { s.dev with watchdogReset := false },
              nor := { n with startFails := min (n.startFails + 1) 3, lastReason := .watchdog } }, none)
  else (s, none)

/-- The shadow is loaded and checked. -/
def stageFuses (s : State) : Stage' :=
  let s := readShadow s
  (s, if fuseFault s then some .fuseError else none)

/-- A trial slot with START_FAILS above 0 is reverted (11 R359). -/
def revertTrial (s : State) : State :=
  match s.nor.act with
  | some a =>
    if a.trial && decide (0 < s.nor.startFails) then
      writeRecord (fun a => trialFailed a.slot true { a with slot := 1 - a.slot, trial := false }) s
    else s
  | none => s

/-- A third copy that differs from two that agree is rewritten and recorded (11 R361). -/
def rewriteCopies (c : CfgCopy) (s : State) : State :=
  let bad := (List.range 3).filter fun i => s.nor.copies.getD i .blank != c
  bad.foldl (fun s i => bobPost 0x10 0x0005 i s) (modNor (fun n => { n with copies := [c, c, c] }) s)

/-- Start-failure record, activation record and configuration copies are read (11 R346, R359, R361, R362). -/
def stageRecords (s : State) : Stage' :=
  if s.nor.startFails = 3 then (s, some s.nor.lastReason)
  else
    let s := revertTrial s
    match agreed s.nor.copies with
    | some (f, n, items) => (rewriteCopies (.valid f n items) s, none)
    | none =>
      let fresh : CfgCopy := .valid 1 0 []
      if s.nor.copies.all (· == .blank) then (modNor (fun n => { n with copies := [fresh, fresh, fresh] }) s, none)
      else (s, some .configDiverged)

/-- The reason a start stops for when no slot verifies, by the first slot tried (11 Table 11-3). -/
def slotReason (s : State) (i : Nat) : Reason :=
  match slotFault s (slotOf s i) with
  | some (.fwCheckFail, _) => .fwCheck
  | _ => .fwSig

/-- The build of FW_VERSION (02 Table 2-29). -/
def buildOf (sl : FwSlot) : Nat := fwHeader sl 12 4

/-- The slot booted where the record is unreadable: higher SECURITY_VERSION, then higher build, then A. -/
def betterSlot (s : State) : Option Nat :=
  let a := slotOf s 0
  let b := slotOf s 1
  let bWins := decide (securityVersion a < securityVersion b ∨
    (securityVersion a = securityVersion b ∧ buildOf a < buildOf b))
  if slotGood s 0 && slotGood s 1 then some (if bWins then 1 else 0)
  else if slotGood s 0 then some 0
  else if slotGood s 1 then some 1
  else none

/-- The boot ROM chooses the slot (11 R351). -/
def stageSlot (s : State) : Stage' :=
  let run := fun (i : Nat) (s : State) => modDev (fun d => { d with activeSlot := i }) s
  let rename := fun (i : Nat) (s : State) => writeRecord (fun a => { a with slot := i, trial := false }) s
  match s.nor.act with
  | some a =>
    if slotGood s a.slot then (run a.slot s, none)
    else if slotGood s (1 - a.slot) then (bobPost 0x10 0x0004 (1 - a.slot) (rename (1 - a.slot) (run (1 - a.slot) s)), none)
    else (s, some (slotReason s a.slot))
  | none =>
    match betterSlot s with
    | some i => (rename i (run i s), none)
    | none => (s, some (slotReason s 0))

/-- A reading of a board sensor. -/
def sensorAt (s : State) (i : Nat) : Option Int := s.thermal.sensors.getD i none

/-- Coolant flow below 1.2 L/min or inlet above 40 °C (11 Table 11-3). -/
def coolantBad (s : State) : Bool :=
  (match sensorAt s 0x32 with | some f => decide (f < 1200) | none => true) ||
    (match sensorAt s 0x30 with | some t => decide (2560 < t) | none => false)

/-- A feed is present and was last measured within 48 to 58 V (11 Table 11-3, POWER_FEED). -/
def feedInBand (f : Feed) : Bool := f.present && decide (48000 ≤ f.mv ∧ f.mv ≤ 58000)

/-- Feeds and coolant are checked, and the summary bits that these conditions govern set again (02 R33, 11 Table 11-2). Sensor
pairs and halts that lasted until this start end (12 R375, 14 R416). -/
def stagePower (env : StartEnv) (s : State) : Stage' :=
  let clear := fun (c : Core) => { c with suspect := false, bothOut := false, halted := none, differSince := none }
  let s := { s with cores := s.cores.map clear }
  let s := setHealth 2 (decide (s.power.capMw < 1300000))
    (setHealth 1 (!s.power.feedB.present) (setHealth 0 (!s.power.feedA.present) s))
  if (!feedInBand s.power.feedA && !feedInBand s.power.feedB) || env.orFault then (s, some .powerFeed)
  else if coolantBad s then (s, some .thermal)
  else (s, none)

/-- Channels of a half in a list. -/
def inHalf (h : Nat) (l : List Nat) : List Nat := (List.range 64).filter fun i => l.contains (64 * h + i)

/-- The channels of a half. -/
def halfChannels (h : Nat) : List Nat := (List.range 64).map (64 * h + ·)

/-- The channels that trained: neither failed nor disabled by fuse, nor of a half found faulted (11 R342, 09 Table 9-1). -/
def trained (s : State) (failed : List Nat) : BitVec 128 :=
  BitVec.ofNat 128 (((List.range 128).filter fun c => !failed.contains c && !bitOf (fuse s 1535 1408) c).map (2 ^ ·)).sum

/-- LPDDR4X channels are trained (11 R342). -/
def stageTraining (env : StartEnv) (s : State) : Stage' :=
  if 8 < (inHalf 0 env.channelsFailed).length ∨ 8 < (inHalf 1 env.channelsFailed).length then (s, some .lpddrTrain)
  else
    let s := { s with mem := { s.mem with inService := trained s (env.channelsFailed ++ env.halvesFaulted.flatMap halfChannels), eccWindow := windowStart (now s),
                                          bridgeDown := env.bridgeDown },
                      halves := (List.range 2).map fun h => { halfOf s h with faulted := env.halvesFaulted.contains h } }
    (s, none)

/-- Every line of LPDDR4X and every SRAM is zeroed, and the pricking stores get their shared diagonal tiles (11 Table 11-2; when the diagonal
tile is first built is DESIGN CHOICE, notes/assumptions 125). -/
def stageZero (s : State) : Stage' :=
  let clear := fun (x : Half) => { x with store := [], hot := [], pricks := [], diagonal := diagonalTile }
  ({ s with mem := { s.mem with data := [], badLines := [] }, cores := s.cores.map Core.wiped, halves := s.halves.map clear }, none)

/-- A core reaches Tj 110 °C, or its array results differ (11 R343). -/
def stageArray (env : StartEnv) (s : State) : Stage' :=
  (s, if env.arrayFail then some .selftestArray
      else if s.cores.any (fun c => decide (7040 ≤ c.tj)) then some .thermal else none)

/-- The attention known-answer tests leave their test biases in tables 2 to 15 (11 R343). -/
def stageAttn (env : StartEnv) (s : State) : Stage' :=
  (loadTestBias s, if env.attnFail then some .selftestAttn else none)

/-- Configuration is applied, with migration where needed (11 R363); DIK is derived and a KEM key generated, except in
DECOMMISSIONED (09 R276, R278). -/
def stageConfig (fmt : Nat) (changed : BitVec 16) (s : State) : Stage' :=
  let s := migrate fmt changed (modDev (fun d => { d with format := fmt }) s)
  if lifecycle s = 3 then (s, none)
  else ({ s with sec := { s.sec with dik := true, kem := some s.sec.draws, draws := s.sec.draws + 1 } }, none)

/-- The work of one row of Table 11-2. -/
def stageOf (env : StartEnv) (fmt : Nat) (changed : BitVec 16) (row : Nat) (s : State) : Stage' :=
  match row with
  | 1 => stageRom s
  | 2 => stageFuses s
  | 3 => stageRecords s
  | 5 => stageSlot s
  | 6 => stagePower env s
  | 7 => stageTraining env s
  | 8 => stageZero s
  | 10 => stageArray env s
  | 11 => stageAttn env s
  | 12 => stageConfig fmt changed s
  | _ => (s, none)

/-- A row is reached: recorded, with a UART line (13 R408, 14 Table 14-6). -/
def reachRow (row : Nat) (s : State) : State := bobPost 0x10 0x0001 row (emit (.uart 0x0001 row) s)

/-- The start's outcome is noted. -/
def noteStart (fail : Option Reason) (overrun : Option Nat) (s : State) : State :=
  let r : StartRun := { t1 := now s, fail := fail, overrun := overrun }
  modDev (fun d => { d with start := some r }) s

/-- The rows from one on, in order, until one fails or overruns its bound. -/
def runStages (env : StartEnv) (fmt : Nat) (changed : BitVec 16) : List Nat → State → State
  | [], s => noteStart none none s
  | row :: rest, s =>
    let s := reachRow row s
    if env.overrun = some row then noteStart none (some row) s
    else
      match stageOf env fmt changed row s with
      | (s, some r) => noteStart (some r) none s
      | (s, none) => runStages env fmt changed rest s

/-- A start can run now (11 R340, 12 R372, R380, 13 Table 13-7). -/
def startRuns (s : State) : Bool :=
  s.dev.startDue && hubOn s && !s.link.perst && !s.link.disabled && s.thermal.tripped.isNone && s.power.holdUp.isNone

/-- START (11 R340): t1 is now; the rows of Table 11-2 run as one step (notes/assumptions 32). -/
def start (env : StartEnv) (fmt : Nat) (changed : BitVec 16) (s : State) : State :=
  if startRuns s then
    runStages env fmt changed ((List.range 13).map (· + 1)) (modDev (fun d => { d with startDue := false, retryAt := none }) s)
  else s

/-- Meaning of START. -/
def execStart (env : StartEnv) (formatOf : Nat) (changed : BitVec 16) (s : State) : Host.Outcome State Fault Refusal :=
  .next (start env formatOf changed s)

/-! ### Its end (11 R340, R344-R347, R362, 13 R387) -/

/-- START_COMPLETE: READY, or DEGRADED; a latch that opened meanwhile then acts. -/
def startComplete (s : State) : State :=
  match s.dev.start with
  | some { t1 := _, fail := none, overrun := none } =>
    let s := modPair (fun p => { p with lastAdvance := now s, marks := [] }) (modDev (fun d => { d with start := none }) s)
    lateLatch (setDevState (serviceState s) (measureHealth s))
  | _ => s

/-- Meaning of START_COMPLETE. -/
def execStartComplete (s : State) : Host.Outcome State Fault Refusal := .next (startComplete s)

/-- Reasons of kind immediate (11 Table 11-3). -/
def immediate (r : Reason) : Bool := r == .fuseError || r == .configDiverged

/-- HALF-MAST (11 R347): the mirror link is unpowered, and nothing but the hub's minimal functions runs. -/
def enterHalfMast (s : State) : State :=
  setDevState .halfMast (modDev (fun d => { d with start := none, retryAt := none, latchDue := false }) s)

/-- Ticks before the next start of a series (11 R344). -/
def retryTicks (r : Reason) : Nat := if r = .thermal ∨ r = .powerFeed then 1000000000 else 1000000

/-- START_FAILS and LAST_REASON after a stop (11 R346); a start that found START_FAILS at 3 changes neither. -/
def countFailure (r : Reason) (n : Nor) : Nor :=
  if immediate r then { n with startFails := 3, lastReason := r }
  else if n.startFails = 3 then n
  else { n with startFails := n.startFails + 1, lastReason := r }

/-- A start stops (11 R344): HALF-MAST, or another start after a wait. -/
def failStart (r : Reason) (s : State) : State :=
  let s := measureHealth s
  let s := bobPost 0x10 0x0002 (reasonCode r) (emit (.uart 0x0002 (reasonCode r)) (modNor (countFailure r) s))
  if s.nor.startFails = 3 then enterHalfMast s
  else modDev (fun d => { d with start := none, retryAt := some (now s + retryTicks r) }) s

/-- START_FAILURE. -/
def startFailure (s : State) : State :=
  match s.dev.start with
  | some { t1 := _, fail := some r, overrun := _ } => failStart r s
  | _ => s

/-- Meaning of START_FAILURE. -/
def execStartFailure (s : State) : Host.Outcome State Fault Refusal := .next (startFailure s)

/-- START_RETRY (11 R344): the wait is over; RESET_SOURCE keeps its value. -/
def startRetry (s : State) : State :=
  match s.dev.retryAt with
  | some t => if t ≤ now s then modDev (fun d => { d with retryAt := none, startDue := true }) s else s
  | none => s

/-- Meaning of START_RETRY. -/
def execStartRetry (s : State) : Host.Outcome State Fault Refusal := .next (startRetry s)

/-- The bound of a row of Table 11-2 in ms; row 5 allows for both slots where the one named does not verify. -/
def rowBound (s : State) (row : Nat) : Nat :=
  if row = 5 ∧ ((s.nor.act.map fun a => slotGood s a.slot).getD false) = false then 275
  else [0, 0, 2, 4, 100, 140, 300, 1100, 1600, 2100, 3100, 3600, 4200, 6000].getD row 0

/-- START_STAGE_TIMEOUT (11 R345): the row exceeds twice its bound, and the watchdog stops the start. -/
def stageTimeout (row : Nat) (s : State) : State :=
  match s.dev.start with
  | some { t1 := t1, fail := none, overrun := some r } =>
    if r = row ∧ t1 + 2 * rowBound s row * 100000 ≤ now s then failStart .watchdog s else s
  | _ => s

/-- Meaning of START_STAGE_TIMEOUT. -/
def execStartStageTimeout (row : Nat) (s : State) : Host.Outcome State Fault Refusal := .next (stageTimeout row s)

/-- START_FAILS_CLEAR (11 R346). -/
def failsClear (s : State) : State :=
  match s.dev.serviceSince with
  | some t =>
    if serving s = true ∧ t + minuteTicks ≤ now s then modNor (fun n => { n with startFails := 0, lastReason := .none }) s else s
  | none => s

/-- Meaning of START_FAILS_CLEAR. -/
def execStartFailsClear (s : State) : Host.Outcome State Fault Refusal := .next (failsClear s)

end Sys2Proof.Machine
end

