-- ==== Sys2Proof/Machine/Fences.lean ====
section
/-! DEFINITION. The fence commands (02 R62-R65, Tables 2-23, 2-24). -/
namespace Sys2Proof.Machine

/-- A fence handle (02 Table 2-22): index and generation. -/
def fenceHandle (gen i : Nat) : Nat := i + gen * 2 ^ 24

/-- Fences of a tenant against its share (02 Table 2-23, 09 R290). -/
def fencesFull (s : State) (t : Nat) : Bool :=
  decide (16384 ≤ s.fences.length) || (match partOf s t with
    | some e => decide (e.fences ≤ (s.fences.filter fun x => x.2.tenant = t).length)
    | none => false)

/-- FENCE_ALLOC (02 R62). -/
def fenceAlloc (cid : Nat) (s : State) : State :=
  runCmd cid 0x0401 (fun c s =>
    let t := c.tenant.getD 0
    match pickSlot s cid s.fences 16384 with
    | none => refuse cid .tableFull 7 s
    | some i =>
      if fencesFull s t then refuse cid .tableFull 7 s
      else
        let g := pickGen s cid 24 (nextGen 255 (tgetD s.fenceGens i 0))
        let f : Fence := { gen := g, tenant := t, value := BitVec.ofNat 64 (le c.pkt 24 8) }
        let s := { s with fences := tset s.fences i f, fenceGens := tset s.fenceGens i g }
        done cid 0 (BitVec.ofNat 64 (fenceHandle g i)) (tellFence i s)) s

/-- Meaning of FENCE_ALLOC. -/
def execFenceAlloc (cid : Nat) (s : State) : Host.Outcome State Fault Refusal := .next (fenceAlloc cid s)

/-- Index and generation that a packet's HANDLE names. -/
def fenceIndex (p : Packet) : Nat := le p 20 4 % 2 ^ 14
def fenceGen (p : Packet) : Nat := le p 20 4 / 2 ^ 24

/-- The fence belongs to another tenant. -/
def fenceForeign (c : Cmd) (s : State) : Bool :=
  match tget s.fences (fenceIndex c.pkt) with
  | some f => some f.tenant != c.tenant
  | none => false

/-- A handle that names no allocated fence, but not one of another tenant's. -/
def fenceFaults (c : Cmd) (s : State) : List Nat :=
  match tget s.fences (fenceIndex c.pkt) with
  | some f => if fenceForeign c s || f.gen = fenceGen c.pkt then [] else [20]
  | none => [20]

/-- A command on a fence runs, where the handle names one of its tenant. -/
def runFence (cid op : Nat) (f : Cmd → State → State) (s : State) : State :=
  runCmdWith cid op fenceFaults (fun c s => if fenceForeign c s then refuse cid .accessDenied 2 s else f c s) s

/-- Outstanding waits on a fence: `aux` of a FENCE_WAIT holds index, generation, target and limit. -/
def waitsOn (s : State) (i g : Nat) : List Nat :=
  openCmds s fun c => opcodeOf c.pkt = 0x0404 && c.phase == .begun && c.aux.take 2 == [i, g]

/-- FENCE_FREE (02 R65): the fence is freed and its waits end with CANCELLED. -/
def fenceFree (cid : Nat) (s : State) : State :=
  runFence cid 0x0402 (fun c s =>
    let i := fenceIndex c.pkt
    let waits := waitsOn s i (fenceGen c.pkt)
    begun cid waits (refuseAll waits .cancelled 2 (tellFence i { s with fences := tdel s.fences i }))) s

/-- Meaning of FENCE_FREE. -/
def execFenceFree (cid : Nat) (s : State) : Host.Outcome State Fault Refusal := .next (fenceFree cid s)

/-- FENCE_FREE_COMPLETE (02 R65): every wait has its final reply. -/
def fenceFreeDone (cid : Nat) (s : State) : State :=
  match inProgress s cid 0x0402 with
  | none => s
  | some c => if c.aux.any fun w => (tget s.cmds w).isSome then s else done cid 0 0 s

/-- Meaning of FENCE_FREE_COMPLETE. -/
def execFenceFreeComplete (cid : Nat) (s : State) : Host.Outcome State Fault Refusal := .next (fenceFreeDone cid s)

/-- FENCE_SIGNAL (02 R63, Table 2-24): at once, or, while records are mirrored, once its FENCE record is acknowledged (10 R313). -/
def fenceSignal (cid : Nat) (s : State) : State :=
  runFence cid 0x0403 (fun c s =>
    match tget s.fences (fenceIndex c.pkt) with
    | none => s
    | some f =>
      let v := match c.given with
        | some g => g.2.2
        | none => fenceAfter (le c.pkt 24 1) f.value (BitVec.ofNat 64 (le c.pkt 32 8))
      if mirroring s then
        sendRecord (.fence f.gen f.tenant v true) (fenceIndex c.pkt) c.order c.tenant none (some (fenceIndex c.pkt, f.gen, v))
          (some cid) (begun cid [] s)
      else done cid 0 v (setFence (fenceIndex c.pkt) v s)) s

/-- Meaning of FENCE_SIGNAL. -/
def execFenceSignal (cid : Nat) (s : State) : Host.Outcome State Fault Refusal := .next (fenceSignal cid s)

/-- FENCE_WAIT (02 R64) begins to wait. -/
def fenceWait (cid : Nat) (s : State) : State :=
  runFence cid 0x0404 (fun c s =>
    begun cid [fenceIndex c.pkt, fenceGen c.pkt, le c.pkt 24 8, le c.pkt 32 4] s) s

/-- Meaning of FENCE_WAIT. -/
def execFenceWait (cid : Nat) (s : State) : Host.Outcome State Fault Refusal := .next (fenceWait cid s)

/-- The value of the fence a begun wait names, its target and its limit. -/
def waitOf (s : State) (cid : Nat) : Option (Cmd × BitVec 64 × Nat × Nat) :=
  match inProgress s cid 0x0404 with
  | none => none
  | some c =>
    match c.aux, tget s.fences (c.aux.headD 0) with
    | [_, g, target, limit], some f => if f.gen = g then some (c, f.value, target, limit) else none
    | _, _ => none

/-- FENCE_WAIT_DONE (02 R64). -/
def waitDone (cid : Nat) (s : State) : State :=
  match waitOf s cid with
  | some (_, v, target, _) => if target ≤ v.toNat then done cid 0 v s else s
  | none => s

/-- Meaning of FENCE_WAIT_DONE. -/
def execFenceWaitDone (cid : Nat) (s : State) : Host.Outcome State Fault Refusal := .next (waitDone cid s)

/-- FENCE_WAIT_LIMIT (02 R64). -/
def waitLimit (cid : Nat) (s : State) : State :=
  match waitOf s cid with
  | some (c, v, target, limit) =>
    if limit ≠ 0 ∧ c.since + limit ≤ now s ∧ v.toNat < target then refuse cid .cancelled 1 s else s
  | none => s

/-- Meaning of FENCE_WAIT_LIMIT. -/
def execFenceWaitLimit (cid : Nat) (s : State) : Host.Outcome State Fault Refusal := .next (waitLimit cid s)

end Sys2Proof.Machine
end

