-- ==== Sys2Proof/Machine/Links.lean ====
section
/-! DEFINITION. Events of the PCIe link, the latch, the slot pins and the clocks (01 R23, R24, 11 R340, R341, 13 R387-R396, R402). -/
namespace Sys2Proof.Machine

/-! ### Resets from the link (13 Table 13-7) -/

/-- A module reset from the link: Bus Master Enable returns to 0, a trip's latch ends, and `up` is what becomes of the link. -/
def linkEvent (source : Nat) (up : Bool) (s : State) : State :=
  let t := moduleReset source s
  { t with link := { t.link with up := up, busMaster := false }, dev := { t.dev with on := true } }

/-- PERST_ASSERT (13 R391, R393): qualified asserted. Without SCLK nothing acts on it. -/
def perstAssert (s : State) : State :=
  if s.link.perst then s
  else
    let s := { s with link := { s.link with perst := true, up := false } }
    if s.clk.sclk then linkEvent 1 false s else s

/-- Meaning of PERST_ASSERT. -/
def execPerstAssert (s : State) : Host.Outcome State Fault Refusal := .next (perstAssert s)

/-- PERST_DEASSERT (11 R340, 13 R390): SLOT_ID is sampled, and the start that the reset made due can begin. -/
def perstDeassert (s : State) : State :=
  if !s.link.perst then s
  else
    { s with link := { s.link with perst := false, slotId := if s.clk.sclk then s.link.slotPins else s.link.slotId } }

/-- Meaning of PERST_DEASSERT. -/
def execPerstDeassert (s : State) : Host.Outcome State Fault Refusal := .next (perstDeassert s)

/-- The link is up and the endpoint answers. -/
def linked (s : State) : Bool := hubOn s && s.link.up

/-- HOT_RESET (13 R393): a Hot Reset, or the link going down. -/
def hotReset (s : State) : State := if linked s then linkEvent 1 false s else s

/-- Meaning of HOT_RESET. -/
def execHotReset (s : State) : Host.Outcome State Fault Refusal := .next (hotReset s)

/-- LINK_DISABLE (13 R393): as PERST#, held until the link trains again. -/
def linkDisable (s : State) : State :=
  if linked s then
    let t := linkEvent 1 false s
    { t with link := { t.link with disabled := true } }
  else s

/-- Meaning of LINK_DISABLE. -/
def execLinkDisable (s : State) : Host.Outcome State Fault Refusal := .next (linkDisable s)

/-- LINK_UP (11 R341, 13 R396): the link reaches L0 at a speed and width of Table 13-6. -/
def linkUp (speed width : Nat) (s : State) : State :=
  if hubOn s && !s.link.perst && !s.link.up && decide (1 ≤ speed ∧ speed ≤ 5) && [1, 2, 4, 8].contains width then
    { s with link := { s.link with up := true, disabled := false, speed := speed, width := width } }
  else s

/-- Meaning of LINK_UP. -/
def execLinkUp (speed width : Nat) (s : State) : Host.Outcome State Fault Refusal := .next (linkUp speed width s)

/-- FUNCTION_LEVEL_RESET (13 R393): the link stays up. -/
def functionReset (s : State) : State := if linked s then linkEvent 6 true s else s

/-- Meaning of FUNCTION_LEVEL_RESET. -/
def execFunctionLevelReset (s : State) : Host.Outcome State Fault Refusal := .next (functionReset s)

/-! ### D3hot (13 R393) -/

/-- D3HOT_ENTRY: PowerState is written; a serving, updating or HALF-MAST module acts as on SHUTDOWN with MODE ABORT. -/
def d3hotEntry (s : State) : State :=
  if linked s && s.link.dstate == .d0 then
    let s := { s with link := { s.link with dstate := .entering (now s) } }
    if s.dev.state = .booting ∨ s.dev.state = .shutdown ∨ s.dev.stopping.isSome = true then s else beginStop .d3hot true s
  else s

/-- Meaning of D3HOT_ENTRY. -/
def execD3hotEntry (s : State) : Host.Outcome State Fault Refusal := .next (d3hotEntry s)

/-- What is still outstanding ends without a reply. -/
def dropOutstanding (s : State) : State :=
  { s with cmds := [], reqs := [], reads := [], arb := { s.arb with cands := [] },
           sent := { s.sent with entries := [], sweep := none } }

/-- D3HOT_TAKEN: every outstanding command has its final reply, or 10 ms have passed. -/
def d3hotTaken (s : State) : State :=
  match s.link.dstate with
  | .entering t0 =>
    if hubOn s && (stopQuiet s 0 || decide (t0 + 1000000 ≤ now s)) then
      let s := dropOutstanding { s with link := { s.link with dstate := .d3hot } }
      let s := if s.dev.state = .booting then s else setDevState .shutdown s
      modDev (fun d => { d with stopping := none }) s
    else s
  | _ => s

/-- Meaning of D3HOT_TAKEN. -/
def execD3hotTaken (s : State) : Host.Outcome State Fault Refusal := .next (d3hotTaken s)

/-- D3HOT_EXIT: as a Function Level Reset. -/
def d3hotExit (s : State) : State := if linked s && s.link.dstate != .d0 then linkEvent 6 true s else s

/-- Meaning of D3HOT_EXIT. -/
def execD3hotExit (s : State) : Host.Outcome State Fault Refusal := .next (d3hotExit s)

/-! ### Bus Master Enable (13 R394) -/

/-- BUS_MASTER_DISABLE: memory requests, messages and fetching stop. -/
def busMasterDisable (s : State) : State :=
  if linked s then { s with link := { s.link with busMaster := false } } else s

/-- Meaning of BUS_MASTER_DISABLE. -/
def execBusMasterDisable (s : State) : Host.Outcome State Fault Refusal := .next (busMasterDisable s)

/-- BUS_MASTER_ENABLE: fetching resumes, and pending messages with unmasked vectors are sent. -/
def busMasterEnable (s : State) : State :=
  if linked s then sendPending { s with link := { s.link with busMaster := true } } else s

/-- Meaning of BUS_MASTER_ENABLE. -/
def execBusMasterEnable (s : State) : Host.Outcome State Fault Refusal := .next (busMasterEnable s)

/-! ### Latch and slot pins (13 R387, R390, R402) -/

/-- The latch switch changes. -/
def setLatch (v : Bool) (s : State) : State :=
  { s with link := { s.link with latchOpen := v }, health := { s.health with alert := s.health.alert || s.clk.sclk } }

/-- LATCH_OPEN (13 R387): SHUTDOWN with MODE ABORT at once, or when the pause or the start has ended. -/
def latchOpen (s : State) : State :=
  if s.link.latchOpen then s
  else
    let s := setLatch true s
    if !hubOn s then s
    else
      match s.dev.state with
      | .ready | .degraded => if s.dev.stopping.isSome then s else beginStop .latch true s
      | .updating | .booting => modDev (fun d => { d with latchDue := true }) s
      | .halfMast | .shutdown => s

/-- Meaning of LATCH_OPEN. -/
def execLatchOpen (s : State) : Host.Outcome State Fault Refusal := .next (latchOpen s)

/-- LATCH_CLOSE undoes nothing. -/
def latchClose (s : State) : State := if s.link.latchOpen then setLatch false s else s

/-- Meaning of LATCH_CLOSE. -/
def execLatchClose (s : State) : Host.Outcome State Fault Refusal := .next (latchClose s)

/-- SLOT_ID_CHANGE (13 R390): ignored until the next sample, and recorded. -/
def slotIdChange (pins : BitVec 4) (s : State) : State :=
  if pins = s.link.slotPins then s
  else
    let s := { s with link := { s.link with slotPins := pins } }
    if hubOn s then bobPost 0x10 0x0006 pins.toNat s else s

/-- Meaning of SLOT_ID_CHANGE. -/
def execSlotIdChange (pins : BitVec 4) (s : State) : Host.Outcome State Fault Refusal := .next (slotIdChange pins s)

/-! ### Front indicators (13 R388) -/

/-- SERVING: dark, steady, or flashing. -/
inductive Lamp where
  | dark | steady | flashing
deriving DecidableEq, Repr

def servingLamp (s : State) : Lamp :=
  if !s.clk.sclk || !serving s then .dark
  else if s.pair.role == .standby || s.pair.role == .spare then .flashing else .steady

def faultLamp (s : State) : Bool :=
  s.clk.sclk && (s.dev.state == .halfMast || s.thermal.tripped.isSome || s.health.bits.getLsbD 5 || s.health.bits.getLsbD 6 ||
    s.health.bits.getLsbD 8)

def removeLamp (s : State) : Bool :=
  s.clk.sclk && (s.dev.state == .shutdown || s.dev.state == .halfMast || (bound s && s.pair.role != .active))

/-! ### Clocks (01 R23, R24) -/

/-- SYSPLL_LOCK_LOSS: its clocks stop, the sentinel answers every outstanding deadline, then the module resets. -/
def syspllLoss (s : State) : State :=
  if hubOn s && s.clk.syspll then
    sweep .deadlineFallback 2 (.resetModule 4) (signalDying 4 { s with clk := { s.clk with syspll := false } })
  else s

/-- Meaning of SYSPLL_LOCK_LOSS. -/
def execSyspllLockLoss (s : State) : Host.Outcome State Fault Refusal := .next (syspllLoss s)

/-- REFCLK_FAIL: SCLK, the sentinel, the heartbeats and LOCAL_TIME stop; nothing outstanding receives a reply. -/
def refclkFail (s : State) : State :=
  if s.clk.sclk then
    { s with clk := { s.clk with sclk := false, syspll := false }, sent := { s.sent with alive := false } }
  else s

/-- Meaning of REFCLK_FAIL. -/
def execRefclkFail (s : State) : Host.Outcome State Fault Refusal := .next (refclkFail s)

end Sys2Proof.Machine
end

