-- ==== Sys2Proof/Machine/Power.lean ====
section
/-! DEFINITION. Power: feeds, hold-up, power windows and the power controller; margins (12 R365-R372, R384, R385, 14 R425). -/
namespace Sys2Proof.Machine

/-! ### Feeds (12 R369-R372) -/

/-- The feed A (false) or B (true) changes. -/
def modFeed (b : Bool) (f : Feed → Feed) (s : State) : State :=
  { s with power := if b then { s.power with feedB := f s.power.feedB } else { s.power with feedA := f s.power.feedA } }

def feedOf (s : State) (b : Bool) : Feed := if b then s.power.feedB else s.power.feedA

/-- FEED_CHANGE: the feed, 0 for a loss and 1 for a return, and the voltage of the remaining feed. -/
def postFeed (b back : Bool) (s : State) : State :=
  postEvent 3 (bit b) (bit back) (BitVec.ofNat 64 (if (feedOf s !b).present then (feedOf s !b).mv else 0)) .done s

/-- A feed's presence changes, with its summary bit and event while SCLK runs. -/
def feedTurns (b back : Bool) (s : State) : State :=
  if s.clk.sclk then postFeed b back (setHealth (bit b) (!back) s) else s

/-- FEED_PRESENT (12 R369, R370): within 48 to 58 V for 100 ms. -/
def feedPresent (b : Bool) (mv : Nat) (s : State) : State :=
  if (feedOf s b).present = false ∧ 48000 ≤ mv ∧ mv ≤ 58000 then
    feedTurns b true (modFeed b (fun _ => { present := true, mv := mv }) s)
  else s

/-- Meaning of FEED_PRESENT. -/
def execFeedPresent (feed : Bool) (mv : Nat) (s : State) : Host.Outcome State Fault Refusal := .next (feedPresent feed mv s)

/-- The second feed is lost (12 R371, Table 12-4, 14 Table 14-14): DYING with the keys zeroed, the POWER_ABORT sweep, the cores gated on hold-up power; DEBUG_OPENED
ends (09 R277). -/
def bothLost (s : State) : State :=
  let s := { s with power := { s.power with holdUp := some (now s) }, sec := { s.sec with debugOpened := false, jtagOpen := false } }
  if hubOn s then sweep .powerAbort 0 .nothing (if bound s then zeroAllKeys (signalDying 1 s) else s) else s

/-- FEED_LOST (12 R369-R371): below 45 V for 50 µs, or above 60 V; `otherMv` is the voltage of the other feed. -/
def feedLost (b : Bool) (otherMv : Nat) (s : State) : State :=
  if (feedOf s b).present then
    let s := modFeed b (fun _ => { present := false, mv := 0 }) s
    let s := modFeed (!b) (fun f => if f.present then { f with mv := otherMv } else f) s
    let s := feedTurns b false s
    if (feedOf s !b).present || s.power.holdUp.isSome then s else bothLost s
  else s

/-- Meaning of FEED_LOST. -/
def execFeedLost (feed : Bool) (otherMv : Nat) (s : State) : Host.Outcome State Fault Refusal := .next (feedLost feed otherMv s)

/-- HOLD_UP_END (12 R371, R372): at least 2 ms after the loss. With a feed present again a start with RESET_SOURCE 0 becomes due;
otherwise the module goes off. -/
def holdUpEnd (s : State) : State :=
  match s.power.holdUp with
  | none => s
  | some t0 =>
    if s.clk.sclk = true ∧ now s < t0 + 200000 then s
    else
      let s := { s with power := { s.power with holdUp := none } }
      if s.power.feedA.present || s.power.feedB.present then
        if s.clk.sclk then modDev (fun d => { d with on := true }) (moduleReset 0 s) else s
      else
        { s with clk := { s.clk with sclk := false, syspll := false }, dev := { s.dev with on := false },
                 link := { s.link with up := false }, sent := { s.sent with alive := false },
                 thermal := { s.thermal with tripped := none } }

/-- Meaning of HOLD_UP_END. -/
def execHoldUpEnd (s : State) : Host.Outcome State Fault Refusal := .next (holdUpEnd s)

/-! ### Dividers (01 R22, Table 1-7, 12 R368) -/

/-- The next divider: ÷4, ÷5, ÷6, ÷8. -/
def slower (d : Nat) : Nat := if d < 5 then 5 else if d < 6 then 6 else 8
def faster (d : Nat) : Nat := if 6 < d then 6 else if 5 < d then 5 else 4

/-- A core's divider settings change; a new divider is recorded (14 Table 14-6). -/
def setDivider (k : Nat) (f : Core → Core) (s : State) : State :=
  let t := modCore k f s
  if divider (coreOf t k) = divider (coreOf s k) then t else bobPost k 0x0017 (divider (coreOf t k)) t

/-- The power controller steps a core down from the divider it runs at, or one step up. -/
def stepDown (k : Nat) (s : State) : State := setDivider k (fun c => { c with powerDiv := slower (divider c) }) s
def stepUp (k : Nat) (s : State) : State := setDivider k (fun c => { c with powerDiv := faster c.powerDiv }) s

/-! ### Power windows (12 R365-R367, Table 9-15) -/

/-- Ticks of 10 ms and of 100 ms. -/
def tenMs : Nat := 1000000
def tenthTicks : Nat := 10000000

/-- The input power and the estimates of a window. -/
def measure (coreW blockW : List Nat) (mv : Nat × Nat) (s : State) : State :=
  let volts := fun (v : Nat) (f : Feed) => if f.present then { f with mv := v } else f
  { s with power := { s.power with coreW := coreW, blockW := blockW, feedA := volts mv.1 s.power.feedA,
                                   feedB := volts mv.2 s.power.feedB } }

/-- A 10 µs window: above 1,450 W every core steps down. -/
def fastWindow (mw : Nat) (s : State) : State :=
  let s := { s with power := { s.power with pFast := mw } }
  if 1450000 < mw then refreshThrottled ((List.range 8).foldl (fun s k => stepDown k s) s) else s

/-- A 1 ms window: 7 in succession above the cap begin stepping down; the coarsened total is refreshed every 100 ms. -/
def slowWindow (mw : Nat) (s : State) : State :=
  let p := s.power
  let overs := if p.capMw < mw then p.overs + 1 else 0
  let under := if mw + 50000 < p.capMw then some (p.underSince.getD (now s - 100000)) else none
  let due := p.coarseAt + tenthTicks ≤ now s
  { s with power := { p with pSlow := mw, overs := overs, stepping := p.stepping || decide (7 ≤ overs), underSince := under,
                             coarseW := if due then mw / 1000 / 25 * 25 else p.coarseW,
                             coarseAt := if due then now s else p.coarseAt } }

/-- POWER_WINDOW. -/
def powerWindow (slow : Bool) (mw : Nat) (coreW blockW : List Nat) (mv : Nat × Nat) (s : State) : State :=
  if !hubOn s then s
  else
    let s := measure coreW blockW mv s
    if slow then slowWindow mw s else fastWindow mw s

/-- Meaning of POWER_WINDOW. -/
def execPowerWindow (slow : Bool) (milliwatts : Nat) (coreW blockW : List Nat) (feedMv : Nat × Nat) (s : State) :
    Host.Outcome State Fault Refusal := .next (powerWindow slow milliwatts coreW blockW feedMv s)

/-- The core to step down: highest estimated power among those not at ÷8, lowest number first. -/
def hungriest (s : State) : Option Nat :=
  (sortBy (fun a b => decide (s.power.coreW.getD b 0 ≤ s.power.coreW.getD a 0))
    ((List.range 8).filter fun k => divider (coreOf s k) != 8)).head?

/-- POWER_STEP_DOWN (12 R367): one core each 100 µs, until the mean of the last 100 µs is below the cap. -/
def powerStepDown (mean : Nat) (s : State) : State :=
  if !hubOn s || !s.power.stepping then s
  else if mean < s.power.capMw then { s with power := { s.power with stepping := false, steppedAt := none, overs := 0 } }
  else if (s.power.steppedAt.any fun t => decide (now s < t + 10000)) then s
  else
    let s := { s with power := { s.power with steppedAt := some (now s) } }
    match hungriest s with
    | some k => refreshThrottled (stepDown k s)
    | none => s

/-- Meaning of POWER_STEP_DOWN. -/
def execPowerStepDown (mean100us : Nat) (s : State) : Host.Outcome State Fault Refusal := .next (powerStepDown mean100us s)

/-- The core to raise: the most throttled of those the controller holds down, lowest number first. -/
def mostThrottled (s : State) : Option Nat :=
  (sortBy (fun a b => decide (divider (coreOf s b) ≤ divider (coreOf s a)))
    ((List.range 8).filter fun k => decide (4 < (coreOf s k).powerDiv))).head?

/-- POWER_STEP_UP (12 R367): after 10 ms more than 50 W below the cap; then another 10 ms must pass. -/
def powerStepUp (s : State) : State :=
  match s.power.underSince with
  | none => s
  | some t =>
    if hubOn s = true ∧ t + tenMs ≤ now s then
      let s := { s with power := { s.power with underSince := some (now s) } }
      match mostThrottled s with
      | some k => refreshThrottled (stepUp k s)
      | none => s
    else s

/-- Meaning of POWER_STEP_UP. -/
def execPowerStepUp (s : State) : Host.Outcome State Fault Refusal := .next (powerStepUp s)

/-! ### Droop and margins (12 R384, R385, 14 R425) -/

/-- DROOP_STRETCH (12 R384). -/
def droop (k : Nat) (s : State) : State :=
  if hubOn s = true ∧ (coreOf s k).halted.isNone = true then
    modCore k (fun c => { c with stretches := c.stretches + 1, stretchCycles := 32 }) s
  else s

/-- Meaning of DROOP_STRETCH. -/
def execDroopStretch (core : Nat) (s : State) : Host.Outcome State Fault Refusal := .next (droop core s)

/-- A measure beyond WARN or ACT sets the bits and spoils the current 3,600 s window. -/
def markMargin (cls : Nat) (s : State) : State :=
  let s := { s with health := { s.health with margins :=
    { s.health.margins with warnDirty := s.health.margins.warnDirty || decide (1 ≤ cls),
                            actDirty := s.health.margins.actDirty || decide (2 ≤ cls) } } }
  let s := if 1 ≤ cls then setHealth 7 true s else s
  if 2 ≤ cls then setHealth 8 true s else s

/-- The worst class of a list of values of one measure (12 Table 12-9, 14 Table 14-12). -/
def worstClass (measure : Nat) (l : List Int) : Nat :=
  (l.map (marginClass (thresholds.getD measure (0, 0)))).foldl max 0

/-- The 3,600 s window ends: a bit whose threshold no window passed clears. -/
def closeHour (s : State) : State :=
  let m := s.health.margins
  if now s < m.window + 360000000000 then s
  else
    let s := if m.warnDirty then s else setHealth 7 false s
    let s := if m.actDirty then s else setHealth 8 false s
    { s with health := { s.health with margins :=
      { s.health.margins with warnDirty := false, actDirty := false, window := windowStart (now s) } } }

/-- MARGIN_WINDOW_END (12 R385): the 1 s window's lowest supply and slack of each core, and its optical samples, are judged. -/
def marginWindow (supply slack : List Nat) (s : State) : State :=
  if !hubOn s then s
  else
    let take := fun (s : State) (k : Nat) => modCore k (fun c =>
      { c with supplyMv := supply.getD k c.supplyMv, slackPs := slack.getD k c.slackPs, stretchLast := c.stretches,
               stretches := 0 }) s
    let s := (List.range 8).foldl take s
    let cls := max s.health.margins.optical
      (max (worstClass 0 (s.cores.map fun c => (c.supplyMv : Int))) (worstClass 1 (s.cores.map fun c => (c.slackPs : Int))))
    let s := markMargin cls s
    closeHour { s with health := { s.health with margins := { s.health.margins with optical := 0 } } }

/-- Meaning of MARGIN_WINDOW_END. -/
def execMarginWindowEnd (supplyMv slackPs : List Nat) (s : State) : Host.Outcome State Fault Refusal :=
  .next (marginWindow supplyMv slackPs s)

/-- New optical samples. -/
def takeOptical (tx rx : List Int) (s : State) : State :=
  let cls := max (worstClass 2 tx) (worstClass 3 rx)
  { s with health := { s.health with margins :=
    { s.health.margins with tx := tx, rx := rx, optical := max s.health.margins.optical cls } } }

/-- OPTICAL_SAMPLE (14 R425): while the transceiver is powered. -/
def opticalSample (tx rx : List Int) (s : State) : State := if hubOn s && opticsOn s then takeOptical tx rx s else s

/-- Meaning of OPTICAL_SAMPLE. -/
def execOpticalSample (tx rx : List Int) (s : State) : Host.Outcome State Fault Refusal := .next (opticalSample tx rx s)

end Sys2Proof.Machine
end

