-- ==== Sys2Proof/Machine/Thermal.lean ====
section
/-! DEFINITION. Sensors, throttling, halts, the hardware trip, coolant flow and orderly shutdown (12 R373-R383). -/
namespace Sys2Proof.Machine

/-! ### Readings (12 Table 12-5, R373) -/

/-- Range of a sensor, in 1/64 °C, flow in 0.001 L/min. -/
def sensorRange (i : Nat) : Int × Int :=
  if i < 0x2E then (-2560, 9600) else if i = 0x30 ∨ i = 0x31 then (0, 6400) else if i = 0x32 then (0, 6000) else (-2560, 8000)

/-- A reading, absent when out of range. -/
def withinRange (i : Nat) (v : Option Int) : Option Int :=
  v.filter fun x => decide ((sensorRange i).1 ≤ x ∧ x ≤ (sensorRange i).2)

/-- Every sensor but the flow takes a new reading. -/
def takeReadings (l : List (Option Int)) (s : State) : State :=
  let new := (List.range 52).map fun i => if i = 0x32 then sensorAt s i else withinRange i (l.getD i none)
  { s with thermal := { s.thermal with sensors := new } }

/-- The first die sensor at or above 115 °C. -/
def tripSensor (s : State) : Option Nat :=
  (List.range 0x2E).find? fun i => match sensorAt s i with
    | some v => decide (7360 ≤ v)
    | none => false

/-- Physical position of a logical core, 0 to 9 (01 R11). -/
def physical (s : State) (k : Nat) : Nat := 5 * (k / 4) + (positions s (k / 4)).getD (k % 4) 0

/-- The hot spot pair and the vector unit sensor of a core. -/
def hotA (s : State) (k : Nat) : Option Int := sensorAt s (2 * physical s k)
def hotB (s : State) (k : Nat) : Option Int := sensorAt s (2 * physical s k + 1)
def vectorSensor (s : State) (k : Nat) : Option Int := sensorAt s (0x14 + physical s k)

/-! ### SUSPECT pairs and Tj (12 R374, R375) -/

/-- A raw reading in units of 0.25 °C, 16 bits; 0x8000 where there is none (notes/assumptions 33). -/
def quarter (v : Option Int) : Nat :=
  match v with
  | some x => unsign 16 (x / 16)
  | none => 0x8000

/-- A pair is marked SUSPECT until the next start, and both readings recorded. -/
def markSuspect (k : Nat) (raw : List (Option Int)) (s : State) : State :=
  if (coreOf s k).suspect then s
  else
    let p := 2 * physical s k
    bobPost 0x10 0x0016 (quarter (raw.getD p none) + quarter (raw.getD (p + 1) none) * 2 ^ 16)
      (setHealth 4 true (modCore k (fun c => { c with suspect := true }) s))

/-- A pair is judged: one sensor out of range, or 100 ms with a difference above 6 K. -/
def judgePair (raw : List (Option Int)) (s : State) (k : Nat) : State :=
  match hotA s k, hotB s k with
  | some a, some b =>
    if 384 < a - b ∨ 384 < b - a then
      let t := ((coreOf s k).differSince).getD (now s)
      let s := modCore k (fun c => { c with differSince := some t }) s
      if t + tenthTicks ≤ now s then markSuspect k raw s else s
    else modCore k (fun c => { c with differSince := none }) s
  | none, none => modCore k (fun c => { c with bothOut := true, differSince := none }) s
  | _, _ => markSuspect k raw (modCore k (fun c => { c with differSince := none }) s)

/-- The value of a hot spot without the estimate: max(A, B), plus 3 K on a SUSPECT pair; none with both out of range. -/
def pairValue (s : State) (k : Nat) : Option Int :=
  let off : Int := if (coreOf s k).suspect then 192 else 0
  match hotA s k, hotB s k with
  | some a, some b => some (max a b + off)
  | some a, none => some (a + off)
  | none, some b => some (b + off)
  | none, none => none

/-- Neighbours of a core in its chain (01 R12). -/
def neighbours (k : Nat) : List Nat := (if k % 4 = 0 then [] else [k - 1]) ++ (if k % 4 = 3 then [] else [k + 1])

/-- Estimate E: 0.12 K/W is 7.68 units of 1/64 °C per W. A SUSPECT neighbour counts with its value without its own estimate
(notes/assumptions 34). -/
def estimate (s : State) (k : Nat) : Int :=
  let w := fun (j : Nat) => ((s.power.coreW.getD j 0 : Nat) : Int)
  let l := (neighbours k).filterMap fun j => (pairValue s j).map fun v => (v, w j)
  if l.isEmpty then (100 * (sensorAt s 0x31).getD 0 + 768 * w k) / 100
  else
    let n : Int := (l.length : Int)
    (100 * (l.map (·.1)).sum + 768 * (n * w k - (l.map (·.2)).sum)) / (100 * n)

/-- The value used for a hot spot. -/
def hotSpot (s : State) (k : Nat) : Option Int :=
  (pairValue s k).map fun v => if (coreOf s k).suspect then max v (estimate s k) else v

/-- Tj of a core; a sensor out of range is left out, and with none left the last value stays. -/
def tjOf (s : State) (k : Nat) : Int :=
  match hotSpot s k, vectorSensor s k with
  | some u, some v => max u v
  | some u, none => u
  | none, some v => v
  | none, none => (coreOf s k).tj

/-! ### Throttling and halts (12 Table 12-6, R376, R379) -/

/-- The ceiling that a Tj asks for, at least. -/
def ceilingFor (t : Int) : Nat := if 6720 ≤ t then 6 else if 6400 ≤ t then 5 else 4

/-- The Tj below which a core's ceiling rises, or a halted core serves. -/
def releaseBelow (c : Core) : Int := if c.halted = some .tj ∨ c.ceiling = 6 then 6400 else 6080

/-- A new Tj: the ceiling is lowered where it crosses a threshold, and the time below the release threshold runs. -/
def throttle (k : Nat) (t : Int) (s : State) : State :=
  let s := setDivider k (fun c => { c with tj := t, ceiling := max c.ceiling (ceilingFor t) }) s
  let s := if 7040 ≤ t ∧ (coreOf s k).halted = none then haltCore k .tj s else s
  let s := if (coreOf s k).bothOut && ((coreOf s k).halted.isNone || (coreOf s k).halted == some .tj) then haltCore k .sensors s else s
  let time := fun (c : Core) =>
    { c with below := if t < releaseBelow c ∧ (4 < c.ceiling ∨ c.halted = some .tj) then some (c.below.getD (now s)) else none }
  modCore k time s

/-! ### Hardware trip (12 R380) -/

/-- The trip: DYING, the THERMAL_ABORT sweep, every key zeroed (14 Table 14-14), and power cut to everything but the hub; the hub follows when the sweep ends. -/
def trip (i : Nat) (s : State) : State :=
  let s := bobPost 0x1D 0x001B i (signalDying 2 s)
  let s := zeroAllKeys (sweep .thermalAbort 0 .cutHub s)
  { s with thermal := { s.thermal with tripped := some i, hold := none, drain := none } }

/-! ### Coolant (12 R377, R381, R382) -/

/-- Flow regimes apply while the module serves or updates. -/
def flowGoverned (s : State) : Bool :=
  hubOn s && s.thermal.tripped.isNone && (serving s || s.dev.state == .updating)

/-- A shutdown begun by falling flow is overridden by a coolant stop (12 R383). -/
def endFlowStop (s : State) : State :=
  modDev (fun d => { d with stopping := if d.stopping = some .flow then none else d.stopping }) s

/-- A coolant stop. -/
def coolantStop (s : State) : State :=
  if s.thermal.hold.isSome || !flowGoverned s then s
  else
    let h : Hold := { t0 := now s, bound := bound s, okSince := none }
    let s := signalDying 3 (endFlowStop s)
    sweep .thermalAbort 0 .nothing { s with thermal := { s.thermal with hold := some h, drain := none } }

/-- An orderly shutdown: admission stops, and admitted requests run for at most 500 ms. -/
def orderlyShutdown (s : State) : State :=
  if s.thermal.drain.isSome || !flowGoverned s then s
  else
    let s := signalDying 7 s
    modDev (fun d => { d with stopping := some (d.stopping.getD .flow) })
      { s with thermal := { s.thermal with drain := some (now s) } }

/-- The outlet has risen by more than 0.2 K since the last sample at least 100 ms old. -/
def outletRises (s : State) (v : Int) : Bool :=
  match s.thermal.outlets.find? fun e => decide (e.1 + tenthTicks ≤ now s) with
  | some e => decide (128 < 10 * (v - e.2))
  | none => false

/-- Samples newest first, those older than a time dropped after the first such. -/
def keepSince {α : Type} (t : Tick) : List (Tick × α) → List (Tick × α)
  | [] => []
  | e :: r => if e.1 ≤ t then [e] else e :: keepSince t r

/-- The outlet temperature is judged and kept. -/
def judgeOutlet (s : State) : State :=
  match sensorAt s 0x31 with
  | none => s
  | some v =>
    let rises := outletRises s v
    let s := { s with thermal :=
      { s.thermal with outlets := keepSince (now s - tenthTicks) ((now s, v) :: s.thermal.outlets) } }
    if rises then coolantStop s else s

/-- SENSOR_SAMPLE (12 R373-R376, R380, R381). In HALF_MAST and SHUTDOWN only the trip remains (R382). -/
def sensorSample (raw : List (Option Int)) (s : State) : State :=
  if !s.clk.sclk then s
  else
    let s := takeReadings raw s
    if s.thermal.tripped.isSome then s
    else
      match tripSensor s with
      | some i => if s.dev.on then trip i s else s
      | none =>
        if s.dev.state = .halfMast ∨ s.dev.state = .shutdown ∨ s.dev.on = false then s
        else
          let s := (List.range 8).foldl (judgePair raw) s
          let tjs := (List.range 8).map (tjOf s)
          let s := (List.range 8).foldl (fun s k => throttle k (tjs.getD k 0) s) s
          judgeOutlet (refreshThrottled s)

/-- Meaning of SENSOR_SAMPLE. -/
def execSensorSample (readings : List (Option Int)) (s : State) : Host.Outcome State Fault Refusal :=
  .next (sensorSample readings s)

/-- THROTTLE_RELEASE (12 R376): a halted core after 100 ms, serving again at ÷6; a ceiling after 10 ms, one step. -/
def throttleRelease (k : Nat) (s : State) : State :=
  match (coreOf s k).below with
  | none => s
  | some t =>
    if (coreOf s k).halted = some .tj then
      if t + tenthTicks ≤ now s then serveCore k (setDivider k (fun c => { c with ceiling := 6 }) s) else s
    else if t + tenMs ≤ now s then
      refreshThrottled (setDivider k (fun c => { c with ceiling := faster c.ceiling, below := none }) s)
    else s

/-- Meaning of THROTTLE_RELEASE. -/
def execThrottleRelease (core : Nat) (s : State) : Host.Outcome State Fault Refusal := .next (throttleRelease core s)

/-- A migrated part can return: its core serves, and no request of the pattern is at work on the other core. -/
def canReturn (s : State) (pi o j : Nat) : Bool :=
  (coreOf s o).halted.isNone &&
    !(s.reqs.any fun e => e.2.pattern = pi && inFlightState e.2.st && e.2.cores.contains j)

/-- MIGRATION_RETURN (12 R379). -/
def migrationReturn (pi : Nat) (s : State) : State :=
  if hubOn s then modPat pi (fun p => { p with migrated := p.migrated.filter fun e => !canReturn s pi e.1 e.2 }) s else s

/-- Meaning of MIGRATION_RETURN. -/
def execMigrationReturn (pattern : Nat) (s : State) : Host.Outcome State Fault Refusal := .next (migrationReturn pattern s)

/-- A flow sample below 0.3 L/min after one at or above 1.2 L/min within 50 ms. -/
def flowStops (s : State) (f : Nat) : Bool :=
  f < 300 && s.thermal.flows.any fun e => decide (1200 ≤ e.2 ∧ now s ≤ e.1 + 5000000)

/-- FLOW_SAMPLE (12 R373, R381). -/
def flowSample (f : Option Nat) (s : State) : State :=
  if !hubOn s then s
  else
    let r := withinRange 0x32 (f.map fun v => (v : Int))
    let s := { s with thermal := { s.thermal with sensors := s.thermal.sensors.set 0x32 r } }
    match r with
    | none => s
    | some v =>
      let stops := flowStops s v.toNat
      let s := { s with thermal := { s.thermal with flows :=
        ((now s, v.toNat) :: s.thermal.flows).filter fun e => decide (now s ≤ e.1 + 5000000) } }
      if stops then coolantStop s else s

/-- Meaning of FLOW_SAMPLE. -/
def execFlowSample (mlPerMin : Option Nat) (s : State) : Host.Outcome State Fault Refusal := .next (flowSample mlPerMin s)

/-- The power cap, in mW, at a mean flow of at least 1.2 L/min (12 R377). -/
def capFor (f : Nat) : Nat := if 2000 ≤ f then 1300000 else 600000 + (f - 1200) * 875

/-- While held, the time that F has stayed at 2.0 L/min. -/
def holdFlow (f : Nat) (s : State) : State :=
  match s.thermal.hold with
  | none => s
  | some h =>
    let h' : Hold := { h with okSince := if 2000 ≤ f then some (h.okSince.getD (now s)) else none }
    { s with thermal := { s.thermal with hold := some h' } }

/-- FLOW_CAP_UPDATE (12 R377, R382): every 100 ms, from the mean of the last 1 s. -/
def flowCapUpdate (f : Nat) (s : State) : State :=
  if !hubOn s || s.dev.state == .halfMast || s.dev.state == .shutdown then s
  else if f < 1200 then
    let s := holdFlow f s
    if s.thermal.hold.isSome then s else orderlyShutdown s
  else
    holdFlow f (setHealth 2 (decide (capFor f < 1300000)) { s with power := { s.power with capMw := capFor f } })

/-- Meaning of FLOW_CAP_UPDATE. -/
def execFlowCapUpdate (meanMlPerMin : Nat) (s : State) : Host.Outcome State Fault Refusal := .next (flowCapUpdate meanMlPerMin s)

/-- The drain is over: 500 ms have passed, a hold has left nothing to drain, or every admitted request has its final reply. -/
def drainOver (s : State) (t0 : Tick) : Bool :=
  decide (t0 + 50000000 ≤ now s) || s.thermal.hold.isSome || (liveReqs s fun r => !leftToPartner s r.mirror).isEmpty

/-- ORDERLY_SHUTDOWN_DRAIN_END (12 R382): the requests left are swept, units are cut off, and DEVICE_STATE is SHUTDOWN. -/
def drainEnd (s : State) : State :=
  match s.thermal.drain with
  | none => s
  | some t0 =>
    if hubOn s && drainOver s t0 then
      let s := setDevState .shutdown (endFlowStop (sweep .thermalAbort 0 .nothing s))
      { s with thermal := { s.thermal with drain := none, hold := none } }
    else s

/-- Meaning of ORDERLY_SHUTDOWN_DRAIN_END. -/
def execOrderlyShutdownDrainEnd (s : State) : Host.Outcome State Fault Refusal := .next (drainEnd s)

/-- Ticks of 1 s and of 10 s. -/
def secondTicks : Nat := 100000000
def tenSeconds : Nat := 1000000000

/-- COOLANT_HOLD_END (12 R381): F has stayed at 2.0 L/min for 1 s within 10 s of the stop. -/
def holdEnd (s : State) : State :=
  match s.thermal.hold with
  | none => s
  | some h =>
    match h.okSince with
    | none => s
    | some t =>
      if hubOn s = true ∧ s.thermal.drain = none ∧ t + secondTicks ≤ now s ∧ now s ≤ h.t0 + tenSeconds then
        refreshService { s with thermal := { s.thermal with hold := none } }
      else s

/-- Meaning of COOLANT_HOLD_END. -/
def execCoolantHoldEnd (s : State) : Host.Outcome State Fault Refusal := .next (holdEnd s)

/-- COOLANT_HOLD_TIMEOUT (12 R381): at 10 s without flow, an orderly shutdown. -/
def holdTimeout (s : State) : State :=
  match s.thermal.hold with
  | none => s
  | some h => if h.t0 + tenSeconds ≤ now s then orderlyShutdown s else s

/-- Meaning of COOLANT_HOLD_TIMEOUT. -/
def execCoolantHoldTimeout (s : State) : Host.Outcome State Fault Refusal := .next (holdTimeout s)

end Sys2Proof.Machine
end

