-- ==== Sys2Proof/Machine/Memory.lean ====
section
/-! DEFINITION. LPDDR4X, SRAM and flash: the address map, refresh, retraining, scrubbing, errors met by accesses, repairs, and faults
of links, halves and channels (01 R9, R16-R18, 05 R161, R169, 08 R240-R271, 09 R288). -/
namespace Sys2Proof.Machine

/-! ### The address map (08 R240-R243) -/

/-- Bytes of data of a channel. -/
def channelBytes : Nat := 2013265920

/-- Top of the half-local space with n channels in service. -/
def halfBytes (n : Nat) : Nat := n * channelBytes

/-- Bank, row of the bank and column of a granule (R243). -/
def rowOf (c : Nat) : Nat := c / 15
def bankOf (c : Nat) : Nat := (rowOf c % 8) ^^^ (rowOf c / 8 % 8)
def bankRowOf (c : Nat) : Nat := rowOf c / 8
def columnOf (c : Nat) : Nat := 128 * (c % 15)
def checkColumnOf (c : Nat) : Nat := 1920 + 8 * (c % 15)

/-! ### Counts (08 R246, R247, 14 Table 14-8) -/

def modChannel (ch : Nat) (f : Channel → Channel) (s : State) : State :=
  { s with mem := { s.mem with channels := tset s.mem.channels ch (f (chanOf s ch)) } }

/-- The controllers run: the half is powered and in use. -/
def channelRuns (s : State) (ch : Nat) : Bool :=
  coresClocked s && s.mem.inService.getLsbD ch && !(halfOf s (ch / 64)).faulted

/-- A line is corrected; past 64 in the window ECC_WARN is set. -/
def countCorrected (ch : Nat) (s : State) : State :=
  let s := tally 0x0030 ch 1 (modChannel ch (fun c => { c with corrected := c.corrected + 1 }) s)
  if 64 < (chanOf s ch).corrected then setHealth 9 true { s with mem := { s.mem with eccClean := false } } else s

/-- An uncorrectable line: recorded by the half's Isaush-M, and past 16 in the window the channel leaves service (08 R250,
R253, R268). -/
def countUncorrectable (ch line : Nat) (s : State) : State :=
  let s := modChannel ch (fun c => { c with uncorrectable := c.uncorrectable + 1 }) s
  let s := bobPost (0x0A + ch / 64) 0x0010 (lineIndex s ch line) { s with mem := { s.mem with badLines := (ch, line) :: s.mem.badLines } }
  if 16 < (chanOf s ch).uncorrectable then channelLeaves ch s else s

/-- ECC_WINDOW_END (08 R247): the 3,600 s window is over. -/
def eccWindowEnd (s : State) : State :=
  if hubOn s = false ∨ now s < s.mem.eccWindow + 360000000000 then s
  else
    let s := if s.mem.eccClean then setHealth 9 false s else s
    let zero := fun (_ : Nat) (c : Channel) => { c with corrected := 0, uncorrectable := 0 }
    { s with mem := { s.mem with channels := tmap s.mem.channels zero, eccWindow := windowStart (now s), eccClean := true } }

/-- Meaning of ECC_WINDOW_END. -/
def execEccWindowEnd (s : State) : Host.Outcome State Fault Refusal := .next (eccWindowEnd s)

/-! ### Refresh, retraining, scrubbing (08 R248-R251, R256, R262) -/

/-- LPDDR_REFRESH (08 R248): it stalls accesses, and changes nothing else. -/
def refresh (ch : Nat) (s : State) : State :=
  if s.clk.sclk && s.mem.inService.getLsbD ch then modChannel ch (fun c => { c with refreshAt := now s }) s else s

/-- Meaning of LPDDR_REFRESH. -/
def execLpddrRefresh (channel : Nat) (s : State) : Host.Outcome State Fault Refusal := .next (refresh channel s)

/-- An eye measurement is kept and judged (14 R425). -/
def takeEye (ch : Nat) (eye : Option (Nat × Nat)) (s : State) : State :=
  match eye with
  | none => s
  | some (w, h) =>
    markMargin (max (worstClass 4 [(w : Int)]) (worstClass 5 [(h : Int)]))
      (modChannel ch (fun c => { c with eyeW := w, eyeH := h }) s)

/-- A channel is in its refresh, of 380 ns (08 R248). -/
def refreshing (s : State) (ch : Nat) : Bool := decide (now s < (chanOf s ch).refreshAt + 38)

/-- RETRAINING (08 R249), only during a refresh: a second failure in succession takes the channel out of service. -/
def retraining (ch : Nat) (ok : Bool) (eye : Option (Nat × Nat)) (s : State) : State :=
  if !channelRuns s ch || !refreshing s ch then s
  else if ok then takeEye ch eye (modChannel ch (fun c => { c with retrainFails := 0 }) s)
  else
    let s := modChannel ch (fun c => { c with retrainFails := c.retrainFails + 1 }) s
    if 2 ≤ (chanOf s ch).retrainFails then channelLeaves ch s else s

/-- Meaning of RETRAINING. -/
def execRetraining (channel : Nat) (ok : Bool) (eye : Option (Nat × Nat)) (s : State) : Host.Outcome State Fault Refusal :=
  .next (retraining channel ok eye s)

/-- What the controller makes of a read of a line (08 R244): one symbol is corrected; two or three, another line than the one addressed, and
a line whose error has not been repaired are uncorrectable. -/
def eccOf (s : State) (ch line : Nat) (r : LineRead) : EccResult :=
  if r.wrongLine || s.mem.badLines.contains (ch, line) then .uncorrectable
  else
    match r.symbols with
    | 0 => .clean
    | 1 => .corrected
    | 2 | 3 => .uncorrectable
    | n => Config.manySymbols n

/-- LPDDR_SCRUB (08 R250). -/
def lpddrScrub (ch line : Nat) (r : LineRead) (s : State) : State :=
  if !channelRuns s ch || looped s 1 ch then s
  else
    match eccOf s ch line r with
    | .clean => s
    | .corrected => countCorrected ch s
    | .uncorrectable => countUncorrectable ch line s

/-- Meaning of LPDDR_SCRUB. -/
def execLpddrScrub (channel line : Nat) (r : LineRead) (s : State) : Host.Outcome State Fault Refusal :=
  .next (lpddrScrub channel line r s)

/-- Both copies of a sentinel entry are uncorrectable (08 R257). -/
def loseEntry (slot : Nat) (s : State) : State :=
  if (tget s.sent.entries slot).isSome then bobPost 0x16 0x0015 slot (modEntry slot (fun e => { e with lost := true }) s) else s

/-- SRAM_SCRUB (08 R256): a corrected word is counted, an uncorrectable one recorded; one of the sentinel's table in both copies
loses the entry. -/
def sramScrub (unit word : Nat) (r : EccResult) (slot : Option Nat) (s : State) : State :=
  if !hubOn s then s
  else
    match r with
    | .clean => s
    | .corrected => tally 0x0031 unit 1 s
    | .uncorrectable =>
      let s := bobPost unit 0x0010 word s
      match slot with
      | some k => loseEntry k s
      | none => s

/-- Meaning of SRAM_SCRUB. -/
def execSramScrub (unit word : Nat) (r : EccResult) (sentinelSlot : Option Nat) (s : State) :
    Host.Outcome State Fault Refusal := .next (sramScrub unit word r sentinelSlot s)

/-- FLASH_PATROL (08 R262): corrected codewords count, one for the block (notes/assumptions 35); a block that needed heavy
correction moves within the store; an uncorrectable one damages its pattern. -/
def flashPatrol (pattern block : Nat) (r : EccResult) (_heavy : Bool) (s : State) : State :=
  match tget s.pats pattern with
  | none => s
  | some _ =>
    if !diesOn s || looped s 5 (flashOf pattern block) then s
    else
      match r with
      | .clean => s
      | .corrected => tally 0x0032 (flashOf pattern block) 1 s
      | .uncorrectable => bobPost 0x19 0x0010 block (modPat pattern (fun p => { p with damaged := some (ldpcEnd pattern block) }) s)

/-- Meaning of FLASH_PATROL. -/
def execFlashPatrol (pattern block : Nat) (r : EccResult) (heavy : Bool) (s : State) : Host.Outcome State Fault Refusal :=
  .next (flashPatrol pattern block r heavy s)

/-- A line of LPDDR4X that the module repairs: one of a staged pattern that is not DAMAGED (08 R270, Table 8-8). -/
def repairable (s : State) (ch line : Nat) : Bool :=
  match tget s.pages (pageKey (ch / 64) (lineIndex s ch line / 1024)) with
  | some { use := .pattern i, .. } => (tget s.pats i).any fun p => p.damaged.isNone
  | _ => false

/-- ECC_REPAIR_COMPLETE (08 R270): the line has fresh check bytes; a line of any other object stays as it is until it is written whole. -/
def repaired (half unit arg : Nat) (s : State) : State :=
  if repairable s (64 * half + unit) arg then
    { s with mem := { s.mem with badLines := s.mem.badLines.filter fun e => e != (64 * half + unit, arg) } }
  else s

/-- Meaning of ECC_REPAIR_COMPLETE. -/
def execEccRepairComplete (half unit arg : Nat) (s : State) : Host.Outcome State Fault Refusal := .next (repaired half unit arg s)

/-! ### Errors met by an access (08 R268, Tables 8-6 to 8-8, 05 R161, 09 R288) -/

/-- The access withholds its data: the command concerned ends, and its work stops. -/
def endTarget (t : Option Target) (st : Status) (d : Nat) (s : State) : State :=
  match t with
  | none => s
  | some (.req slot) => endReq slot st d (modReq slot (fun r => { r with stopped := true }) s)
  | some (.cmd cid) =>
    match tget s.cmds cid with
    | some c => if c.phase == .replied then s else refuse cid st d (dropWork cid s)
    | none => s

/-- The unit that records an uncorrectable error, by source (14 Table 14-4, 08 Table 8-7). -/
def errorUnit (source half unit : Nat) : Nat :=
  match source with
  | 1 => 0x0A + half
  | 2 => unit
  | 3 => 0x0C + half
  | 5 => 0x19
  | _ => 0x10

/-- An entry of a sequence is committed: its position lies below COMMITTED_LEN, whatever store holds it (05 R161). -/
def committedAt (s : State) (i pos : Nat) : Bool := ((tget s.seqs i).map fun q => decide (pos < q.committed)).getD false

/-- What the struck object suffers beyond the command that met the error (08 Table 8-8, 05 R161). -/
def strike (obj : MemObject) (d : Nat) (s : State) : State :=
  match obj with
  | .kv i pos => if committedAt s i pos then breakSeq i s else s
  | .pageList i => breakSeq i s
  | .requestEntry slot => endTarget (some (.req slot)) .dataError d s
  | .sentinelEntry slot => loseEntry slot s
  | _ => s

/-- An error whose bobbin record names what the step does not carry: a free value (notes/assumptions 6). -/
def recordUnknown (unit : Nat) (s : State) : State := stepFree (bobPost unit 0x0010 ((freeWord s).toNat % 2 ^ 32) s)

/-- MEMORY_ERROR_ON_ACCESS. -/
def memoryError (t : Option Target) (e : MemError) (s : State) : State :=
  if !hubOn s then s
  else
    match e with
    | .lpddr ch line r obj =>
      match eccOf s ch line r with
      | .clean => s
      | .corrected => countCorrected ch s
      | .uncorrectable =>
        let d := dataDetail 1 (ch / 64) (ch % 64)
        countUncorrectable ch line (strike obj d (endTarget t .dataError d s))
    | .sramCorrected unit => tally 0x0031 unit 1 s
    | .uncorrectable source half unit arg obj =>
      let d := dataDetail source half unit
      let s := strike obj d (endTarget t .dataError d s)
      if source = 1 then countUncorrectable (64 * half + unit) arg s else bobPost (errorUnit source half unit) 0x0010 arg s
    | .crcBoundary unit => recordUnknown unit (endTarget t .integrityMismatch 0x10001 s)
    | .aesMismatch => recordUnknown 0x17 (endTarget t .integrityMismatch 0x10002 s)
    | .pageOwner half page => bobPost (0x0A + half) 0x0014 page (endTarget t .accessDenied 3 s)

/-- Meaning of MEMORY_ERROR_ON_ACCESS. -/
def execMemoryErrorOnAccess (t : Option Target) (e : MemError) (s : State) : Host.Outcome State Fault Refusal :=
  .next (memoryError t e s)

/-! ### Faults of links, halves and channels (01 R9, R16, R18, 08 R253, R254) -/

/-- CHANNEL_PHY_FAULT (08 R253). -/
def phyFault (ch : Nat) (s : State) : State := if channelRuns s ch then channelLeaves ch s else s

/-- Meaning of CHANNEL_PHY_FAULT. -/
def execChannelPhyFault (channel : Nat) (s : State) : Host.Outcome State Fault Refusal := .next (phyFault channel s)

/-- HALF_MAP_REBUILT (08 R242, R253): the half serves again over the channels left. -/
def mapRebuilt (h : Nat) (s : State) : State :=
  if (halfOf s h).rebuilding then rotate (modHalf h (fun x => { x with rebuilding := false }) s) else s

/-- Meaning of HALF_MAP_REBUILT. -/
def execHalfMapRebuilt (half : Nat) (s : State) : Host.Outcome State Fault Refusal := .next (mapRebuilt half s)

/-- HALF_FAULT (01 R16, R18). -/
def faultHalf (h : Nat) (s : State) : State := if diesOn s then halfFault h s else s

/-- Meaning of HALF_FAULT. -/
def execHalfFault (half : Nat) (s : State) : Host.Outcome State Fault Refusal := .next (faultHalf half s)

/-- DIE_LINK_FAULT (01 R9): a half's links fault the half; the bridge's traffic moves to the hub paths. -/
def dieLinkFault (l : DieLink) (s : State) : State :=
  if !diesOn s then s
  else
    match l with
    | .memory h => halfFault h s
    | .hub h => halfFault h s
    | .bridge => refreshService (setHealth 10 true { s with mem := { s.mem with bridgeDown := true } })

/-- Meaning of DIE_LINK_FAULT. -/
def execDieLinkFault (l : DieLink) (s : State) : Host.Outcome State Fault Refusal := .next (dieLinkFault l s)

/-- RECOVERY_WINDOW_CLOSE (05 R169): the half's pricking stores are rebuilt: the shared diagonal tile, and the PATTERN prickings of its resident
patterns. -/
def windowClose (h : Nat) (s : State) : State :=
  if (halfOf s h).window then modHalf h (fun x => stockPricks s h { x with window := false, diagonal := diagonalTile }) s else s

/-- Meaning of RECOVERY_WINDOW_CLOSE. -/
def execRecoveryWindowClose (half : Nat) (s : State) : Host.Outcome State Fault Refusal := .next (windowClose half s)

end Sys2Proof.Machine
end

