-- ==== Sys2Proof/Machine/Halo.lean ====
section
/-! DEFINITION. Halo rows, the end of a frame, and moving band boundaries (06 R195-R209). -/
namespace Sys2Proof.Machine

/-! ### Waits (06 R204, R206) -/

def modStage (k : Nat) (f : Stage → Stage) (s : State) : State := { s with stages := tmod s.stages k f }

/-- A core of a stage begins to wait, or goes on waiting. -/
def waitOn (pi k : Nat) (s : State) : State :=
  modStage (stageKey pi (halfOfCore k)) (fun g => if (tget g.waits k).isSome then g else { g with waits := tset g.waits k (now s) }) s

/-- A core of a stage waits no more: the ticks count in the frame and in HALO_WAIT_TICKS (14 Table 14-8). -/
def stopWait (pi k : Nat) (s : State) : State :=
  match (tget s.stages (stageKey pi (halfOfCore k))).bind fun g => tget g.waits k with
  | none => s
  | some t0 =>
    profile 0x0101 k (now s - t0) (modStage (stageKey pi (halfOfCore k))
      (fun g => { g with waits := tdel g.waits k, waited := tset g.waited k (tgetD g.waited k 0 + (now s - t0)) }) s)

/-! ### Rows (06 R200, R201, Table 6-6) -/

/-- A producer sends the rows of a queue in ascending ROW order. -/
def inOrder (q : HaloPath) (row : Nat) : Bool := match q.last with
  | some r => decide (r < row)
  | none => true

/-- The core that produces a path's rows: under a reduced plan the core beyond the halted one (06 R205). -/
def producer (s : State) (path : Nat) : Nat :=
  let c := pathFrom path
  if reducedCore s (pathPattern path) (halfOfCore c) = some c then (if pathDown path then c - 1 else c + 1) else c

/-- A row that a producer may send: its band holds it, its consumer needs it, and the producer is not halted (06 R196, R205). -/
def rowDue (s : State) (path row layer : Nat) : Bool :=
  let pi := pathPattern path
  match tget s.pats pi with
  | none => false
  | some p =>
    match p.plan.conv[layer]? with
    | none => false
    | some l => holdsRow s pi p.plan (producer s path) layer row && rowNeeded s pi p.plan (consumer s path) layer row l &&
        (coreOf s (producer s path)).halted.isNone

/-- HALO_ROW_WRITE (06 R200, Table 6-6 step 2): with a credit, header and payload go into the tail slot; without one the producer waits. -/
def haloWrite (path frame row layer bytes : Nat) (down : Bool) (data : Nat) (s : State) : State :=
  let q := haloOf s path layer
  let pi := pathPattern path
  let k := producer s path
  if !(runningFrame s pi (pathHalf path) = some frame && inOrder q row && down = pathDown path && rowDue s path row layer) then s
  else if q.credits = 0 then waitOn pi k s
  else
    let r : HaloRow := { frame := frame, row := row, layer := layer, bytes := bytes, down := down, data := data % 2 ^ (8 * bytes) }
    let q' := { q with full := q.full ++ [r], credits := q.credits - 1, last := some row }
    stopWait pi k { s with halo := tset s.halo (haloKey path layer) q' }

/-- Meaning of HALO_ROW_WRITE. -/
def execHaloRowWrite (path frame row layer bytes : Nat) (down : Bool) (data : Nat) (s : State) : Host.Outcome State Fault Refusal :=
  .next (haloWrite path frame row layer bytes down data s)

/-- Every slot of a pattern's frame in a half is EMPTY again, and every credit back (06 R202). -/
def flushHalf (pi h : Nat) (s : State) : State :=
  { s with halo := s.halo.filter fun e => !(pathPattern (e.1 / 256) = pi && pathHalf (e.1 / 256) = h) }

/-- The requests whose frame runs on a pattern's stages end, and their work stops. -/
def faultFrame (pi : Nat) (s : State) : State :=
  let l := (s.reqs.filter fun e => e.2.pattern = pi && occupies e.2).map Prod.fst
  l.foldl (fun s k => endTarget (some (.req k)) .integrityMismatch 0 s) s

/-- HALO_ROW_READ (06 R201, Table 6-6 steps 3 and 4): an EMPTY head is waited for; a FULL one that matches is taken after its last tap, and
its credit returns; one with another header is a fault. -/
def haloRead (path frame row layer : Nat) (s : State) : State :=
  let q := haloOf s path layer
  let pi := pathPattern path
  let k := consumer s path
  if !(patBusy s pi && coresClocked s && (coreOf s k).halted.isNone) then s
  else
    match q.full with
    | [] => if runningFrame s pi (halfOfCore k) = some frame then waitOn pi k s else s
    | r :: rest =>
      if r.frame = frame ∧ r.row = row ∧ r.layer = layer then
        stopWait pi k { s with halo := tset s.halo (haloKey path layer) { q with full := rest, credits := q.credits + 1 } }
      else
        bobPost k 0x0013 (row % 2 ^ 16 + layer % 2 ^ 8 * 2 ^ 16) (flushHalf pi 1 (flushHalf pi 0 (faultFrame pi s)))

/-- Meaning of HALO_ROW_READ. -/
def execHaloRowRead (path frame row layer : Nat) (s : State) : Host.Outcome State Fault Refusal :=
  .next (haloRead path frame row layer s)

/-! ### The end of a frame (06 R202, R205-R207) -/

/-- Ticks that each core of a half's stage was busy on the frame: those it spent on it, less those it waited (06 R206). -/
def busyTimes (p : Plan) (h : Nat) (g : Stage) (spent : List Nat) : List Nat :=
  ((bandsNow p h g).map (·.1)).zipIdx.map fun e => spent.getD e.2 0 - tgetD g.waited e.1 0

/-- New heights of a half's bands at a frame boundary, of the plan that runs (06 R206, R207): measured on a frame that ended with its last
output row. -/
def movedHeights (p : Plan) (h : Nat) (g : Stage) (spent : List Nat) (lastRow : Bool) : List Nat :=
  let plan := (planOf p h g.reduced).map (·.2)
  let i := if p.striped && h = 1 then (planCores p 0).length else 0
  let least := (List.range plan.length).map fun j => leastHeight p (p.cores.length - bit g.reduced.isSome) (i + j)
  if lastRow && p.rebalance then (rebalance least g.heights plan (busyTimes p h g spent)).getD g.heights else g.heights

/-- A frame may end: its last output row is written, or no request runs it any more (06 R202). -/
def frameOver (s : State) (pi : Nat) (lastRow : Bool) : Bool := lastRow || !patBusy s pi

/-- Every half of a stage has flushed the frame that ended: the next may begin, under the plan chosen now (06 R202, R205). -/
def nextFrame (pi : Nat) (s : State) : State :=
  if (s.stages.filter fun e => e.1 / 2 = pi).all fun e => e.2.flushed then
    let turn := fun (k : Nat) (g : Stage) =>
      let g' := { g with frame := (g.frame + 1) % 2 ^ 32, began := none, flushed := false, waited := [], waits := [] }
      match tget s.pats pi with
      | some p => if k / 2 = pi then withPlan p.plan (k % 2) (reducedFor s pi (k % 2)) g' else g
      | none => g
    { s with stages := tmap s.stages turn }
  else s

/-- FRAME_END (06 R202, R205-R207): a half's slots are flushed and its band boundaries may move; no core begins the next frame until every
core of the plan has flushed. -/
def frameEnd (pi h : Nat) (spent : List Nat) (lastRow : Bool) (s : State) : State :=
  match tget s.stages (stageKey pi h), tget s.pats pi with
  | some g, some p =>
    if g.flushed || g.began.isNone || !frameOver s pi lastRow then s
    else
      nextFrame pi (flushHalf pi h
        (modStage (stageKey pi h) (fun g => { g with heights := movedHeights p.plan h g spent lastRow, flushed := true }) s))
  | _, _ => s

/-- Meaning of FRAME_END. -/
def execFrameEnd (pattern half : Nat) (spent : List Nat) (lastRow : Bool) (s : State) : Host.Outcome State Fault Refusal :=
  .next (frameEnd pattern half spent lastRow s)

end Sys2Proof.Machine
end

