-- ==== Sys2Proof/Machine/Decoder.lean ====
section
/-! DEFINITION. What a decode engine makes of a picture's bitstream (07 R218, R228 to R232): parameter sets in force, checks of parsed values,
writes and reads confined to the pool, damaged units and their concealment. What the standards compute from a sound bitstream comes as the
writes of its units (notes/assumptions 21). -/
namespace Sys2Proof.Machine

/-! ### Values parsed and parameter sets (07 R218, R229) -/

/-- Every element lies in its range. -/
def inRanges (l : List Parsed) : Bool := l.all fun e => decide (e.2.1 ≤ e.1 ∧ e.1 ≤ e.2.2)

/-- HEVC NAL units with nuh_layer_id above 0 are discarded (07 R218). -/
def layerKept (codec layer : Nat) : Bool := codec != 0 || layer == 0

/-- A parameter set comes into force; one that fails is discarded, and what it would have replaced stays (07 R229). -/
def takeSet (codec : Nat) (l : Tbl ParamSet) (r : SetRead) : Tbl ParamSet :=
  if layerKept codec r.layer && inRanges r.elems then tset l r.id r.body else l

def takeSets (x : Stream) (p : PictureHead) : Stream := { x with sets := p.sets.foldl (takeSet x.codec) x.sets }

/-- What a stream declares, in the place of a parameter set that is not there: its units have 16 luma samples a side, nothing is signalled
(DESIGN CHOICE, notes/assumptions 119). -/
def declaredSet (x : Stream) : ParamSet :=
  { profile := x.profile, width := x.width, height := x.height, bits := x.bits, refs := x.maxRef, unit := 16, highTier := false,
    interlaced := false, mono := false, fullRange := false, colour := 2,
    window := BitVec.ofNat 64 (x.width * 2 ^ 32 + x.height * 2 ^ 48) }

/-- The parameter set that a picture activates. -/
def setOf (x : Stream) (p : PictureHead) : ParamSet := (tget x.sets p.set).getD (declaredSet x)

/-- A picture beyond what the stream declared, or that needs what the decoders do not support (07 R218, R228). -/
def unsupported (x : Stream) (p : PictureHead) : Bool :=
  let z := setOf x p
  decide (x.width < z.width) || decide (x.height < z.height) || decide (x.bits < z.bits) || decide (x.profile < z.profile) ||
    decide (x.maxRef < z.refs) || (x.codec = 1 && z.interlaced) || (x.codec = 0 && z.highTier) || (x.codec = 2 && p.largeScale)

/-! ### Units of a picture (07 R222, R228) -/

/-- Units in a row, and in the picture. -/
def unitCols (z : ParamSet) : Nat := ceilDiv z.width (max z.unit 1)
def unitCount (z : ParamSet) : Nat := unitCols z * ceilDiv z.height (max z.unit 1)

/-- A rectangle of luma samples, with the chroma samples of the same place: its runs of bytes in plane `p`. -/
def planeRuns (x : Stream) (p x0 y0 x1 y1 : Nat) : List (Nat × Nat) :=
  let q := if p = 0 then 1 else 2
  let n := sampleBytes x.bits
  (List.range (ceilDiv y1 q - y0 / q)).map fun r =>
    (poolPlane x.width x.height x.bits p + (y0 / q + r) * planePitch x.width x.bits p + x0 / q * n, (ceilDiv x1 q - x0 / q) * n)

/-- The corners of a unit. -/
def unitRect (z : ParamSet) (k : Nat) : Nat × Nat × Nat × Nat :=
  let x0 := k % unitCols z * z.unit
  let y0 := k / unitCols z * z.unit
  (x0, y0, min (x0 + z.unit) z.width, min (y0 + z.unit) z.height)

/-- Motion entries of the 16 × 16 blocks of a rectangle, in raster order over the buffer (DEDUCED, notes/assumptions 120). -/
def motionAts (x : Stream) (x0 y0 x1 y1 : Nat) : List Nat :=
  (List.range (ceilDiv y1 16 - y0 / 16)).flatMap fun r => (List.range (ceilDiv x1 16 - x0 / 16)).map fun c =>
    poolPlane x.width x.height x.bits 3 + 16 * ((y0 / 16 + r) * ceilDiv x.width 16 + x0 / 16 + c)

/-- A run of samples of one value. -/
def sampleRun (n bytes v : Nat) : Nat := (List.range (bytes / n)).foldl (fun a i => a + v * 2 ^ (8 * n * i)) 0

/-- Planes of a rectangle are filled with the mid value 2^(BitDepth − 1). -/
def fillMid (x : Stream) (bits : Nat) (planes : List Nat) (rect : Nat × Nat × Nat × Nat) (data : Nat) : Nat :=
  (planes.flatMap fun p => planeRuns x p rect.1 rect.2.1 rect.2.2.1 rect.2.2.2).foldl
    (fun d e => setBytes d e.1 e.2 (sampleRun (sampleBytes x.bits) e.2 (2 ^ (bits - 1)))) data

/-- The motion data of a rectangle says intra, with no motion (07 R232 point 2). -/
def fillIntra (x : Stream) (rect : Nat × Nat × Nat × Nat) (data : Nat) : Nat :=
  (motionAts x rect.1 rect.2.1 rect.2.2.1 rect.2.2.2).foldl (fun d a => setBytes d a 16 Config.intraMotion.toNat) data

/-- A generated reference: mid-grey, of the current picture's size (07 R232 point 3); its motion data is that of concealed units (DESIGN
CHOICE, notes/assumptions 120). -/
def greyData (x : Stream) (z : ParamSet) (data : Nat) : Nat :=
  fillIntra x (0, 0, z.width, z.height) (fillMid x z.bits [0, 1, 2] (0, 0, z.width, z.height) data)

/-- The co-located samples of another buffer. -/
def copyRect (x : Stream) (src : Nat) (rect : Nat × Nat × Nat × Nat) (data : Nat) : Nat :=
  ([0, 1, 2].flatMap fun p => planeRuns x p rect.1 rect.2.1 rect.2.2.1 rect.2.2.2).foldl
    (fun d e => setBytes d e.1 e.2 (src >>> (8 * e.1))) data

/-! ### Damage (07 R229 to R231, Table 7-8) -/

/-- Bytes of one buffer of a stream's pool. -/
def bufBytes (x : Stream) : Nat := 65536 * bufferUnits x.width x.height x.bits

/-- The buffer that a run of the pool lies in, whole. -/
def runBuffer (x : Stream) (at_ n : Nat) : Option Nat :=
  let k := at_ / bufBytes x
  if at_ + n ≤ (k + 1) * bufBytes x ∧ k < x.bufs.length then some k else none

/-- A write within the selected buffer, a read within a reference (07 R230). -/
def writeIn (x : Stream) (buffer : Nat) (w : Nat × Nat × Nat) : Bool := runBuffer x w.1 w.2.1 == some buffer
def readIn (x : Stream) (r : Nat × Nat) : Bool := ((runBuffer x r.1 r.2).bind fun k => x.bufs[k]?).any fun b => b.shortRef || b.longRef

/-- What damages a unit itself: a value out of range, data that ends inside it, an access outside its buffers; 0 for none. -/
def unitFault (x : Stream) (d : Decoding) (u : UnitRead) : Nat :=
  if !d.known || !inRanges u.elems || decide (unitCount d.set ≤ u.raster) then 1
  else if !u.whole then 2
  else if u.writes.all (writeIn x d.buffer) && u.reads.all (readIn x) then 0
  else 5

/-- The units of a slice, the `i`-th of the picture onward, with what each comes to: from the first failure on, all have its cause (07
R229). -/
def sliceEnds (fault : Nat → UnitRead → Nat) : Nat → Nat → List UnitRead → List (UnitRead × Nat)
  | _, _, [] => []
  | i, c, u :: us =>
    let c' := if c = 0 then fault i u else c
    (u, c') :: sliceEnds fault (i + 1) c' us

/-- The units of a picture in decoding order, each with its cause of damage; those from the `limit`-th on were not complete when the watchdog
expired (07 R231). -/
def unitEnds (x : Stream) (d : Decoding) (p : PictureDone) (limit : Option Nat) : List (UnitRead × Nat) :=
  let fault := fun (i : Nat) (u : UnitRead) => if limit.any fun n => decide (n ≤ i) then 4 else unitFault x d u
  let add := fun (a : Nat × List (UnitRead × Nat)) (e : SliceRead) =>
    (a.1 + e.units.length, a.2 ++ sliceEnds fault a.1 0 e.units)
  ((p.slices.filter fun e => layerKept x.codec e.layer).foldl add (0, [])).2

/-- The damaged units with their causes, in raster order; a unit of no slice is damaged with `lost` (DESIGN CHOICE, notes/assumptions 119). -/
def damagedUnits (z : ParamSet) (l : List (UnitRead × Nat)) (lost : Nat) : List (Nat × Nat) :=
  (List.range (unitCount z)).filterMap fun k =>
    let here := l.filter fun e => e.1.raster = k
    if here.any fun e => e.2 = 0 then none else some (k, ((here.head?).map (·.2)).getD lost)

/-- The reference whose samples conceal a damaged unit: the one nearest in order count, the lower count on ties, among those
marked, the current buffer left out; none where there is none (07 R232 point 1). -/
def concealFrom (st : Stream) (cur : Nat) (order : BitVec 32) : Option Nat :=
  let l := (st.bufs.zipIdx.filter fun e => e.2 != cur && (e.1.shortRef || e.1.longRef)).map fun e => (e.1.order.toInt, e.2)
  let far := fun (o : Int) => (o - order.toInt).natAbs
  (sortBy (fun (a b : Int × Nat) => if far a.1 = far b.1 then decide (a.1 ≤ b.1) else decide (far a.1 < far b.1)) l).head?.map
    (·.2)

/-- A damaged unit is replaced (07 R232 points 1 and 2). -/
def concealUnit (x : Stream) (d : Decoding) (k data : Nat) : Nat :=
  let rect := unitRect d.set k
  fillIntra x rect (match (concealFrom x d.buffer d.head.order).bind fun i => x.bufs[i]? with
    | some b => copyRect x b.data rect data
    | none => fillMid x d.set.bits [0, 1, 2] rect data)

/-- What a decoded picture comes to: its damaged units, whether a write or read left its buffers, whether a unit was predicted from a generated
reference, and the bytes of its buffer. -/
structure DecodeResult where
  damaged : List (Nat × Nat)
  bounds  : Bool
  usesGen : Bool
  data    : Nat
deriving DecidableEq, Repr

/-- The decoding of a picture (07 R222, R229 to R232): sound units are written, damaged ones concealed, and the chroma planes of a monochrome
picture filled with the mid value (R218). Showing a picture decodes none. -/
def decodePicture (x : Stream) (d : Decoding) (p : PictureDone) (limit : Option Nat) : DecodeResult :=
  let old := ((x.bufs[d.buffer]?).map (·.data)).getD 0
  if d.showing then { damaged := [], bounds := false, usesGen := false, data := old }
  else
    let l := unitEnds x d p limit
    let good := (l.filter fun e => e.2 = 0).map Prod.fst
    let base := d.buffer * bufBytes x
    let drawn := (good.flatMap (·.writes)).foldl (fun a w => setBytes a (w.1 - base) w.2.1 w.2.2) old
    let bad := damagedUnits d.set l (if limit.isSome then 4 else 2)
    let grey := fun (r : Nat × Nat) => ((runBuffer x r.1 r.2).bind fun k => x.bufs[k]?).any (·.grey)
    let whole := bad.foldl (fun a e => concealUnit x d e.1 a) drawn
    { damaged := bad, bounds := l.any fun e => e.2 = 5, usesGen := good.any fun u => u.reads.any grey,
      data := if d.set.mono then fillMid x d.set.bits [1, 2] (0, 0, d.set.width, d.set.height) whole else whole }

end Sys2Proof.Machine
end

