-- ==== Sys2Proof/Machine/Video.lean ====
section
/-! DEFINITION. Video engines (07): streams, feeds, pictures and their buffers, damage reports, encoders and frames. -/
namespace Sys2Proof.Machine

/-! ### Engines and pools (07 R219, R221, R222) -/

/-- Samples per second that open streams reserve on a decode engine, and encoders on an encode engine. -/
def decodeLoad (s : State) (e : Nat) : Nat := ((s.streams.filter fun x => x.2.engine = e).map fun x => x.2.rate).sum
def encodeLoad (s : State) (e : Nat) : Nat := ((s.encs.filter fun x => x.2.engine = e).map fun x => x.2.rate).sum

/-- Engines held by a loop-back: TARGET has the decode engine in [2:0], the encode engine in [3] (14 Table 14-2). -/
def decodeLooped (s : State) (e : Nat) : Bool := looped s 4 e || looped s 4 (e + 8)
def encodeLooped (s : State) (e : Nat) : Bool := (List.range 8).any fun k => looped s 4 (k + 8 * e)

/-- Capacity of an engine (07 R219). -/
def engineRate : Nat := 1080000000

/-- The engine with the least reserved rate that has room, lowest first. -/
def chooseEngine (load : Nat → Nat) (n r : Nat) : Option Nat :=
  (sortBy (fun a b => decide (load a ≤ load b)) ((List.range n).filter fun e => decide (load e + r ≤ engineRate))).head?

/-- Streams of a tenant against its partition's allotment. -/
def streamsFull (s : State) (t : Nat) : Bool :=
  match partOf s t with
  | some e => decide (e.decode ≤ (s.streams.filter fun x => x.2.tenant = t).length)
  | none => false

def encodersFull (s : State) (t : Nat) : Bool :=
  match partOf s t with
  | some e => decide (e.encoders ≤ (s.encs.filter fun x => x.2.tenant = t).length)
  | none => false

/-- What refuses every new stream or encoder in a half: a coolant stop, a half out of service. -/
def videoDenied (s : State) (half : Nat) : Option (Status × Nat) :=
  if heldUnbound s then some (.badState, 26) else if !halfInService s half then some (.stateLost, 4) else none

/-! ### STREAM_OPEN -/

/-- The stream a STREAM_OPEN packet describes. -/
def streamOf (s : State) (c : Cmd) (i engine : Nat) : Stream :=
  let p := c.pkt
  { gen := tgetD s.streamGens i 1, ring := c.ring, tenant := c.tenant.getD 0, codec := le p 20 1, profile := le p 21 1,
    level := le p 22 1, half := le p 23 1, width := le p 24 2, height := le p 26 2, bits := le p 32 1, maxRef := le p 33 1,
    allowDrop := p.getLsbD 280, engine := engine, rate := videoRate (le p 24 2) (le p 26 2) (le p 28 4),
    sets := [], bufs := List.replicate (le p 34 1) emptyBuf, slots := List.replicate 8 none, nextPic := 0, named := none,
    picked := none, dropsReply := 0, dropsReport := 0, feeds := [], closing := none }

/-- STREAM_OPEN (07 R219, R221). -/
def streamOpen (cid : Nat) (s : State) : State :=
  runCmd cid 0x0301 (fun c s =>
    let p := c.pkt
    let t := c.tenant.getD 0
    let units := bufferUnits (le p 24 2) (le p 26 2) (le p 32 1)
    match videoDenied s (le p 23 1), pickSlot s cid s.streams 64 with
    | some (st, d), _ => refuse cid st d s
    | none, none => refuse cid .tableFull 6 s
    | none, some i =>
      match chooseEngine (decodeLoad s) 8 (videoRate (le p 24 2) (le p 26 2) (le p 28 4)) with
      | none => refuse cid .busy 7 s
      | some e =>
        if streamsFull s t then refuse cid .busy 7 s
        else if freePages s (le p 23 1) t < units * le p 34 1 then refuse cid .busy 8 s
        else
          let x : Stream := { streamOf s c i e with gen := pickGen s cid 16 (tgetD s.streamGens i 1) }
          let s := allocPages x.half t (List.replicate (units * le p 34 1) (.pool i)) s
          done cid units (BitVec.ofNat 64 (streamHandle x.gen i + e * 2 ^ 32))
            { s with streams := tset s.streams i x, streamGens := tset s.streamGens i x.gen }) s

/-- Meaning of STREAM_OPEN. -/
def execStreamOpen (cid : Nat) (s : State) : Host.Outcome State Fault Refusal := .next (streamOpen cid s)

/-! ### STREAM_FEED (07 R221, R226, R227, R236) -/

/-- A handle that names no open stream. -/
def streamFaults (c : Cmd) (s : State) : List Nat := if (findStream s (le c.pkt 20 4)).isNone then [20] else []

/-- Feeds of a stream, by its ring and handle, between fetch and their final replies; one from another ring is refused (07 R221). -/
def feedsOf (s : State) (ring h : Nat) : List (Nat × Cmd) :=
  s.cmds.filter fun e => opcodeOf e.2.pkt = 0x0302 && le e.2.pkt 20 4 = h && e.2.ring = ring && e.2.phase != .replied

/-- An earlier feed of the stream has not begun (07 R226). -/
def feedBehind (s : State) (ring cid h : Nat) : Bool :=
  (feedsOf s ring h).any fun e => decide (e.1 < cid) && (e.2.phase == .ready || e.2.phase == .ordered)

/-- What a stream that closes does with a feed: one fetched before the close is cancelled under CANCEL, or decoded (07 R236). -/
def closedFault (s : State) (st : Stream) (cid : Nat) : Option (Status × Nat) :=
  match st.closing with
  | none => none
  | some closer =>
    if closer < cid then some (.badState, 9)
    else if ((tget s.cmds closer).map fun c => c.pkt.getLsbD 192) == some true then some (.cancelled, 3)
    else none

/-- The verdict on a feed's data: its authentication tag, then its CRC-32C (07 R227, 08 R266, 09 R286). -/
def feedDataFault (s : State) (t : Nat) (p : Packet) (crc : BitVec 32) (sealedGen : Nat) (tagOk : Bool) :
    Option (Status × Nat) :=
  match (if p.getLsbD 320 then sealedFault s t sealedGen 4 tagOk else none) with
  | some e => some e
  | none => if p.getLsbD 321 && crc != BitVec.ofNat 32 (le p 36 4) then some (.integrityMismatch, 0) else none

/-- VALUE of a feed's reply (07 Table 7-6). -/
def feedValue (picture : Option Nat) (buffer drops : Nat) : BitVec 64 :=
  BitVec.ofNat 64 (picture.getD 0xFFFFFFFF + buffer * 2 ^ 32 + sat 16 drops * 2 ^ 40)

/-- A feed's final reply, which carries the pictures dropped since the one before. -/
def replyFeed (cid i : Nat) (st : Status) (detail : Nat) (value : BitVec 64) (flags : BitVec 16) (s : State) : State :=
  finish cid st detail value flags .none (modStream i (fun x => { x with dropsReply := 0 }) s)

/-- STREAM_FEED: the feed's data has been read and checked; it waits for its engine. `aux` is empty until its first picture
is decoded. -/
def streamFeed (cid : Nat) (crc : BitVec 32) (sealedGen : Nat) (tagOk : Bool) (s : State) : State :=
  runCmdWith cid 0x0302 streamFaults (fun c s =>
    match findStream s (le c.pkt 20 4) with
    | none => s
    | some (i, st) =>
      if st.ring ≠ c.ring then refuse cid .accessDenied 1 s
      else
        match closedFault s st cid with
        | some (e, d) => refuse cid e d s
        | none =>
          if le c.pkt 32 4 = 0 then replyFeed cid i .done 0 (feedValue none 0 st.dropsReply) 0 s
          else if feedBehind s c.ring cid (le c.pkt 20 4) then s
          else
          match videoDenied s st.half with
          | some (e, d) => refuse cid e d s
          | none =>
            if 8 ≤ st.feeds.length then refuse cid .busy 10 s
            else
              match feedDataFault s st.tenant c.pkt crc sealedGen tagOk with
              | some (e, d) => refuse cid e d s
              | none => begun cid [] (modStream i (fun x => { x with feeds := x.feeds ++ [cid] }) s)) s

/-- Meaning of STREAM_FEED. -/
def execStreamFeed (cid : Nat) (crc : BitVec 32) (sealedGen : Nat) (tagOk : Bool) (s : State) :
    Host.Outcome State Fault Refusal := .next (streamFeed cid crc sealedGen tagOk s)

/-! ### Buffer selection (07 R222-R224, R232) -/

/-- A buffer without a mark. -/
def bufFree (b : Buf) : Bool := !b.shortRef && !b.longRef && !b.outPend && b.hold = 0

/-- A buffer that ALLOW_DROP may drop: its only mark is OUTPUT_PENDING and its feed is answered. -/
def droppable (b : Buf) : Bool := !b.shortRef && !b.longRef && b.outPend && b.hold = 0 && b.replied

/-- What selecting buffers has come to: the buffers, AV1's reference slots, the next picture number, pictures dropped, the buffer selected
last. -/
structure Pick where
  bufs  : List Buf
  slots : List (Option Nat)
  next  : Nat
  drops : Nat
  last  : Nat
deriving DecidableEq, Repr

/-- Index of the buffer to select, and whether its picture is dropped. -/
def pickBuffer (allowDrop : Bool) (bufs : List Buf) : Option (Nat × Bool) :=
  match bufs.findIdx? bufFree with
  | some k => some (k, false)
  | none =>
    if !allowDrop then none
    else
      let l := (bufs.zipIdx.filter fun e => droppable e.1).map fun e => (e.1.picture.getD 0, e.2)
      (sortBy (fun (a b : Nat × Nat) => decide (a.1 ≤ b.1)) l).head?.map fun e => (e.2, true)

/-- The next picture number takes a buffer, with marks, and a reference slot where it fills one (07 R224, R225). -/
def selectOne (allowDrop : Bool) (mk : Nat → Buf) (slot : Option Nat) (a : Pick) : Option Pick :=
  (pickBuffer allowDrop a.bufs).map fun e =>
    { bufs := a.bufs.set e.1 (mk a.next), slots := (slot.map fun k => a.slots.set k (some e.1)).getD a.slots,
      next := (a.next + 1) % 2 ^ 32, drops := a.drops + bit e.2, last := e.1 }

/-- What the samples of a picture are: bits, COLOUR and full range (07 Table 7-7). -/
def sampled (z : ParamSet) (b : Buf) : Buf := { b with bits := z.bits, colour := z.colour, full := z.fullRange }

/-- A generated reference carries the mark of the missing one, long-term or not (07 R232 point 3). -/
def generated (cid : Nat) (x : Stream) (z : ParamSet) (long : Bool) (order : BitVec 32) (n : Nat) : Buf :=
  sampled z { emptyBuf with shortRef := !long, longRef := long, picture := some n, order := order, feed := some cid, grey := true,
                            data := greyData x z 0 }

/-- The picture about to be decoded. -/
def starting (cid : Nat) (z : ParamSet) (p : PictureHead) (n : Nat) : Buf :=
  sampled z { emptyBuf with outPend := true, picture := some n, order := p.order, window := z.window, feed := some cid }

/-- The references that a picture's lists name and the pool does not hold: long-term or not, order count, and for AV1 the slot, whose order
count is free (07 R232 point 3, notes/assumptions 121). -/
def missingRefs (s : State) (x : Stream) (p : PictureHead) : List (Bool × BitVec 32 × Option Nat) :=
  if x.codec = 2 then
    (p.slots.eraseDups.filter fun k => decide (k < 8) && ((x.slots[k]?).join).isNone).map fun k => (false, (freeWord s).setWidth 32, some k)
  else
    (p.refs.eraseDups.filter fun r => !(x.bufs.any fun b => (b.shortRef || b.longRef) && b.order = r.2)).map fun r => (r.1, r.2, none)

/-- What the standard's reference process makes of earlier pictures: each long-term, short-term or no reference (07 Table 7-5). -/
def markBufs (marks : List (Nat × Option Bool)) (bufs : List Buf) : List Buf :=
  bufs.map fun b =>
    match marks.find? fun m => b.picture = some m.1 with
    | some (_, some long) => { b with shortRef := !long, longRef := long }
    | some (_, none) => { b with shortRef := false, longRef := false }
    | none => b

/-- Buffers for the generated references, then for the picture: all or none (07 R224, R232). The reference process has marked the earlier
pictures before. -/
def selectAll (s : State) (cid : Nat) (st : Stream) (p : PictureHead) : Option Pick :=
  let z := setOf st p
  let x := { st with bufs := markBufs p.marks st.bufs }
  let step := fun (a : Option Pick) (m : Bool × BitVec 32 × Option Nat) =>
    a.bind (selectOne st.allowDrop (generated cid st z m.1 m.2.1) m.2.2)
  ((missingRefs s x p).foldl step (some { bufs := x.bufs, slots := st.slots, next := st.nextPic, drops := 0, last := 0 })).bind
    (selectOne st.allowDrop (starting cid z p) none)

/-! ### Decoding (07 R220, R224, R228-R233) -/

/-- The engines run: CCLK and power are there (01 R23, 12 R371, R380, R381). -/
def videoRuns (s : State) : Bool :=
  s.clk.syspll && s.clk.sclk && s.power.holdUp.isNone && s.thermal.tripped.isNone && s.thermal.hold.isNone

/-- The first feed of a stream that has begun and has no final reply submitted. -/
def headFeed (s : State) (st : Stream) : Option (Nat × Cmd) :=
  ((st.feeds.filterMap fun c => (tget s.cmds c).map fun k => (c, k)).find? fun e => e.2.phase == .begun)

/-- Feeds an engine could take up: doorbell, stream, feed. -/
def waitingFeeds (s : State) (engine : Nat) : List (Tick × Nat × Nat) :=
  s.streams.filterMap fun e =>
    if e.2.engine = engine then (headFeed s e.2).map fun f => (f.2.doorbell, e.1, f.1) else none

/-- The feed an engine takes next: by doorbell time, then by stream index (07 R220). -/
def nextFeed (s : State) (engine : Nat) : Option (Nat × Nat) :=
  (sortBy (fun (a b : Tick × Nat × Nat) => decide (a.1 ≤ b.1)) (waitingFeeds s engine)).head?.map (·.2)

/-- No buffer can be selected: this feed and every later one already fetched reply BUSY (07 R224). -/
def noBuffer (cid i : Nat) (st : Stream) (s : State) : State :=
  let later := (feedsOf s st.ring (streamHandle st.gen i)).filter fun e => decide (cid ≤ e.1) && le e.2.pkt 32 4 != 0
  later.foldl (fun s e => replyFeed e.1 i .busy 6 0 0 s) s

/-- The buffer that a show_existing_frame names by its reference slot (07 Table 7-5). -/
def shown (st : Stream) (p : PictureHead) : Option Nat := p.showExisting.bind fun k => (st.slots[k]?).join

/-- A decode that has begun. Showing a slot that holds nothing is a failure of all its units, as is a parameter set that is not there
(DESIGN CHOICE, notes/assumptions 119). -/
def decodingOf (s : State) (st : Stream) (i cid buffer picture generated : Nat) (p : PictureHead) (showing : Bool) : Decoding :=
  { stream := i, cid := cid, buffer := buffer, picture := picture, start := now s, generated := generated, showing := showing,
    known := (tget st.sets p.set).isSome && p.showExisting.isNone, head := p, set := setOf st p }

/-- A show_existing_frame is taken up: the buffer awaits output again. -/
def showStart (engine i cid k : Nat) (st : Stream) (p : PictureHead) (s : State) : State :=
  let show_ := fun (b : Buf) => { b with outPend := true }
  let num := ((st.bufs[k]?).bind (·.picture)).getD 0
  { modStream i (fun x => { x with bufs := x.bufs.modify k show_ }) s with
    engines := tset s.engines engine (decodingOf s st i cid k num 0 p true) }

/-- A picture is taken up in the buffers selected for it and for what it lacks. -/
def decodeStart (engine i cid : Nat) (st : Stream) (p : PictureHead) (a : Pick) (s : State) : State :=
  let take := fun (x : Stream) =>
    { x with bufs := a.bufs, slots := a.slots, nextPic := a.next, picked := some (now s), dropsReply := x.dropsReply + a.drops,
             dropsReport := x.dropsReport + a.drops }
  let num := ((a.bufs[a.last]?).bind (·.picture)).getD 0
  let made := (missingRefs s { st with bufs := markBufs p.marks st.bufs } p).length
  stepFree { modStream i take s with engines := tset s.engines engine (decodingOf s st i cid a.last num made p false) }

/-- PICTURE_DECODE_START (07 R218, R220, R224, R228, R229, R232). The parameter sets that precede the picture are taken first; where no
buffer can be selected the feed will be sent again, and the stream is left as it was. -/
def pictureStart (engine : Nat) (p : PictureHead) (s : State) : State :=
  if (tget s.engines engine).isSome || !videoRuns s || decodeLooped s engine || s.dev.state == .updating then s
  else
    match nextFeed s engine with
    | none => s
    | some (i, cid) =>
      match tget s.streams i with
      | none => s
      | some st₀ =>
        let st := takeSets st₀ p
        let s' := modStream i (fun x => takeSets x p) s
        if unsupported st p then replyFeed cid i .dataError (6 * 2 ^ 24) 0 0 s'
        else
          match shown st p with
          | some k => showStart engine i cid k st p s'
          | none =>
            match selectAll s cid st p with
            | none => noBuffer cid i st s
            | some a => decodeStart engine i cid st p a s'

/-- Meaning of PICTURE_DECODE_START. -/
def execPictureDecodeStart (engine : Nat) (p : PictureHead) (s : State) : Host.Outcome State Fault Refusal :=
  .next (pictureStart engine p s)

/-- Ticks of a picture's watchdog: 4 × ceil(coded luma samples ÷ 10.8) (07 R231). -/
def watchdogTicks (w h : Nat) : Nat := 4 * ceilDiv (10 * (w * h)) 108

/-- The tick at which a decode's watchdog expires; showing a picture decodes none. -/
def watchdogAt (d : Decoding) : Option Tick :=
  if d.showing then none else some (d.start + watchdogTicks d.set.width d.set.height)

def expired (s : State) (d : Decoding) : Bool :=
  match watchdogAt d with
  | some t => decide (t ≤ now s)
  | none => false

/-- Totals of a feed over its pictures: references generated, units concealed, first cause, whether a generated reference was
used, number of the output picture plus 1, its buffer, pictures ended. -/
structure Totals where
  gen  : Nat
  conc : Nat
  cause : Nat
  uses : Bool
  out  : Nat
  buf  : Nat
  pics : Nat
deriving DecidableEq, Repr

def totalsOf (aux : List Nat) : Totals :=
  { gen := aux.getD 0 0, conc := aux.getD 1 0, cause := aux.getD 2 0, uses := aux.getD 3 0 = 1, out := aux.getD 4 0,
    buf := aux.getD 5 0, pics := aux.getD 6 0 }

def auxOf (t : Totals) : List Nat := [t.gen, t.conc, t.cause, bit t.uses, t.out, t.buf, t.pics]

/-- First cause of a picture: a missing reference, which is met before any unit, then its first damaged unit in raster order (07 R228, Table
7-8). -/
def causeOf (d : Decoding) (r : DecodeResult) : Nat := if 0 < d.generated then 3 else ((r.damaged.head?).map (·.2)).getD 0

/-- The picture is output. -/
def outputs (d : Decoding) : Bool := d.showing || d.head.output

/-- A feed's totals with one more picture. -/
def addPicture (t : Totals) (d : Decoding) (r : DecodeResult) : Totals :=
  { gen := t.gen + d.generated, conc := t.conc + r.damaged.length, cause := if t.cause = 0 then causeOf d r else t.cause,
    uses := t.uses || r.usesGen, out := if outputs d then d.picture + 1 else t.out,
    buf := if outputs d ∨ t.out = 0 then d.buffer else t.buf, pics := t.pics + 1 }

/-- AV1's reference slots after a picture: refresh_frame_flags places it (07 Table 7-5). -/
def refreshSlots (refresh : BitVec 8) (buffer : Nat) (slots : List (Option Nat)) : List (Option Nat) :=
  slots.zipIdx.map fun e => if refresh.getLsbD e.2 then some buffer else e.1

/-- The marks a picture leaves, its own among them, and its bytes; a closing stream keeps no mark (07 Table 7-5, R236). -/
def settleMarks (d : Decoding) (p : PictureDone) (data : Nat) (x : Stream) : Stream :=
  let slots := refreshSlots p.refresh d.buffer x.slots
  let marked := if x.codec = 2 then x.bufs.zipIdx.map fun e => { e.1 with shortRef := slots.contains (some e.2), longRef := false }
    else (markBufs p.marks x.bufs).modify d.buffer fun b => { b with shortRef := p.shortRef, longRef := p.longRef }
  let bufs := marked.modify d.buffer fun b => { b with outPend := b.outPend && outputs d, data := data }
  let closed := fun (b : Buf) => { b with shortRef := false, longRef := false, outPend := false }
  if x.closing.isSome then { x with bufs := bufs.map closed, slots := List.replicate 8 none } else { x with bufs := bufs, slots := slots }

/-- PIC_FLAGS (07 R218, Table 7-7). -/
def picFlags (d : Decoding) (r : DecodeResult) : Nat :=
  bit (outputs d) + bit d.showing * 2 + bit d.head.grain * 4 + bit (d.set.bits = 10) * 8 + bit d.set.fullRange * 16 +
    bit r.usesGen * 32

/-- DECODE_TICKS, in partition mode rounded down to a multiple of 4,096 (09 Table 9-15). -/
def decodeTicks (s : State) (d : Decoding) : Nat :=
  if partitioned s then (now s - d.start) / 4096 * 4096 else now s - d.start

/-- The picture report (07 Table 7-7). -/
def pictureReport (s : State) (st : Stream) (c : Cmd) (d : Decoding) (r : DecodeResult) (t : Totals) : List (Nat × Nat) :=
  [(4, d.picture), (4, d.head.order.toNat), (1, d.buffer), (1, d.head.ptype), (1, picFlags d r), (1, d.set.colour.toNat),
   (8, d.set.window.toNat), (2, d.set.width), (2, d.set.height), (4, unitCount d.set), (2, sat 16 t.conc), (1, sat 8 t.gen),
   (1, t.cause), (4, ((r.damaged.head?).map (·.1)).getD 0xFFFFFFFF), (4, decodeTicks s d), (8, le c.pkt 56 8),
   (4, sat 32 st.dropsReport), (8, spare s 0), (4, spare s 1)]

/-- The feed's report is written, and its DONE submitted (07 R228). -/
def feedDone (cid i : Nat) (c : Cmd) (d : Decoding) (r : DecodeResult) (t : Totals) (s : State) : State :=
  match tget s.streams i with
  | none => s
  | some st =>
    let addr := le c.pkt 48 8
    let s := if addr = 0 then s
      else modStream i (fun x => { x with dropsReport := 0 }) (useSpares 2 (writeFields addr (pictureReport s st c d r t) s))
    let conc : BitVec 16 := if t.conc ≠ 0 ∨ t.gen ≠ 0 ∨ t.uses = true then 4 else 0
    let flag := if addr = 0 then conc else conc ||| coarsened s
    replyFeed cid i .done (sat 16 t.conc + sat 8 t.gen * 2 ^ 16 + t.cause * 2 ^ 24)
      (feedValue (if t.out = 0 then none else some (t.out - 1)) t.buf st.dropsReply) flag s

/-- A picture ends on an engine: samples, marks, bobbin record of an access out of bounds, and with its last picture the feed's reply. Frames of
an AV1 temporal unit beyond the eighth are discarded, and the feed ends with cause UNSUPPORTED (07 R218). The transfers of a tenant that is
being removed are dropped, and pages of a previous generation are restitched before they are written (09 R293, R296). -/
def pictureEnds (engine : Nat) (d : Decoding) (p : PictureDone) (limit : Option Nat) (s : State) : State :=
  match tget s.streams d.stream with
  | none => { s with engines := tdel s.engines engine }
  | some st =>
    let r := decodePicture st d p limit
    let s := { s with engines := tdel s.engines engine }
    if !tenantActive s st.tenant then s else
    let mine := fun (k : Nat) => (tget s.pages k).any fun x => x.use == .pool d.stream
    let s := restitchPages mine st.tenant (modStream d.stream (settleMarks d p r.data) s)
    let s := if r.bounds then bobPost 0x10 0x0012 d.stream s else s
    match tget s.cmds d.cid with
    | none => s
    | some c =>
      if c.phase ≠ .begun then s
      else
        let t := addPicture (totalsOf c.aux) d r
        if p.last then feedDone d.cid d.stream c d r t s
        else if st.codec = 2 ∧ 8 ≤ t.pics then feedDone d.cid d.stream c d r { t with cause := 6 } s
        else modCmd d.cid (fun c => { c with aux := auxOf t }) s

/-- PICTURE_DECODE_END (07 R228), before the watchdog expires. -/
def pictureEnd (engine : Nat) (p : PictureDone) (s : State) : State :=
  match tget s.engines engine with
  | none => s
  | some d => if expired s d || !videoRuns s then s else pictureEnds engine d p none s

/-- Meaning of PICTURE_DECODE_END. -/
def execPictureDecodeEnd (engine : Nat) (p : PictureDone) (s : State) : Host.Outcome State Fault Refusal :=
  .next (pictureEnd engine p s)

/-- DECODE_WATCHDOG (07 R231); `done` is how many units were complete: every other is damaged with cause WATCHDOG, but those that an earlier
failure in their slice had damaged. -/
def decodeWatchdog (engine done_ : Nat) (p : PictureDone) (s : State) : State :=
  match tget s.engines engine with
  | none => s
  | some d => if expired s d then pictureEnds engine d p (some done_) s else s

/-- Meaning of DECODE_WATCHDOG. -/
def execDecodeWatchdog (engine done_ : Nat) (p : PictureDone) (s : State) : Host.Outcome State Fault Refusal :=
  .next (decodeWatchdog engine done_ p s)

/-! ### Closing (07 R236) -/

/-- STREAM_CLOSE. -/
def streamClose (cid : Nat) (s : State) : State :=
  runCmdWith cid 0x0303 streamFaults (fun c s =>
    match findStream s (le c.pkt 20 4) with
    | none => s
    | some (i, st) =>
      if st.ring ≠ c.ring then refuse cid .accessDenied 1 s
      else if st.closing.isSome then refuse cid .badState 9 s
      else closeStream i cid (c.pkt.getLsbD 192) (begun cid [i] s)) s

/-- Meaning of STREAM_CLOSE. -/
def execStreamClose (cid : Nat) (s : State) : Host.Outcome State Fault Refusal := .next (streamClose cid s)

/-- No feed of a stream is left, no picture is in progress or held. -/
def streamQuiet (s : State) (i : Nat) (st : Stream) : Bool :=
  st.feeds.isEmpty && (feedsOf s st.ring (streamHandle st.gen i)).all (fun e => (st.closing.getD 0) < e.1) &&
    !(s.engines.any fun e => e.2.stream = i) && st.bufs.all fun b => b.hold = 0

/-- STREAM_CLOSE_COMPLETE: pool and engine are released. -/
def streamClosed (i : Nat) (s : State) : State :=
  match tget s.streams i with
  | none => s
  | some st =>
    match st.closing with
    | none => s
    | some cid =>
      if !streamQuiet s i st then s
      else
        let mine := fun (u : PageUse) => match u with | .pool k => k = i | _ => false
        let s := { s with streams := tdel s.streams i, streamGens := tset s.streamGens i (nextGen 65535 st.gen) }
        done cid 0 0 (retireKeys st.tenant (freePagesOf mine s))

/-- Meaning of STREAM_CLOSE_COMPLETE. -/
def execStreamCloseComplete (stream : Nat) (s : State) : Host.Outcome State Fault Refusal := .next (streamClosed stream s)

/-! ### Encoding (07 R219, R236-R239) -/

/-- The encoder an ENC_OPEN packet describes. -/
def encoderOf (s : State) (c : Cmd) (i engine : Nat) : Encoder :=
  let p := c.pkt
  { gen := tgetD s.encGens i 1, ring := c.ring, tenant := c.tenant.getD 0, codec := le p 20 1, profile := le p 21 1,
    level := le p 22 1, half := le p 23 1, width := le p 24 2, height := le p 26 2, bits := le p 32 1, rc := le p 33 1,
    qpMin := signed 8 (le p 34 1), qpMax := signed 8 (le p 35 1), qpI := signed 8 (le p 36 1), qpP := signed 8 (le p 37 1),
    idrEvery := le p 38 2, target := le p 40 4, maxKbps := le p 44 4, vbvMs := le p 48 4, slices := le p 52 1,
    engine := engine, rate := videoRate (roundUp (le p 24 2) 16) (roundUp (le p 26 2) 16) (le p 28 4), frameNo := 0,
    sinceIdr := 0, frames := [], closing := none }

/-- Pages of an encoder's reference buffers: each of the size of 07 R222, their number free (notes/assumptions 30). -/
def encoderUnits (w h bits : Nat) : Nat :=
  bufferUnits (roundUp w 16) (roundUp h 16) bits * (1 + Config.encoderBuffers w h bits % 16)

/-- ENC_OPEN (07 R219, R221). -/
def encOpen (cid : Nat) (s : State) : State :=
  runCmd cid 0x0304 (fun c s =>
    let p := c.pkt
    let t := c.tenant.getD 0
    let units := encoderUnits (le p 24 2) (le p 26 2) (le p 32 1)
    match videoDenied s (le p 23 1), pickSlot s cid s.encs 16 with
    | some (st, d), _ => refuse cid st d s
    | none, none => refuse cid .tableFull 6 s
    | none, some i =>
      match chooseEngine (encodeLoad s) 2 (videoRate (roundUp (le p 24 2) 16) (roundUp (le p 26 2) 16) (le p 28 4)) with
      | none => refuse cid .busy 7 s
      | some e =>
        if encodersFull s t then refuse cid .busy 7 s
        else if freePages s (le p 23 1) t < units then refuse cid .busy 8 s
        else
          let x : Encoder := { encoderOf s c i e with gen := pickGen s cid 16 (tgetD s.encGens i 1) }
          let s := allocPages x.half t (List.replicate units (.encoder i)) s
          done cid 0 (BitVec.ofNat 64 (streamHandle x.gen i + e * 2 ^ 32))
            { s with encs := tset s.encs i x, encGens := tset s.encGens i x.gen }) s

/-- Meaning of ENC_OPEN. -/
def execEncOpen (cid : Nat) (s : State) : Host.Outcome State Fault Refusal := .next (encOpen cid s)

/-- A handle that names no open encoder, and a pitch below the width (07 Table 7-12). -/
def encoderFaults (c : Cmd) (s : State) : List Nat :=
  match findEncoder s (le c.pkt 20 4) with
  | none => [20]
  | some (_, e) => if le c.pkt 24 1 = 0 ∧ le c.pkt 36 4 < e.width * (if e.bits = 8 then 1 else 2) then [36] else []

/-- Entry `k` of a ROI list (07 Table 7-13). -/
def roiOf (l : BitVec 6144) (k : Nat) : Roi :=
  { x := bytesAt l (12 * k) 2, y := bytesAt l (12 * k + 2) 2, w := bytesAt l (12 * k + 4) 2, h := bytesAt l (12 * k + 6) 2,
    offset := signed 8 (bytesAt l (12 * k + 8) 1) }

/-- Fields of entry `k`. -/
def roiFlds (l : BitVec 6144) (k : Nat) : List Fld :=
  let r := roiOf l k
  [fld (12 * k) 2 true, fld (12 * k + 2) 2 true, fld (12 * k + 4) 2 (r.w != 0), fld (12 * k + 6) 2 (r.h != 0),
   fld (12 * k + 8) 1 (decide (-12 ≤ r.offset ∧ r.offset ≤ 12))]

/-- Offset of the first fault of a ROI list (07 R239). -/
def roiFault (l : BitVec 6144) (n : Nat) : Option Nat :=
  firstFault ((List.range n).flatMap (roiFlds l)) l.toNat 0 (12 * n)

/-- The regions of a frame. -/
def roisOf (l : BitVec 6144) (n : Nat) : List Roi := (List.range n).map (roiOf l)

/-- QP of the 16 × 16 block at (bx, by) of a base QP (07 R239). -/
def blockQp (e : Encoder) (rois : List Roi) (base : Int) (bx by_ : Nat) : Int :=
  let covers := fun (r : Roi) => decide (r.x ≤ bx ∧ bx < r.x + r.w ∧ r.y ≤ by_ ∧ by_ < r.y + r.h)
  let q := base + ((rois.find? covers).map (·.offset)).getD 0
  max e.qpMin (min e.qpMax q)

/-- QP of every block of a frame; a region lies clipped to the picture's grid. -/
def frameQps (e : Encoder) (rois : List Roi) (base : Int) : List Int :=
  (List.range (ceilDiv e.height 16)).flatMap fun y => (List.range (ceilDiv e.width 16)).map fun x => blockQp e rois base x y

/-- Base QP of a frame: that of its type under CQP; under CBR and VBR what the rate control chose (07 R239, Table 7-11). -/
def baseQp (e : Encoder) (idr : Bool) (chosen : Int) : Int := if e.rc = 0 then (if idr then e.qpI else e.qpP) else chosen

/-- The mean of block QPs; where it is no whole number its rounding is free (notes/assumptions 122). -/
def meanQp (l : List Int) : Int :=
  let n := max l.length 1
  if l.sum % n = 0 then l.sum / n else l.sum / n + bit (Config.meanQpUp l.sum n)

/-- A picture's sample as an encoder takes it (07 R237). -/
def encSample (picBits encBits x : Nat) : Nat :=
  if picBits = 10 ∧ encBits = 8 then min ((x + 2) / 4) 255 else if picBits = 8 ∧ encBits = 10 then x * 4 else x

/-- The samples of a frame in order, luma then Cb then Cr, from a reader of plane, row and column. -/
def frameSamples (e : Encoder) (rd : Nat → Nat → Nat → Nat) : List Nat :=
  [0, 1, 2].flatMap fun p =>
    let q := if p = 0 then 1 else 2
    (List.range (e.height / q)).flatMap fun y => (List.range (e.width / q)).map fun x => rd p y x

/-- The sample of a host source, as the bytes from SRC on give it (07 R237). -/
def hostSample (e : Encoder) (pitch source p y x : Nat) : Nat :=
  let n := sampleBytes e.bits
  let start := if p = 0 then 0 else e.height * pitch + (p - 1) * (e.height / 2 * (pitch / 2))
  (source >>> (8 * (start + y * (if p = 0 then pitch else pitch / 2) + x * n))) % 2 ^ (if e.bits = 8 then 8 else 10)

/-- The sample of a picture source within its conformance window, converted (07 R237). -/
def pictureSample (s : State) (e : Encoder) (ref p y x : Nat) : Nat :=
  match findStream s (ref % 2 ^ 32) with
  | none => 0
  | some (_, st) =>
    match bufferOf st (ref / 2 ^ 32) with
    | none => 0
    | some (_, b) =>
      let q := if p = 0 then 1 else 2
      let wx := (b.window.extractLsb' 0 16).toNat / q
      let wy := (b.window.extractLsb' 16 16).toNat / q
      encSample b.bits e.bits (poolSample st b p (wy + y) (wx + x) % 2 ^ 10)

/-- A frame as it is accepted. -/
def acceptedFrame (s : State) (e : Encoder) (cid : Nat) (c : Cmd) (rois : BitVec 6144) (source : Nat) : Frame :=
  { cid := cid, rois := roisOf rois (le c.pkt 26 1)
    samples := frameSamples e (if le c.pkt 24 1 = 1 then pictureSample s e (le c.pkt 28 8) else hostSample e (le c.pkt 36 4) source) }

/-- An earlier frame of the encoder has not begun (07 R237). -/
def frameBehind (s : State) (cid ring h : Nat) : Bool :=
  s.cmds.any fun e => decide (e.1 < cid) && opcodeOf e.2.pkt = 0x0305 && le e.2.pkt 20 4 = h && e.2.ring = ring &&
    (e.2.phase == .ready || e.2.phase == .ordered)

/-- An encoder that closes: a frame fetched before the close is cancelled under CANCEL, or encoded (07 R236). -/
def closedEnc (s : State) (e : Encoder) (cid : Nat) : Option (Status × Nat) :=
  match e.closing with
  | none => none
  | some closer =>
    if closer < cid then some (.badState, 9)
    else if ((tget s.cmds closer).map fun c => c.pkt.getLsbD 192) == some true then some (.cancelled, 3)
    else none

/-- The verdict on a frame's source and on sealing its output: FRAME_FLAGS[1] (07 R237, R238, 09 R286). -/
def frameFault (s : State) (e : Encoder) (c : Cmd) (sealedGen : Nat) (tagOk : Bool) : Option (Status × Nat) :=
  let picture := le c.pkt 24 1 = 1
  match (if picture then pictureFault s e.tenant (le c.pkt 28 8) e.width e.height else none) with
  | some f => some f
  | none =>
    if !c.pkt.getLsbD 201 then none
    else
      match (if picture then none else sealedFault s e.tenant sealedGen 5 tagOk) with
      | some f => some f
      | none => sealFault s e.tenant c.keyGen

/-- An accepted frame waits for its engine; its picture is held from now on, and named in this tick (07 R225, R237). -/
def frameTaken (cid i : Nat) (e : Encoder) (c : Cmd) (f : Frame) (s : State) : State :=
  let ref := le c.pkt 28 8
  let s := { s with encs := tset s.encs i { e with frames := e.frames ++ [f] } }
  encodeNext e.engine (if le c.pkt 24 1 = 1 then begun cid [ref] (namePicture ref (holdPicture ref (· + 1) s)) else begun cid [] s)

/-- ENC_FRAME: its source has been read or its picture is held from now on; it waits for its turn. `source` is what a host buffer held. In a
tick, acceptances that name pictures come before buffer selections (07 R225): behind one it waits. -/
def encFrame (cid : Nat) (rois : BitVec 6144) (source sealedGen : Nat) (tagOk : Bool) (s : State) : State :=
  runCmdWith cid 0x0305 encoderFaults (fun c s =>
    match findEncoder s (le c.pkt 20 4) with
    | none => s
    | some (i, e) =>
      match roiFault rois (le c.pkt 26 1) with
      | some d => refuse cid .badParam (0x8000 + d) s
      | none =>
        if e.ring ≠ c.ring then refuse cid .accessDenied 1 s
        else if frameBehind s cid c.ring (le c.pkt 20 4) || (le c.pkt 24 1 == 1 && pickedNow s (le c.pkt 28 8)) then s
        else
          match closedEnc s e cid with
          | some (st, d) => refuse cid st d s
          | none =>
            match videoDenied s e.half with
            | some (st, d) => refuse cid st d s
            | none =>
              if 4 ≤ e.frames.length then refuse cid .busy 10 s
              else
                match frameFault s e c sealedGen tagOk with
                | some (st, d) => refuse cid st d s
                | none => frameTaken cid i e c (acceptedFrame s e cid c rois source) s) s

/-- Meaning of ENC_FRAME. -/
def execEncFrame (cid : Nat) (rois : BitVec 6144) (source sealedGen : Nat) (tagOk : Bool) (s : State) :
    Host.Outcome State Fault Refusal := .next (encFrame cid rois source sealedGen tagOk s)

/-- The next frame is an IDR picture: the encoder has no reference, FORCE_IDR, or IDR_INTERVAL (07 Tables 7-11, 7-12). -/
def isIdr (e : Encoder) (c : Cmd) : Bool :=
  e.sinceIdr = 0 || c.pkt.getLsbD 200 || (e.idrEvery != 0 && decide (e.idrEvery ≤ e.sinceIdr))

/-- Bytes that leave for an access unit: sealing adds 32 (09 R285). -/
def frameBytes (c : Cmd) (bytes : Nat) : Nat := bytes + (if c.pkt.getLsbD 201 then 32 else 0)

/-- The access unit that leaves: its delimiter, before an IDR picture its parameter sets, then its slices (07 R238). -/
def unitBytes (e : Encoder) (idr : Bool) (au : AccessUnit) : Nat × Nat :=
  joinBytes (au.delimiter :: (if idr then (if e.codec = 0 then [au.vps, au.sps, au.pps] else [au.sps, au.pps]) else []) ++ au.slices)

/-- VALUE of ENC_FRAME: frame number, type, mean QP (07 Table 7-12). -/
def frameValue (e : Encoder) (f : Frame) (idr : Bool) (chosen : Int) : BitVec 64 :=
  BitVec.ofNat 64 (e.frameNo + bit (!idr) * 2 ^ 32 +
    (BitVec.ofInt 8 (meanQp (frameQps e f.rois (baseQp e idr chosen)))).toNat * 2 ^ 40)

/-- The encoder after a frame. -/
def frameNext (e : Encoder) (idr : Bool) : Encoder :=
  { e with frameNo := (e.frameNo + 1) % 2 ^ 32, sinceIdr := if idr then 1 else e.sinceIdr + 1 }

/-- An access unit is written to the output buffer, sealed where ENCRYPTED asks for it. -/
def writeUnit (e : Encoder) (c : Cmd) (u : Nat × Nat) (s : State) : State :=
  if c.pkt.getLsbD 201 then writeSealed (le c.pkt 40 8) e.tenant c.keyGen 6 (tagOf c.pkt) (seqOf c.pkt) u.1 u.2 s
  else writeHost (le c.pkt 40 8) u.1 u.2 s

/-- ENC_FRAME_COMPLETE (07 R237, R238): the access unit is written, or does not fit; the engine takes up its next frame. -/
def frameDone (cid : Nat) (au : AccessUnit) (chosen : Int) (s : State) : State :=
  match inProgress s cid 0x0305 with
  | none => s
  | some c =>
    match findEncoder s (le c.pkt 20 4) with
    | none => s
    | some (i, e) =>
      match e.frames.find? fun f => f.cid = cid with
      | none => s
      | some f =>
        if encodingNow s e.engine ≠ some cid ∨ videoRuns s = false ∨ encodeLooped s e.engine = true then s
        else
          let idr := isIdr e c
          let u := unitBytes e idr au
          if le c.pkt 48 4 < frameBytes c u.1 then encodeNext e.engine (refuse cid .busy 9 s)
          else encodeNext e.engine (done cid (frameBytes c u.1) (frameValue e f idr chosen)
            { writeUnit e c u s with encs := tset s.encs i (frameNext e idr) })

/-- Meaning of ENC_FRAME_COMPLETE. -/
def execEncFrameComplete (cid : Nat) (au : AccessUnit) (baseQp : Int) (s : State) : Host.Outcome State Fault Refusal :=
  .next (frameDone cid au baseQp s)

/-- ENC_CLOSE (07 R236). -/
def encClose (cid : Nat) (s : State) : State :=
  runCmdWith cid 0x0306 (fun c s => if (findEncoder s (le c.pkt 20 4)).isNone then [20] else []) (fun c s =>
    match findEncoder s (le c.pkt 20 4) with
    | none => s
    | some (i, e) =>
      if e.ring ≠ c.ring then refuse cid .accessDenied 1 s
      else if e.closing.isSome then refuse cid .badState 9 s
      else closeEncoder i cid (c.pkt.getLsbD 192) (begun cid [i] s)) s

/-- Meaning of ENC_CLOSE. -/
def execEncClose (cid : Nat) (s : State) : Host.Outcome State Fault Refusal := .next (encClose cid s)

end Sys2Proof.Machine
end

