-- ==== Sys2Proof/Machine/Health.lean ====
section
/-! DEFINITION. Loop-backs, self-tests, trace, bobbin and counter reads, margin scans (14 R412-R422, R425, 02 R66, 10 R307). -/
namespace Sys2Proof.Machine

/-! ### Which tests a limited module takes -/

/-- INTERFACE and DEPTH that LOOPBACK_SET takes in the present state: in HALF_MAST PCIe depth 1 and Halyard B, in STANDBY and SPARE the
interfaces of the hub other than the mirror link (10 R307, 14 R414). -/
def loopTaken (s : State) (p : Packet) : Bool :=
  let i := le p 20 1
  if s.dev.state = .halfMast then (i = 0 && le p 21 1 = 1) || i = 3 else i = 0 || i = 3 || i = 4 || i = 5

/-- TEST that SELFTEST_RUN takes there: those of the hub (14 Table 14-3). -/
def testTaken (p : Packet) : Bool := decide (0x10 ≤ le p 20 1)

/-- A command of group 0x08 that names an interface or test: what the present state does not take is refused first. -/
def runTest (cid op : Nat) (ok : Packet → Bool) (f : Cmd → State → State) (s : State) : State :=
  match guarded cid op ok s with
  | some (st, d) => refuse cid st d s
  | none => runCmd cid op f s

/-! ### Loop-backs (14 R412-R414) -/

/-- No page of a half is owned, no pattern staged or resident in it, no picture pool there (14 R413). -/
def halfBare (s : State) (h : Nat) : Bool :=
  ownedPages s h (fun _ => true) = 0 && !(s.pats.any fun e => usesHalf e.2 h && (e.2.staged || resident e.2)) &&
    !(s.streams.any fun e => e.2.half = h)

/-- A condition of 14 Table 14-1 or R413. -/
def loopCondition (s : State) (i target : Nat) : Bool :=
  if i = 1 then halfBare s (target / 64) else if i = 2 ∨ i = 3 then !bound s else true

/-- Room on the two engines that a video loop-back names. -/
def loopRoom (s : State) (i target : Nat) : Bool :=
  i != 4 || (decide (decodeLoad s (target % 8) + Config.loopRate ≤ engineRate) &&
    decide (encodeLoad s (target / 8) + Config.loopRate ≤ engineRate))

/-- A FRESH margin scan is under way (14 R425). -/
def scanning (s : State) : Bool := s.cmds.any fun e => opcodeOf e.2.pkt = 0x0805 && e.2.phase == .begun

/-- Another test acts on an interface: a loop-back, or a fresh scan on the channels or the optics. -/
def loopBusy (s : State) (i : Nat) : Bool :=
  (s.svc.loops.any fun l => l.iface = i) || ((i = 1 || i = 2) && scanning s)

/-- What refuses a loop-back, in the order of R414. -/
def loopFault (s : State) (p : Packet) : Option (Status × Nat) :=
  let i := le p 20 1
  let target := le p 24 2
  if i = 0 ∧ 2 ≤ le p 21 1 ∧ lifecycle s ≠ 0 then some (.accessDenied, 8)
  else if !loopCondition s i target then some (.badState, 27)
  else if i = 4 ∧ heldUnbound s = true then some (.badState, 26)
  else if !loopRoom s i target then some (.busy, 7)
  else if loopBusy s i then some (.busy, 14)
  else none

/-- LOOPBACK_SET (14 R412). -/
def loopbackSet (cid : Nat) (s : State) : State :=
  runTest cid 0x0801 (loopTaken s) (fun c s =>
    match loopFault s c.pkt with
    | some (st, d) => refuse cid st d s
    | none =>
      let l : Loop := { cid := cid, iface := le c.pkt 20 1, depth := le c.pkt 21 1, target := le c.pkt 24 2,
                        until_ := now s + le c.pkt 28 4 * 100000 }
      begun cid [] { s with svc := { s.svc with loops := s.svc.loops ++ [l] } }) s

/-- Meaning of LOOPBACK_SET. -/
def execLoopbackSet (cid : Nat) (s : State) : Host.Outcome State Fault Refusal := .next (loopbackSet cid s)

/-- LOOPBACK_END (14 R412): DURATION_MS has passed; DETAIL has the bytes that mismatched, VALUE those compared. -/
def loopbackEnd (cid mismatched compared : Nat) (s : State) : State :=
  match inProgress s cid 0x0801, s.svc.loops.find? fun l => l.cid = cid with
  | some _, some l =>
    if now s < l.until_ then s
    else done cid (sat 32 mismatched) (BitVec.ofNat 64 compared)
      { s with svc := { s.svc with loops := s.svc.loops.filter fun x => x.cid != cid } }
  | _, _ => s

/-- Meaning of LOOPBACK_END. -/
def execLoopbackEnd (cid mismatched compared : Nat) (s : State) : Host.Outcome State Fault Refusal :=
  .next (loopbackEnd cid mismatched compared s)

/-! ### Self-tests (14 R415, R416) -/

/-- SELFTEST_RUN: a core test withdraws its core first. -/
def selftestRun (cid : Nat) (s : State) : State :=
  runTest cid 0x0806 testTaken (fun c s =>
    let k := le c.pkt 21 1
    if testTaken c.pkt then begun cid [] s
    else if (coreOf s k).halted.isSome then refuse cid .badState 27 s
    else if heldUnbound s then refuse cid .badState 26 s
    else begun cid [] (haltCore k (.test cid) s)) s

/-- Meaning of SELFTEST_RUN. -/
def execSelftestRun (cid : Nat) (s : State) : Host.Outcome State Fault Refusal := .next (selftestRun cid s)

/-- Core store, vector registers, edge registers and staging are zeroed. -/
def wipeCore (k : Nat) (s : State) : State :=
  modCore k Core.wiped s

/-- A tested core serves again, or stays halted until the next start. One that thermal control or RESET_UNIT has halted meanwhile
stays so until they release it. -/
def coreTested (k cid : Nat) (failed : Bool) (s : State) : State :=
  let s := wipeCore k s
  if failed then modCore k (fun c => { c with halted := some .failed }) s
  else if (coreOf s k).halted = some (.test cid) then serveCore k s
  else s

/-- Logical fuse bits of which a cell differs from the shadow. -/
def fuseMismatches (f : Fuses) : Nat :=
  let d := (f.cellA ^^^ f.shadow) ||| (f.cellB ^^^ f.shadow) ||| (f.cellC ^^^ f.shadow)
  ((List.range 4096).filter fun i => d.getLsbD i).length

/-- DETAIL and VALUE of a test's reply; the fuse test's are of the fuse block itself (14 R415). -/
def testResult (s : State) (test mismatches first : Nat) : Nat × Nat :=
  if test = 0x10 then (fuseMismatches s.fuses, weakCells s.fuses)
  else (sat 32 mismatches, if mismatches = 0 then 0xFFFFFFFF else first)

/-- SELFTEST_END (14 R415, R416). -/
def selftestEnd (cid mismatches first : Nat) (s : State) : State :=
  match inProgress s cid 0x0806 with
  | none => s
  | some c =>
    let test := le c.pkt 20 1
    let k := le c.pkt 21 1
    let r := testResult s test mismatches first
    let s := if test ≤ 2 then coreTested k cid (mismatches != 0) s else s
    let s := if test = 1 then loadTestBias s else s
    done cid r.1 (BitVec.ofNat 64 r.2) s

/-- Meaning of SELFTEST_END. -/
def execSelftestEnd (cid mismatches first : Nat) (s : State) : Host.Outcome State Fault Refusal :=
  .next (selftestEnd cid mismatches first s)

/-! ### Bobbins (14 R418) -/

/-- BOBBIN_READ. -/
def bobbinRead (cid : Nat) (s : State) : State :=
  runCmd cid 0x0803 (fun c s =>
    let unit := le c.pkt 20 1
    let l := bobRecords s unit (le c.pkt 22 2) (le c.pkt 24 2)
    finish cid .done l.length (BitVec.ofNat 64 (bobOf s unit).posted) (coarsened s) .none
      (writeFields (le c.pkt 32 8) l s)) s

/-- Meaning of BOBBIN_READ. -/
def execBobbinRead (cid : Nat) (s : State) : Host.Outcome State Fault Refusal := .next (bobbinRead cid s)

/-! ### Counters (14 R419, R420) -/

/-- A COUNTER_READ runs in the row of its OP; an OP out of range is refused by whichever row meets it. -/
def runCounter (cid op : Nat) (f : Cmd → State → State) (s : State) : State :=
  match begins s cid 0x0804 with
  | none => s
  | some c => if le c.pkt 20 1 ≠ op ∧ le c.pkt 20 1 ≤ 2 then s else runCmd cid 0x0804 f s

/-- COUNTER_READ with OP READ. -/
def counterRead (cid : Nat) (s : State) : State :=
  runCounter cid 0 (fun c s =>
    let g := le c.pkt 21 1
    let n := (readable16 s g c.tenant).length
    finish cid .done n (BitVec.ofNat 64 (counterAt s)) (coarsened s) .none
      (useSpares n (writeFields (le c.pkt 24 8) (counterEntries s g c.tenant) s))) s

/-- Meaning of COUNTER_READ. -/
def execCounterRead (cid : Nat) (s : State) : Host.Outcome State Fault Refusal := .next (counterRead cid s)

/-- What refuses ARM and DISARM. -/
def armFault (c : Cmd) : Option (Status × Nat) :=
  if c.ring ≠ 0 then some (.accessDenied, 1) else if le c.pkt 21 1 = 0 then some (.badParam, 21) else none

/-- ARM or DISARM: the profiling counters take a new state; with ARM they are 0, in the held window too. -/
def setProfiling (cid op : Nat) (p : Option (Tbl Nat)) (s : State) : State :=
  runCounter cid op (fun c s =>
    match armFault c with
    | some (st, d) => refuse cid st d s
    | none =>
      done cid 0 0 { s with svc := { s.svc with prof := p, window := s.svc.window.filter fun e => decide (e.1 < ctr 0x0100 0) } }) s

/-- COUNTER_READ with OP ARM. -/
def counterArm (cid : Nat) (s : State) : State := setProfiling cid 1 (some []) s

/-- Meaning of COUNTER_ARM. -/
def execCounterArm (cid : Nat) (s : State) : Host.Outcome State Fault Refusal := .next (counterArm cid s)

/-- COUNTER_READ with OP DISARM. -/
def counterDisarm (cid : Nat) (s : State) : State := setProfiling cid 2 none s

/-- Meaning of COUNTER_DISARM. -/
def execCounterDisarm (cid : Nat) (s : State) : Host.Outcome State Fault Refusal := .next (counterDisarm cid s)

/-! ### Margins (14 R425) -/

/-- The margin report leaves and MARGIN_SCAN replies with its 624 bytes. -/
def replyMargins (cid : Nat) (c : Cmd) (s : State) : State :=
  finish cid .done (packLen (marginReport s)) 0 (coarsened s) .none (writeFields (le c.pkt 24 8) (marginReport s) s)

/-- MARGIN_SCAN: REPORT at once, FRESH once the new measurements are in. -/
def marginScan (cid : Nat) (s : State) : State :=
  runCmd cid 0x0805 (fun c s => if le c.pkt 20 1 = 1 then begun cid [] s else replyMargins cid c s) s

/-- Meaning of MARGIN_SCAN. -/
def execMarginScan (cid : Nat) (s : State) : Host.Outcome State Fault Refusal := .next (marginScan cid s)

/-- MARGIN_SCAN_COMPLETE: new optical samples, and the eye of every channel in service. -/
def marginScanned (cid : Nat) (tx rx : List Int) (eyes : List (Nat × Nat)) (s : State) : State :=
  match inProgress s cid 0x0805 with
  | none => s
  | some c =>
    let s := if opticsOn s then takeOptical tx rx s else s
    replyMargins cid c ((servingChannels s).foldl (fun s ch => takeEye ch eyes[ch]? s) s)

/-- Meaning of MARGIN_SCAN_COMPLETE. -/
def execMarginScanComplete (cid : Nat) (tx rx : List Int) (eyes : List (Nat × Nat)) (s : State) :
    Host.Outcome State Fault Refusal := .next (marginScanned cid tx rx eyes s)

/-! ### Trace (14 R421, R422) -/

/-- TRACE_CONFIG. -/
def traceConfig (cid : Nat) (s : State) : State :=
  runCmd cid 0x0802 (fun c s =>
    let p := c.pkt
    if partitioned s then refuse cid .accessDenied 5 s
    else
      let t : Trace :=
        { on := true, flags := le p 21 1, mask := le p 24 4, period := le p 28 4, sent := 0, dropped := 0,
          nextSync := now s + 100000, nextSample := now s + le p 28 4 }
      done cid 0 0 { s with svc := { s.svc with trace := if le p 20 1 = 1 then t else Trace.off } }) s

/-- Meaning of TRACE_CONFIG. -/
def execTraceConfig (cid : Nat) (s : State) : Host.Outcome State Fault Refusal := .next (traceConfig cid s)

/-- TRACE_COUNTER_SAMPLE: a record of code 0x02nn for each armed profiling counter. -/
def traceSample (s : State) : State :=
  let t := s.svc.trace
  if !(hubOn s && t.on && t.flags.testBit 1 && s.svc.prof.isSome && decide (t.nextSample ≤ now s)) then s
  else
    let s := (instances 1).foldl (fun s e =>
      traceRec e.2 (0x0200 + e.1 % 256) (tgetD (s.svc.prof.getD []) (ctr e.1 e.2) 0 % 2 ^ 32) s) s
    { s with svc := { s.svc with trace := { s.svc.trace with nextSample := t.nextSample + t.period } } }

/-- Meaning of TRACE_COUNTER_SAMPLE. -/
def execTraceCounterSample (s : State) : Host.Outcome State Fault Refusal := .next (traceSample s)

/-- TRACE_SYNC: the records dropped since the previous SYNC. -/
def traceSyncRec (s : State) : State :=
  let t := s.svc.trace
  if !(hubOn s && t.on && decide (t.nextSync ≤ now s)) then s
  else
    let s := { s with svc := { s.svc with trace := { t with dropped := 0, nextSync := t.nextSync + 100000 } } }
    traceAny 0x0300 (sat 32 t.dropped) s

/-- Meaning of TRACE_SYNC. -/
def execTraceSync (s : State) : Host.Outcome State Fault Refusal := .next (traceSyncRec s)

end Sys2Proof.Machine
end

