-- ==== Sys2Proof/Machine/Heartbeat.lean ====
section
/-! DEFINITION. Liveness: PROGRESS, the wedge, the watchdog in service (10 R319, R320, 11 R345, 14 R426). -/
namespace Sys2Proof.Machine

/-- LIVENESS_MARK (10 R319): processor 0 is the fast path, 1 to 4 the command processors 0 to 3. PROGRESS advances when all five
have posted since its last advance. -/
def liveness (k : Nat) (s : State) : State :=
  if !(hubOn s && s.clk.syspll && decide (k ≤ 4)) then s
  else
    let marks := if s.pair.marks.contains k then s.pair.marks else s.pair.marks ++ [k]
    if marks.length = 5 then modPair (fun p => { p with progress := p.progress + 1, marks := [], lastAdvance := now s }) s
    else modPair (fun p => { p with marks := marks }) s

/-- Meaning of LIVENESS_MARK. -/
def execLivenessMark (processor : Nat) (s : State) : Host.Outcome State Fault Refusal := .next (liveness processor s)

/-- Marks missing since the last advance (14 Table 14-6). -/
def stalled (s : State) : Nat := ((List.range 5).map fun k => bit (!s.pair.marks.contains k) * 2 ^ k).sum

/-- WEDGE (10 R320): a bound module whose PROGRESS has not advanced for 1,200 ticks. -/
def wedge (s : State) : State :=
  if hubOn s && bound s && !s.pair.wedged && decide (s.pair.lastAdvance + 1200 ≤ now s) then
    signalDying 5 (bobPost 0x16 0x001A (stalled s) (modPair (fun p => { p with wedged := true }) s))
  else s

/-- Meaning of WEDGE. -/
def execWedge (s : State) : Host.Outcome State Fault Refusal := .next (wedge s)

/-- WATCHDOG_RESET (11 R345): an unbound module in service without an advance for 100 ms; the sweep, then the reset. -/
def watchdogReset (s : State) : State :=
  if hubOn s && !bound s && serving s && s.sent.sweep.isNone && decide (s.pair.lastAdvance + 10000000 ≤ now s) then
    sweep .cancelled 4 (.resetModule 5) s
  else s

/-- Meaning of WATCHDOG_RESET. -/
def execWatchdogReset (s : State) : Host.Outcome State Fault Refusal := .next (watchdogReset s)

end Sys2Proof.Machine
end

