-- ==== Sys2Proof/Machine/Mirror.lean ====
section
/-! DEFINITION. Mirrored records and takeover: records received and acknowledged, SETUP records applied and reported, frames
received, the partner lost (10 R304-R316, R321-R336, 13 R398). -/
namespace Sys2Proof.Machine

/-! ### Mirrored objects discarded (10 R332, R334, R338) -/

/-- Queues that stay bound: queue 0, and those a final reply still waits for. -/
def queueKept (s : State) (q : Nat) : Bool := q = 0 || s.arb.cands.any fun c => c.queue = q

/-- A module discards every mirrored object and keeps ring 0 only (notes/assumptions 45). -/
def discardMirrored (s : State) : State :=
  let s := ((s.rings.map Prod.fst).filter fun n => n != 0).foldl (fun s n => releaseReads n s) s
  { s with rings := s.rings.filter fun e => e.1 = 0, queues := s.queues.filter fun e => queueKept s e.1,
           cmds := s.cmds.filter fun e => e.2.ring = 0 && e.2.given.isNone, reqs := [], sent := { s.sent with entries := [] },
           fences := [], accts := s.accts.filter fun e => s.rings.any fun r => r.1 = 0 && r.2.account = e.1, pats := [],
           apps := [], seqs := [], pages := [], streams := [], engines := [], encs := [], tenants := [], parts := none,
           halo := [], stages := [], reqGens := advanceGens s.reqs (fun _ => true) (·.gen) 65535 s.reqGens,
           patGens := advanceGens s.pats (fun _ => true) (·.gen) patTop s.patGens,
           appGens := advanceGens s.apps (fun _ => true) (·.gen) 62 s.appGens,
           seqGens := advanceGens s.seqs (fun _ => true) (·.gen) seqTop s.seqGens,
           streamGens := advanceGens s.streams (fun _ => true) (·.gen) streamTop s.streamGens,
           encGens := advanceGens s.encs (fun _ => true) (·.gen) streamTop s.encGens,
           pair := { s.pair with held := [], waiting := [], results := [], openCmds := [], setups := [], awaiting := [] } }

/-! ### Applying records (10 Table 10-6, R312-R315) -/

/-- A request entry as a copy: not armed, and not started (10 R314). -/
def copyReq (r : Req) : Req :=
  { r with st := if r.final.isSome then .replied else .admitted, cores := [], deepest := 0, result := none, stopped := false, lent := false,
           partner := true, inOk := !r.bufFlags.getLsbD 0 && !r.bufFlags.getLsbD 1 }

/-- The sentinel's copy of a mirrored entry, its ticks still the active's. -/
def copyEntry (m : MirrorReq) : SEntry :=
  { gen := m.entry.gen, seqHandle := m.seqHandle, queue := m.entry.queue, tag := m.entry.tag, seqNo := m.entry.seqNo,
    fallback := m.fallback, cutoff := m.cutoff, deepest := 0, final := m.entry.final.isSome, mirror := m.entry.mirror,
    armed := false, lost := false }

/-- BALANCE of an account as a record carries it (10 R315). -/
def setBalance (account : Nat) (b : Int) (s : State) : State :=
  { s with accts := tmod s.accts account fun a => { a with balance := b } }

/-- A copy whose work this module runs for the active goes on with it while the active counts it as running (10 R308). -/
def keepLent (old : Option Req) (r : Req) : Req :=
  match old with
  | some o => if o.lent && o.gen = r.gen && inFlightState r.st then { copyReq r with st := o.st, cores := o.cores, lent := true } else copyReq r
  | none => copyReq r

/-- A REQUEST record. -/
def applyRequest (slot : Nat) (m : MirrorReq) (s : State) : State :=
  setBalance m.entry.account m.balance
    { s with reqs := tset s.reqs slot (keepLent (tget s.reqs slot) m.entry), reqGens := tset s.reqGens slot m.entry.gen,
             sent := { s.sent with entries := tset s.sent.entries slot (copyEntry m) },
             nextReq := max s.nextReq (m.entry.number + 1), nextCid := max s.nextCid (m.entry.order + 1) }

/-- A FETCH record: the ring's head, and the pair-applied commands whose SETUP records are still to come. -/
def applyFetch (ring head : Nat) (slots : List (Nat × BitVec 64 × BitVec 32)) (s : State) : State :=
  let move := fun (x : Ring) =>
    { x with fetched := head, visible := max x.visible head, stamps := x.stamps.filter fun e => decide (head < e.1) }
  let due := (slots.filter fun e => pairApplied e.1).map fun e => (ring, e.2.1, e.2.2)
  modPair (fun p => { p with setups := p.setups ++ due }) (modRing ring move s)

/-- Pages of a sequence that positions of a layer need and it has not (10 R314). -/
def kvNeeds (s : State) (i layer first count : Nat) (l : AttnLayer) : List PageUse :=
  let have_ := fun n => s.pages.any fun e => match e.2.use with
    | .kv k m p _ _ => k = i && m = layer && p = n
    | _ => false
  let lo := first / perPage l
  (((List.range (ceilDiv (first + count) (perPage l) - lo)).map (· + lo)).filter fun n => !have_ n).map fun n =>
    .kv i layer n false false

/-- A KV record: its entries go to pages of this module's own, as a pending commit. -/
def applyKv (i layer first count data : Nat) (s : State) : State :=
  match tget s.seqs i with
  | none => s
  | some q =>
    match (layersOf s q.pattern)[layer]? with
    | none => s
    | some l =>
      let kv := kvNeeds s i layer first count l
      let list := List.replicate (ceilDiv (8 * (seqPages s i l.half + kv.length)) 65536 - listPages s i l.half) (.pageList i)
      if freePages s l.half q.tenant < (list ++ kv).length then s
      else storeLists i ((List.range count).foldl (fun s n =>
        match seqEntry s i layer l (first + n) with
        | some e => putEntry e l.kvBytes (data >>> (8 * (l.kvBytes * n))) s
        | none => s) (allocPages l.half q.tenant (list ++ kv) s))

/-- A FINAL record: the pending commit takes place or is dropped, and the fence is updated (10 R313); a second one, sent at
retirement, frees the entry. -/
def applyFinal (slot : Nat) (st : Status) (balance : Int) (committed : Nat) (s : State) : State :=
  match tget s.reqs slot with
  | none => s
  | some r =>
    let s := setBalance r.account balance (modPair (fun p => { p with results := tdel p.results slot }) s)
    if r.final.isSome then
      let s := { s with reqs := tdel s.reqs slot, reqGens := tset s.reqGens slot (nextGen 65535 r.gen),
                        sent := { s.sent with entries := tdel s.sent.entries slot } }
      match r.applique with
      | some (i, _) => drainApplique i s
      | none => s
    else
      let s := modEntry slot (fun e => { e with final := true })
        (modReq slot (fun r => { r with final := some st, st := .replied, cores := [], lent := false }) s)
      let s := if r.lent then releasePages slot { r with seqIdx := none } s else s
      let s := match r.seqIdx with
        | none => s
        | some i => if st = .done then commitSeq i committed s
            else trimSeq i (((tget s.seqs i).map (·.committed)).getD 0) s
      match r.fence with
      | some f => updateFence f r.seqNo st s
      | none => s

/-- A SEQUENCE record. -/
def applySeq (i gen st committed pattern : Nat) (applique : Option (Nat × Nat)) (tenant : Nat) (s : State) : State :=
  let state : SeqState := if st = 0 then .open else if st = 1 then .awaitingCommit else if st = 2 then .broken else .closing
  let old := tget s.seqs i
  let q : Sequence :=
    { gen := gen, pattern := pattern, tenant := tenant, applique := applique, st := state, committed := committed, prov := none,
      mirrored := true, closer := old.bind (·.closer), freed := (old.map (·.freed)).getD 0 }
  { s with seqs := tset s.seqs i q, seqGens := tset s.seqGens i gen }

/-- A FENCE record. -/
def applyFence (i gen tenant : Nat) (v : BitVec 64) (allocated : Bool) (s : State) : State :=
  if allocated then
    { s with fences := tset s.fences i { gen := gen, tenant := tenant, value := v }, fenceGens := tset s.fenceGens i gen }
  else { s with fences := tdel s.fences i }

/-- A COMMAND record opens or closes an active-only command. -/
def applyCommand (ring slot op : Nat) (tag : BitVec 64) (seqNo : BitVec 32) (closed : Bool) (s : State) : State :=
  let drop := fun (l : List (Nat × Nat × Nat × BitVec 64 × BitVec 32)) => l.filter fun e => e != (ring, slot, op, tag, seqNo)
  if closed then modPair (fun p => { p with openCmds := drop p.openCmds }) s
  else modPair (fun p => { p with openCmds := p.openCmds ++ [(ring, slot, op, tag, seqNo)] }) s

/-! ### SETUP records (10 R304-R306) -/

/-- The application of a SETUP record is reported; where it failed the cause is recorded and the pair becomes DEGRADED. -/
def reportSetup (ring : Nat) (tag : BitVec 64) (ok : Bool) (s : State) : State :=
  let s := emit (.applied ring tag ok) s
  if ok then s
  else
    let s := bobPost 0x10 0x000C ring s
    if s.pair.mode = .activeStandby then setMode .degraded s.pair.role s else s

/-- The command that a SETUP record makes this module carry out, with the active's outcome. -/
def setupCmd (s : State) (r : Record) (p : Packet) (x : Ring) (out : Status × Nat × BitVec 64) : Cmd :=
  { ring := r.key, order := r.slot, pkt := p, doorbell := now s, tenant := x.tenant, queue := x.queue, phase := .ready,
    since := now s, keyGen := currentGen s (x.tenant.getD 0), partner := true, given := some out, aux := [] }

/-- The committed length that a REQ_COMMIT gave (05 R174). -/
def commitGiven (p : Packet) (v : BitVec 64) (s : State) : State :=
  match findSeq s (le p 20 4) with
  | some (i, _) => trimSeq i v.toNat (modSeq i (fun q => { q with st := .open, prov := none, committed := v.toNat }) s)
  | none => s

/-- A SETUP record: a command that changed nothing, or nothing here, is reported at once; another is carried out as a command of
this module, whose rows then run. A module without the means fails it. -/
def applySetup (r : Record) (p : Packet) (st : Status) (d : Nat) (v : BitVec 64) (applicable : Bool) (s : State) : State :=
  let op := opcodeOf p
  let tag := tagOf p
  let s := modPair (fun q => { q with setups := q.setups.filter fun e => e != (r.key, tag, seqOf p) }) s
  if !succeeds st || op = 0x0205 || (op = 0x0207 && (findSeq s (le p 20 4)).isNone) then reportSetup r.key tag true s
  else if op = 0x0204 then reportSetup r.key tag true (commitGiven p v s)
  else
    match applicable, tget s.rings r.key with
    | true, some x => { s with cmds := tset s.cmds s.nextCid (setupCmd s r p x (st, d, v)), nextCid := s.nextCid + 1 }
    | _, _ => reportSetup r.key tag false s

/-- Commands carried out from SETUP records that have ended are reported, and their effects at a reply take place. -/
def reportApplied (s : State) : State :=
  if !holdsCopy s then s
  else
    s.pair.awaiting.foldl (fun s w =>
      match tget s.cmds w.1 with
      | some c =>
        let s := { s with cmds := tdel s.cmds w.1 }
        let ok := succeeds w.2.status
        reportSetup c.ring (tagOf c.pkt) ok (if ok then onAccept w.2.act s else s)
      | none => s) (modPair (fun p => { p with awaiting := [] }) s)

/-! ### Divergence (10 R336, Table 10-12) -/

/-- Requests of a sequence whose final replies are not accepted end with DIVERGED. -/
def divergeSeq (i kind : Nat) (s : State) : State :=
  endReqs (liveReqs s fun r => r.seqIdx == some i) .diverged kind (breakSeq i s)

/-- Both CRCs are logged, and the object is resolved. -/
def diverge (r : Record) (s : State) : State :=
  let kind := recKind r.body
  let own := ((tget s.pair.held (objKey kind r.key)).map (·.2)).getD 0
  let s := bobPost 0x10 0x000B r.crc.toNat (bobPost 0x10 0x000A own.toNat s)
  let s := modPair (fun p => { p with diverged := p.diverged + 1 }) s
  match r.body with
  | .fetch head _ => modRing r.key (fun x => { x with fetched := max x.fetched head, visible := max x.visible head }) s
  | .request _ => endReq r.key .diverged 2 s
  | .result _ _ _ _ => endReq r.key .diverged 3 s
  | .final _ _ _ => endReq r.key .diverged 4 s
  | .kv .. => divergeSeq r.key 5 s
  | .sequence _ _ _ _ _ _ => divergeSeq r.key 6 s
  | .budget b w => if holdsCopy s then
      { s with accts := tmod s.accts r.key fun a => { a with balance := b, window := w } } else s
  | .fence _ _ v _ =>
    { s with fences := tmod s.fences r.key fun f => { f with value := if f.value.toNat < v.toNat then v else f.value } }
  | .setup _ _ _ _ _ _ | .command _ _ _ _ =>
    let s := setMode .degraded s.pair.role s
    if holdsCopy s then discardMirrored s else releaseWaits s

/-! ### Records received (10 R309-R311) -/

/-- The burgee tag fits: the tenant's epoch and one of its generations (09 R288, 10 R309). -/
def burgeeFits (s : State) (b : BitVec 16) : Bool :=
  b = 0 || (match tget s.tenants (b.toNat / 2 ^ 13) with
    | some x => x.st == .active && x.epoch = bitsOf b.toNat 12 5 &&
        [x.cur, x.prev].any fun g => (g.map fun k => k.num % 2) == some (bitsOf b.toNat 4 4)
    | none => false)

/-- A record is applied to the copies. -/
def applyRecord (r : Record) (s : State) : State :=
  match r.body with
  | .fetch head slots => applyFetch r.key head slots s
  | .request m => applyRequest r.key m s
  | .result st d v n =>
    modPair (fun p => { p with results := tset p.results r.key { status := st, detail := d, value := v, committed := n } }) s
  | .final st b n => applyFinal r.key st b n s
  | .kv layer first count data => applyKv r.key layer first count data s
  | .sequence gen st n pat app t => applySeq r.key gen st n pat app t s
  | .budget b w => { s with accts := tmod s.accts r.key fun a => { a with balance := b, window := w } }
  | .fence gen t v on => applyFence r.key gen t v on s
  | .setup p _ st d v ok => applySetup r p st d v ok s
  | .command op tag n closed => applyCommand r.key r.slot op tag n closed s

/-- This module takes records in: it holds copies, and the pair still mirrors. -/
def intakeOpen (s : State) : Bool :=
  hubOn s && s.pair.linkUp && holdsCopy s && (s.pair.mode == .activeStandby || s.pair.mode == .resilvering)

/-- Records for objects that a phase still to come copies wait (10 R333): phase 2 brings sequences, accounts, fences and rings, and KV
entries go to sequences. -/
def waitsForPhase (s : State) (r : Record) : Bool :=
  s.pair.mode == .resilvering && decide (s.pair.phase < 3) && decide (5 ≤ recKind r.body ∧ recKind r.body ≤ 9)

/-- A record later than the copy held is applied and acknowledged, an equal one with an equal CRC acknowledged again, an earlier one
ignored, and an equal one with another CRC has DIVERGED (10 R310). -/
def takeRecord (r : Record) (s : State) : State :=
  let k := objKey (recKind r.body) r.key
  let take := fun (s : State) =>
    emit (.ack r.commitSeq) (applyRecord r (modPair (fun p =>
      { p with held := tset p.held k (r.commitSeq, r.crc), commitSeq := max p.commitSeq r.commitSeq }) s))
  match tget s.pair.held k with
  | none => take s
  | some (n, crc) =>
    if n < r.commitSeq then take s
    else if r.commitSeq < n then s
    else if crc = r.crc then emit (.ack r.commitSeq) s
    else diverge r s

/-- A record is taken in COMMIT_SEQ order, in which the link delivers (10 R310), or waits for its phase. -/
def intake (r : Record) (s : State) : State :=
  if waitsForPhase s r then modPair (fun p => { p with waiting := p.waiting ++ [r] }) s else takeRecord r s

/-- Records that waited are taken. One that is no later than the copy of its object counts as held before it: it is acknowledged, and a
SETUP record, whose outcome that copy has, reported (10 R310, R333). -/
def takeWaiting (copiedAt : Nat) (s : State) : State :=
  let due := s.pair.waiting
  due.foldl (fun s r =>
    if r.commitSeq ≤ copiedAt && recKind r.body != 5 then
      let s := emit (.ack r.commitSeq) s
      match r.body with
      | .setup p _ _ _ _ _ => reportSetup r.key (tagOf p) true s
      | _ => s
    else takeRecord r s) (modPair (fun p => { p with waiting := [] }) s)

/-- MIRROR_RECORD_RX: a record whose tag, CRC or burgee fails is refused. The burgee of a tenant that phase 2 has still to bring is not
judged (10 R309, R333). -/
def recordRx (r : Record) (s : State) : State :=
  if intakeOpen s && r.tagOk && r.crcOk && (burgeeFits s r.burgee || (s.pair.mode == .resilvering && decide (s.pair.phase < 3))) then reportApplied (intake r s) else s

/-- Meaning of MIRROR_RECORD_RX. -/
def execMirrorRecordRx (r : Record) (s : State) : Host.Outcome State Fault Refusal := .next (recordRx r s)

/-! ### Acknowledgements and reports (10 R304, R311) -/

/-- HANDOVER is signalled: from here on the partner answers for every request and for every command of a ring but ring 0 (10 R337
step 4, notes/assumptions 47). -/
def handOver (s : State) : State :=
  let s := modPair (fun p => { p with handover := true, leaves := true }) s
  let other := ((s.rings.map Prod.fst).filter fun n => n != 0).foldl (fun s n => releaseReads n s) s
  let mine := fun (c : Cand) => match c.target with
    | .cmd cid => ((tget s.cmds cid).map (·.ring)) == some 0
    | .req _ => false
  sendFrames false
    { other with arb := { other.arb with cands := other.arb.cands.filter mine }, cmds := other.cmds.filter fun e => e.2.ring = 0 }

/-- HANDOVER is signalled once every record is acknowledged (10 R337 steps 3, 4). -/
def tryHandover (s : State) : State :=
  if s.pair.switching.isSome && !s.pair.handover && s.pair.unacked.isEmpty && s.pair.awaiting.isEmpty then handOver s else s

/-- RECORD_ACK_RX (10 R311). -/
def ackRx (n : Nat) (s : State) : State :=
  match s.pair.unacked.find? fun u => u.commitSeq = n with
  | none => s
  | some u => tryHandover (releaseAck u (modPair (fun p => { p with unacked := p.unacked.filter fun x => x.commitSeq != n }) s))

/-- Meaning of RECORD_ACK_RX. -/
def execRecordAckRx (commitSeq : Nat) (s : State) : Host.Outcome State Fault Refusal := .next (ackRx commitSeq s)

/-- RECORD_ACK_TIMEOUT (10 R311): 12 µs without an acknowledgement. -/
def ackTimeout (s : State) : State :=
  if s.pair.mode = .activeStandby ∧ s.pair.role = .active ∧ (s.pair.unacked.any fun u => decide (u.tick + 1200 ≤ now s)) = true then
    releaseWaits (setMode .degraded .active s)
  else s

/-- Meaning of RECORD_ACK_TIMEOUT. -/
def execRecordAckTimeout (s : State) : Host.Outcome State Fault Refusal := .next (ackTimeout s)

/-- SETUP_APPLIED_REPORT (10 R304): the active's reply; a failure on the standby alone makes the pair DEGRADED. -/
def setupReport (cid : Nat) (applied : Bool) (s : State) : State :=
  if holdsCopy s then s
  else
    match s.pair.awaiting.find? fun w => w.1 = cid with
    | none => s
    | some w =>
      let s := submit { w.2 with tick := arrival s w.2.queue } (modPair (fun p => { p with awaiting := p.awaiting.filter fun x => x.1 != cid }) s)
      if applied || s.pair.mode != .activeStandby then tryHandover s else releaseWaits (setMode .degraded s.pair.role s)

/-- Meaning of SETUP_APPLIED_REPORT. -/
def execSetupAppliedReport (cid : Nat) (applied : Bool) (s : State) : Host.Outcome State Fault Refusal :=
  .next (setupReport cid applied s)

/-! ### Takeover (10 R325) -/

/-- A tick of the partner in this module's LOCAL_TIME (10 R323). -/
def convertTick (s : State) (t : Tick) : Tick := ((t : Int) - s.pair.offset - 20).toNat

/-- Step 2: ticks are converted, and the entries of mirrored requests that are not final are armed. -/
def armCopies (s : State) : State :=
  let arm := fun (e : SEntry) =>
    { e with fallback := e.fallback.map (convertTick s), cutoff := e.cutoff.map (convertTick s), armed := !e.final && e.mirror }
  let conv := fun (r : Req) => { r with deadline := r.deadline.map (convertTick s), doorbell := convertTick s r.doorbell }
  let shift := fun (a : Account) => { a with window := convertTick s a.window }
  { s with sent := { s.sent with entries := tmap s.sent.entries fun _ e => arm e }, reqs := tmap s.reqs fun _ r => conv r,
           accts := tmap s.accts fun _ a => shift a }

/-- Steps 3 to 5 for one entry: its late fallback, the result held for it, or STATE_LOST. -/
def takeoverEntry (slot : Nat) (e : SEntry) (s : State) : State :=
  match tget s.reqs slot with
  | none => s
  | some r =>
    if !r.mirror then endReq slot .stateLost 1 s
    else
      let late := match e.fallback with
        | some f => decide (f ≤ now s)
        | none => false
      let s := if late then submit (sentinelCand s slot e .deadlineFallback (1 + e.deepest * 256) false) s else s
      match tget s.pair.results slot with
      | some h =>
        submit (reqCand s slot r h.status h.detail h.value 0 false)
          (modReq slot (fun r => { r with result := some (h.status, h.detail, h.value, 0), stopped := true, inOk := true }) s)
      | none => s

/-- STATE_LOST, DETAIL 2, for a command of the partner's whose outcome was not mirrored. -/
def loseCommand (ring slot op : Nat) (tag : BitVec 64) (seqNo : BitVec 32) (s : State) : State :=
  match tget s.rings ring with
  | none => s
  | some x =>
    let p := BitVec.ofNat 512 (op + seqNo.toNat * 2 ^ 32 + tag.toNat * 2 ^ 64)
    let c : Cmd := { ring := ring, order := slot, pkt := p, doorbell := now s, tenant := x.tenant, queue := x.queue, phase := .ready,
                     since := now s, keyGen := 0, partner := true, given := none, aux := [] }
    refuse s.nextCid .stateLost 2 { s with cmds := tset s.cmds s.nextCid c, nextCid := s.nextCid + 1 }

/-- Step 8: rings are fetched from the mirrored heads; what was visible by then counts as fetched by the partner (R327). -/
def openRings (s : State) : State :=
  let open_ := fun (n : Nat) (x : Ring) =>
    if n = 0 then x else { x with pending := decide (x.fetched < x.visible), partnerUpTo := x.visible }
  let owed := fun (q : Nat) => (s.cmds.filter fun e => e.2.queue = q).length +
    (s.reqs.filter fun e => e.2.queue = q && e.2.final.isNone).length +
    (s.reads.filter fun r => ((tget s.rings r.ring).map (·.queue)) == some q).length
  { s with rings := tmap s.rings open_, queues := tmap s.queues fun q x => { x with reserved := owed q } }

/-- What is not mirrored is lost (10 R316, 05 R160): pictures, references, gradients, provisional entries. -/
def loseWork (s : State) : State :=
  let empty := fun (x : Stream) => { x with bufs := List.replicate x.bufs.length emptyBuf, slots := List.replicate 8 none, sets := [], feeds := [] }
  let fresh := fun (x : Encoder) => { x with frames := [], sinceIdr := 0 }
  let zero := fun (a : Applique) =>
    { a with grads := List.replicate a.weights.length 0, momenta := List.replicate a.weights.length 0 }
  let reopen := fun (q : Sequence) => if q.st = .awaitingCommit then { q with st := .open, prov := none } else q
  { s with streams := tmap s.streams fun _ x => empty x, encs := tmap s.encs fun _ x => fresh x,
           apps := tmap s.apps fun _ a => zero a, seqs := tmap s.seqs fun _ q => reopen q }

/-- Step 9: recovery windows open in both halves. -/
def openWindows (s : State) : State :=
  [0, 1].foldl (fun s h => modHalf h (fun x => { x with window := true, diagonal := [], pricks := x.pricks.filter fun y => y.slot.isSome }) s) s

/-- Takeover from step 2 on: the mode stays at a switch-back and becomes SOLO at a loss. -/
def takeover (handover : Bool) (s : State) : State :=
  let s := armCopies (reportApplied s)
  let s := modPair (fun p => { p with role := .active }) s
  let due := sortBy (fun a b => tickLe a.2.fallback b.2.fallback) (s.sent.entries.filter fun e => !e.2.final)
  let s := due.foldl (fun s e => takeoverEntry e.1 e.2 s) s
  let s := s.pair.openCmds.foldl (fun s c => loseCommand c.1 c.2.1 c.2.2.1 c.2.2.2.1 c.2.2.2.2 s) s
  let s := s.pair.setups.foldl (fun s c => loseCommand c.1 0 0 c.2.1 c.2.2 s) s
  let s := shedLent { s with cmds := tmap s.cmds fun _ c => { c with given := none } }
  let s := openWindows (openRings (loseWork s))
  let s := modPair (fun p =>
    { p with role := .standby, results := [], openCmds := [], setups := [], unacked := [], lastTakeover := now s }) s
  setMode (if handover then .activeStandby else .solo) .active s

/-! ### Loss of the partner (10 R321, R324, R334) -/

/-- The partner is lost; a halyard is first judged 1,200 ticks after the binding (notes/assumptions 41). -/
def partnerGone (s : State) : Bool :=
  let t := now s
  let a := s.pair.heardA
  let b := s.pair.heardB
  s.pair.partnerDying || (decide (s.pair.since + 1200 ≤ t) &&
    ((silent a t && !progressing b t) || (silent b t && !progressing a t)))

/-- The spare, or a standby without a full copy, gives the entries up: STATE_LOST, DETAIL 3, for each not FINAL (10 R334). -/
def giveUp (s : State) : State :=
  let s := modPair (fun p => { p with role := .none }) s
  let due := (s.reqs.filter fun e => e.2.final.isNone).map Prod.fst
  setMode .solo .none (discardMirrored (due.foldl (fun s k => endReq k .stateLost 3 s) s))

/-- Commands of group 0x06 that wait for the partner end: RESILVER_START with STATE_LOST, DETAIL 3, PAIR_SWITCHBACK with BAD_STATE,
DETAIL 20 (notes/assumptions 46). -/
def endPairCmds (s : State) : State :=
  let s := match s.pair.resilver with
    | some c => refuse c .stateLost 3 s
    | none => s
  let s := match s.pair.switching with
    | some c => refuse c .badState 20 s
    | none => s
  modPair (fun p => { p with resilver := none, switching := none, handover := false, phase := 0, storeLeft := 0 }) s

/-- PARTNER_LOST (10 R321, R324). -/
def partnerLost (s : State) : State :=
  if !hubOn s || !bound s || s.pair.mode == .solo || s.pair.dyingSent.isSome || !partnerGone s then s
  else
    match s.pair.role, s.pair.mode with
    | .standby, .activeStandby => takeover false s
    | .standby, _ | .spare, _ => giveUp s
    | .active, _ => releaseWaits (setMode .solo .active (modPair (fun p => { p with leaves := false }) (endPairCmds s)))
    | .none, _ => s

/-- Meaning of PARTNER_LOST. -/
def execPartnerLost (s : State) : Host.Outcome State Fault Refusal := .next (partnerLost s)

/-! ### Frames received (10 R317-R323, 13 R398) -/

def roleOf (n : Nat) : Role := if n = 1 then .active else if n = 2 then .standby else if n = 3 then .spare else .none

/-- The binding ends on this module (10 R338). -/
def unbind (s : State) : State :=
  let keepsNothing := holdsCopy s || (s.pair.mode == .solo && s.pair.role == .none)
  let s := endPairCmds s
  let s := if keepsNothing then discardMirrored s else releaseWaits s
  let s := setMode .unpaired .none s
  let p := s.pair
  { s with pair := { Pair.reset with linkUp := p.linkUp, binding := p.binding, progress := p.progress, marks := p.marks, lastAdvance := p.lastAdvance } }

/-- The mode that a module without ROLE ACTIVE takes from what the active's Halyard A frames report (notes/assumptions 42). -/
def followMode (mode : Nat) (s : State) : State :=
  if s.pair.partnerRole ≠ .active ∨ s.pair.role = .active ∨ s.pair.dyingSent.isSome = true then s
  else if mode = 2 ∧ s.pair.mode = .degraded then setMode .resilvering .spare (modPair (fun p => { p with phase := 1 }) (discardMirrored s))
  else if mode = 1 ∧ s.pair.mode = .resilvering then
    reportApplied (takeWaiting 0 (setMode .activeStandby .standby (modPair (fun p => { p with phase := 0 }) s)))
  else if mode = 4 ∧ s.pair.mode = .activeStandby then setMode .degraded s.pair.role s
  else s

/-- What a valid frame of either halyard says: PROGRESS, DYING with its cause, ROLE, and HANDOVER, at which the standby takes
over (10 R337 step 5). -/
def takeFrame (a : Bool) (flags cause progress : Nat) (s : State) : State :=
  let push := fun (l : Heard) => (now s, progress) :: l.filter fun e => decide (now s ≤ e.1 + 1200)
  let s := modPair (fun p => { p with heardA := if a then push p.heardA else p.heardA,
                                      heardB := if a then p.heardB else push p.heardB,
                                      partnerRole := roleOf (bitsOf flags 3 2) }) s
  let s := if flags.testBit 0 && !s.pair.partnerDying then
      bobPost (if a then 0x1A else 0x1B) 0x0019 cause (modPair (fun p => { p with partnerDying := true, lastCause := cause }) s)
    else s
  if flags.testBit 1 && s.pair.role == .standby && s.pair.mode == .activeStandby then takeover true s else s

/-- OFFSET from a Halyard A frame: within ±20 ticks of the difference, the error a free value (10 R323, notes/assumptions 40). -/
def offsetEstimate (s : State) (partner : Nat) : Int := (partner : Int) - now s + ((freeWord s).toNat % 41 : Nat) - 20

/-- HALYARD_A_FRAME_RX: a valid frame has a correct CRC and PAIR_ID. -/
def frameARx (f : BitVec 256) (s : State) : State :=
  let v := f.toNat
  if !(hubOn s && bound s && s.pair.linkUp) || crc32c 28 (v % 2 ^ 224) ≠ bytesAt f 0x1C 4 || bytesAt f 4 4 ≠ s.pair.pairId.toNat then s
  else
    let s := stepFree (modPair (fun p => { p with offset := offsetEstimate s (bytesAt f 8 8) }) s)
    let s := takeFrame true (bytesAt f 1 1) (bytesAt f 2 1) (bytesAt f 0x10 8) s
    if bytesAt f 3 1 = 0 then unbind s else followMode (bytesAt f 3 1) s

/-- Meaning of HALYARD_A_FRAME_RX. -/
def execHalyardAFrameRx (frame : BitVec 256) (s : State) : Host.Outcome State Fault Refusal := .next (frameARx frame s)

/-- The 16 bytes of a Halyard B frame: the first 16 characters after at least two K28.5, all of them data (13 R398). A character is
(it is a K character, its byte). -/
def frameOf (idles : Nat) (chars : List (Bool × Byte)) : Option (BitVec 128) :=
  let l := chars.take 16
  if 2 ≤ idles ∧ l.length = 16 ∧ l.all (fun c => !c.1) = true then
    some (BitVec.ofNat 128 (pack (l.map fun c => (1, c.2.toNat))))
  else none

/-- HALYARD_B_FRAME_RX. -/
def frameBRx (idles : Nat) (chars : List (Bool × Byte)) (s : State) : State :=
  match frameOf idles chars with
  | none => s
  | some f =>
    if !(hubOn s && bound s) || crc32c 12 (f.toNat % 2 ^ 96) ≠ bytesAt f 0xC 4 || bytesAt f 2 2 ≠ s.pair.pairId.toNat % 2 ^ 16 then s
    else takeFrame false (bytesAt f 0 1) (bytesAt f 1 1) (bytesAt f 4 4) s

/-- Meaning of HALYARD_B_FRAME_RX. -/
def execHalyardBFrameRx (idles : Nat) (chars : List (Bool × Byte)) (s : State) : Host.Outcome State Fault Refusal :=
  .next (frameBRx idles chars s)

/-- HEARTBEAT_SEND (10 R317): every 400 ticks while bound, whatever the hub's other parts do (14 R426).
Reports of applied SETUP records go with it. -/
def heartbeat (s : State) : State :=
  if s.clk.sclk && bound s && decide (s.pair.nextBeat ≤ now s) then
    sendFrames false (modPair (fun p => { p with nextBeat := p.nextBeat + 400 }) (reportApplied s))
  else s

/-- Meaning of HEARTBEAT_SEND. -/
def execHeartbeatSend (s : State) : Host.Outcome State Fault Refusal := .next (heartbeat s)

/-! ### The mirror link (10 R298, R321) -/

/-- MIRROR_LINK_LOST: with Halyard B showing progress an ACTIVE/STANDBY pair becomes DEGRADED. -/
def linkLost (s : State) : State :=
  let s := modPair (fun p => { p with linkUp := false }) s
  if s.pair.mode = .activeStandby ∧ progressing s.pair.heardB (now s) = true then
    let s := setMode .degraded s.pair.role s
    if holdsCopy s then s else releaseWaits s
  else s

/-- Meaning of MIRROR_LINK_LOST. -/
def execMirrorLinkLost (s : State) : Host.Outcome State Fault Refusal := .next (linkLost s)

/-- MIRROR_LINK_UP: the transceiver is powered and the lanes are up. -/
def mirrorUp (s : State) : State := if hubOn s && opticsOn s then modPair (fun p => { p with linkUp := true }) s else s

/-- Meaning of MIRROR_LINK_UP. -/
def execMirrorLinkUp (s : State) : Host.Outcome State Fault Refusal := .next (mirrorUp s)

end Sys2Proof.Machine
end

