-- ==== Sys2Proof/Machine/Patterns.lean ====
section
/-! DEFINITION. Patterns and appliqués: store, stage, reside, evict, load, replace, retire (03 R109-R118, 06 R191, 08 R258-R261, 09
R290). -/
namespace Sys2Proof.Machine

/-! ### PATTERN_STORE (08 R259) -/

/-- Blocks of stores in progress; `aux` of one holds blocks, digest and summary. -/
def storesOpen (s : State) : List Cmd :=
  (s.cmds.filter fun e => opcodeOf e.2.pkt = 0x0104 && e.2.phase == .begun).map Prod.snd

def blocksUsed (s : State) : Nat :=
  (s.pats.map fun e => e.2.blocks).sum + ((storesOpen s).map fun c => c.aux.headD 0).sum

/-- 4 TiB of blocks (08 Table 8-3). -/
def storeBlocks : Nat := 67108864

/-- Header field of an image (08 Table 8-4). -/
def imgField (i : ImageRead) (off len : Nat) : Nat := bytesAt i.header off len

/-- A block's CRC is right. -/
def crcGood (b : BlockRead) : Bool := b.crc == b.computed

/-- The first failing check from R259 point 3 on. -/
def storeFault (s : State) (bytes : Nat) (i : ImageRead) : Option (Status × Nat) :=
  let n := bytes / 65536
  let id := BitVec.ofNat 32 (imgField i 0x10 4)
  let good := fun (e : BlockRead × Nat) => crcGood e.1 && e.1.block = e.2 && e.1.imageId == id
  if storeBlocks < blocksUsed s + n then some (.tableFull, 3)
  else if 4096 ≤ s.pats.length + (storesOpen s).length then some (.tableFull, 4)
  else if ((i.blocks.head?).map crcGood) != some true then some (.integrityMismatch, 0)
  else if imgField i 0 4 ≠ 0x54504B53 then some (.badParam, 0x8000)
  else if imgField i 4 2 ≠ 1 then some (.badParam, 0x8004)
  else if imgField i 8 4 ≠ n then some (.badParam, 0x8008)
  else
    match (i.blocks.take n).zipIdx.find? fun e => !good e with
    | some e => some (.integrityMismatch, e.2)
    | none =>
      if i.blocks.length < n then some (.integrityMismatch, i.blocks.length)
      else if imgField i 0x10 32 ≠ i.digest.toNat then some (.integrityMismatch, 0xFFFFFFFF)
      else none

/-- PATTERN_STORE (08 R259): the copy goes on until PATTERN_STORE_COMPLETE. -/
def patternStore (cid : Nat) (i : ImageRead) (s : State) : State :=
  runCmd cid 0x0104 (fun c s =>
    match storeFault s (le c.pkt 32 8) i with
    | some (st, d) => refuse cid st d s
    | none => begun cid [le c.pkt 32 8 / 65536, imgField i 0x10 32, imgField i 0x40 128] s) s

/-- Meaning of PATTERN_STORE. -/
def execPatternStore (cid : Nat) (image : ImageRead) (s : State) : Host.Outcome State Fault Refusal :=
  .next (patternStore cid image s)

/-- A pattern in the model store (03 R109). -/
def storedPattern (gen tenant : Nat) (aux : List Nat) (plan : Plan) : Pattern :=
  { gen := gen, tenant := tenant, blocks := aux.headD 0, digest := BitVec.ofNat 256 (aux.getD 1 0),
    summary := BitVec.ofNat 1024 (aux.getD 2 0), plan := plan, damaged := none, staged := false, res := .none, sram := false,
    leaving := false, want := none, staging := none, loading := none, evicting := none, migrated := [] }

/-- PATTERN_STORE_COMPLETE (03 R109): a new handle; `plan` is what Adtoic's blocks declare. -/
def patternStored (cid : Nat) (plan : Plan) (s : State) : State :=
  if flashLooped s then s
  else
  match inProgress s cid 0x0104, pickSlot s cid s.pats 4096 with
  | some c, some i =>
    let g := pickGen s cid 16 (tgetD s.patGens i 1)
    done cid 0 (BitVec.ofNat 64 (patHandle g i))
      { s with pats := tset s.pats i (storedPattern g (c.tenant.getD 0) c.aux plan), patGens := tset s.patGens i g }
  | _, _ => s

/-- Meaning of PATTERN_STORE_COMPLETE. -/
def execPatternStoreComplete (cid : Nat) (plan : Plan) (s : State) : Host.Outcome State Fault Refusal :=
  .next (patternStored cid plan s)

/-! ### Common checks -/

/-- A handle that names no pattern (notes/assumptions 27). -/
def patternFaultsAt (c : Cmd) (s : State) : List Nat := if (findPattern s (le c.pkt 20 4)).isNone then [20] else []

/-- A command on a pattern of its own tenant runs. -/
def runPattern (cid op : Nat) (f : Cmd → Nat → Pattern → State → State) (s : State) : State :=
  runCmdWith cid op patternFaultsAt (fun c s =>
    match findPattern s (le c.pkt 20 4) with
    | none => s
    | some (pi, p) => if some p.tenant ≠ c.tenant then refuse cid .accessDenied 2 s else f c pi p s) s

/-- A half that a pattern uses is not in service. -/
def halfOut (s : State) (p : Pattern) : Bool := [0, 1].any fun h => usesHalf p h && !halfInService s h

/-! ### PATTERN_STAGE (03 R110, 06 R191, 08 R261, 09 R290) -/

/-- The pattern's cores lie within its tenant's partition. -/
def coresAllowed (s : State) (p : Pattern) : Bool :=
  match partOf s p.tenant with
  | some e => p.plan.cores.all fun k => e.cores.testBit k
  | none => true

/-- A refusal for a fault in the image is recorded in the hub's bobbin (06 R191, 14 Table 14-6). -/
def stageRefused (cid row layer : Nat) (s : State) : State :=
  refuse cid .badParam 20 (bobPost 0x10 0x0008 (layer % 256 + row * 256) s)

/-- PATTERN_STAGE. DESIGN CHOICE (notes/assumptions 105): where several refusals apply, the spec gives no order; the model takes BAD_STATE
3, BUSY 15, BAD_STATE 1, 2 and 12, then BAD_PARAM 20 for the image (06 R191), then STATE_LOST 4. -/
def patternStage (cid : Nat) (s : State) : State :=
  runPattern cid 0x0101 (fun _ pi p s =>
    if p.evicting.isSome then refuse cid .badState 3 s
    else if p.staging.isSome then refuse cid .busy 15 s
    else if p.staged then refuse cid .badState 1 s
    else if fwMajor p ≠ runningMajor s then refuse cid .badState 2 s
    else if !coresAllowed s p then refuse cid .badState 12 s
    else
      match planFault p.plan with
      | some (row, layer) => stageRefused cid row layer s
      | none =>
        if halfOut s p then refuse cid .stateLost 4 s
        else begun cid [pi] (modPat pi (fun p => { p with staging := some cid }) s)) s

/-- Meaning of PATTERN_STAGE. -/
def execPatternStage (cid : Nat) (s : State) : Host.Outcome State Fault Refusal := .next (patternStage cid s)

/-- Pages of a staged pattern in a half: STAGED_BYTES shared evenly by the halves it uses (notes/assumptions 28). -/
def stagePages (p : Pattern) (h : Nat) : Nat :=
  if !usesHalf p h then 0
  else ceilDiv (if usesHalf p (1 - h) then ceilDiv (stagedBytes p) 2 else stagedBytes p) 65536

/-- A staging ends on a block, which the flash controller's bobbin records, and the pattern is DAMAGED (08 R261, R268). -/
def stageFails (cid pi block : Nat) (e : Status × Nat) (s : State) : State :=
  refuse cid e.1 e.2 (bobPost 0x19 0x0010 block (modPat pi (fun p => { p with staging := none, damaged := some e }) s))

/-- PATTERN_STAGE_COMPLETE (03 R110, 08 R261): the copy is complete, once its pages are there, or a block failed and the
pattern is DAMAGED. A copy of a DAMAGED pattern fails again in the same way. -/
def patternStaged (cid : Nat) (e : StageEnd) (s : State) : State :=
  if flashLooped s then s
  else
  match inProgress s cid 0x0101 with
  | none => s
  | some c =>
    let pi := c.aux.headD 0
    match tget s.pats pi with
    | none => s
    | some p =>
      match e with
      | .complete =>
        match p.damaged with
        | some f => refuse cid f.1 f.2 (modPat pi (fun p => { p with staging := none }) s)
        | none =>
          if !roomFor s p.tenant (stagePages p) then s
          else
          let s := takePages p.tenant (stagePages p) (.pattern pi) (modPat pi (fun p => { p with staging := none, staged := true }) s)
          let addr := le c.pkt 24 8
          done cid 0 0 (if addr = 0 then s else writeHost addr 128 p.summary.toNat s)
      | .ldpcFail b => stageFails cid pi b (ldpcEnd pi b) s
      | .checkFail b => stageFails cid pi b (checkEnd b) s

/-- Meaning of PATTERN_STAGE_COMPLETE. -/
def execPatternStageComplete (cid : Nat) (e : StageEnd) (s : State) : Host.Outcome State Fault Refusal :=
  .next (patternStaged cid e s)

/-! ### PATTERN_RESIDE (03 R111, 06 R198) -/

/-- What refuses a pinning: the pinned limit, the selvage space, the working state. DESIGN CHOICE (notes/assumptions 105): where
several apply, the spec gives no order, and the model takes them in this one. -/
def pinFault (s : State) (pi : Nat) (p : Pattern) : Option Nat :=
  let t := p.tenant
  let used := [0, 1].filter (usesHalf p)
  let others := (patsWith s fun q => q.sram || q.loading.isSome).filter fun j => j != pi
  if used.any fun h => decide (pinLimit s t h < pinnedUsed s t h pi + footprint s pi h) then some 1
  else if !fitsSelvage s others pi then some 5
  else if used.any fun h => decide (sramCap s t h < pinnedUsed s t h pi + workUsed s t h + footprint s pi h) then some 2
  else none

/-- Rotating patterns that hold SRAM, lowest rank first. -/
def withdrawable (s : State) (pi : Nat) : List Nat :=
  (ranking s).reverse.filter fun j => j != pi && ((tget s.pats j).any fun q => q.sram && !q.leaving)

/-- Patterns that will still hold SRAM beside a pinning: those that hold it and are not leaving, and those promised it. -/
def staying (s : State) (pi : Nat) : List Nat :=
  (patsWith s fun q => (q.sram && !q.leaving) || q.loading.isSome).filter fun j => j != pi

/-- Each half withdraws rotating patterns, lowest rank first, until the pattern fits (03 R111). -/
def withdrawFor (pi : Nat) : List Nat → State → State
  | [], s => s
  | j :: rest, s =>
    let l := staying s pi
    let helps := [0, 1].any fun h => patUses s j h && !pinFits s l pi h
    withdrawFor pi rest (if helps then modPat j (fun q => { q with leaving := true, want := none }) s else s)

/-- The stages that a vision pattern brings into residence: full plan, frame 0 (06 Table 6-5, R205). -/
def addStages (pi : Nat) (p : Pattern) (s : State) : State :=
  if p.plan.conv.isEmpty then s
  else
    let add := fun (s : State) h =>
      let k := stageKey pi h
      if usesHalf p h && (tget s.stages k).isNone then
        let g : Stage := withPlan p.plan h (reducedFor s pi h) { frame := 0, heights := planHeights p.plan h, reduced := none, began := none, waited := [], waits := [], flushed := false }
        { s with stages := tset s.stages k g }
      else s
    add (add s 0) 1

/-- The footprint exceeds a half's SRAM outside pinned patterns. -/
def tooLarge (s : State) (pi : Nat) (p : Pattern) : Bool :=
  [0, 1].any fun h => usesHalf p h && decide (sramCap s p.tenant h < pinnedUsed s p.tenant h pi + footprint s pi h)

/-- PATTERN_RESIDE with PINNED begins to load; one that is pinned already is done. -/
def pinPattern (cid pi : Nat) (p : Pattern) (s : State) : State :=
  if p.res = .pinned then done cid 0 0 s
  else
    match pinFault s pi p with
    | some d => refuse cid .busy d s
    | none =>
      let s := withdrawFor pi (withdrawable s pi) s
      begun cid [pi] (modPat pi (fun q => { q with loading := some cid, leaving := false, want := none }) s)

/-- PATTERN_RESIDE without PINNED: into the rotation, at once. -/
def rotatePattern (cid pi : Nat) (p : Pattern) (s : State) : State :=
  if tooLarge s pi p then refuse cid .busy 3 s
  else done cid 0 0 (rotate (addStages pi p (modPat pi (fun q => { q with res := .rotating }) s)))

/-- PATTERN_RESIDE. -/
def patternReside (cid : Nat) (s : State) : State :=
  runPattern cid 0x0102 (fun c pi p s =>
    if p.evicting.isSome then refuse cid .badState 3 s
    else if p.staging.isSome || p.loading.isSome then refuse cid .busy 15 s
    else if !p.staged then refuse cid .badState 1 s
    else if halfOut s p then refuse cid .stateLost 4 s
    else if c.pkt.getLsbD 192 then pinPattern cid pi p s
    else rotatePattern cid pi p s) s

/-- Meaning of PATTERN_RESIDE. -/
def execPatternReside (cid : Nat) (s : State) : Host.Outcome State Fault Refusal := .next (patternReside cid s)

/-- PATTERN_RESIDE_COMPLETE (03 R111): the pattern is loaded once the withdrawn patterns have released their SRAM. -/
def patternResident (cid : Nat) (s : State) : State :=
  match inProgress s cid 0x0102 with
  | none => s
  | some c =>
    let pi := c.aux.headD 0
    match tget s.pats pi with
    | none => s
    | some p =>
      let l := (patsWith s fun q => q.sram).filter fun j => j != pi
      if p.sram || (pinFits s l pi 0 && pinFits s l pi 1 && fitsSelvage s l pi) then
        let pin := fun (q : Pattern) => { q with loading := none, res := .pinned, sram := true, leaving := false, want := none }
        done cid 0 0 (rotate (addStages pi p (modPat pi pin s)))
      else s

/-- Meaning of PATTERN_RESIDE_COMPLETE. -/
def execPatternResideComplete (cid : Nat) (s : State) : Host.Outcome State Fault Refusal := .next (patternResident cid s)

/-! ### PATTERN_EVICT (03 R112) -/

/-- Tier of a pattern: 0 stored, 1 staged, 2 resident. -/
def tierOf (p : Pattern) : Nat := if resident p then 2 else bit p.staged

/-- What refuses an eviction to a target. -/
def evictFault (s : State) (pi : Nat) (p : Pattern) (target : Nat) : Option (Status × Nat) :=
  if p.evicting.isSome then some (.badState, 3)
  else if p.staging.isSome || p.loading.isSome then some (.busy, 15)
  else if tierOf p + target < 2 ∨ (target = 0 ∧ tierOf p ≠ 2) then some (.badState, 1)
  else if target ≠ 0 ∧ ((s.seqs.any fun e => e.2.pattern = pi) || s.apps.any fun e => e.2.pattern = pi) then some (.badState, 7)
  else none

/-- PATTERN_EVICT. -/
def patternEvict (cid : Nat) (s : State) : State :=
  runPattern cid 0x0103 (fun c pi p s =>
    match evictFault s pi p (le c.pkt 24 1) with
    | some (st, d) => refuse cid st d s
    | none => begun cid [pi] (modPat pi (fun q => { q with evicting := some cid }) s)) s

/-- Meaning of PATTERN_EVICT. -/
def execPatternEvict (cid : Nat) (s : State) : Host.Outcome State Fault Refusal := .next (patternEvict cid s)

/-- The tiers above a target are released. -/
def evictTo (pi target : Nat) (p : Pattern) (s : State) : State :=
  let mine := fun (u : PageUse) => match u with | .pattern k => k = pi | _ => false
  let s := dropStages (· == pi) s
  if target = 0 then modPat pi (fun q => { unreside q with evicting := none }) s
  else if target = 1 then freePagesOf mine (modPat pi unstage s)
  else freePagesOf mine { s with pats := tdel s.pats pi, patGens := tset s.patGens pi (nextGen 65535 p.gen) }

/-- PATTERN_EVICT_COMPLETE (03 R112): every request against the pattern is FREE. -/
def patternEvicted (cid : Nat) (s : State) : State :=
  match inProgress s cid 0x0103 with
  | none => s
  | some c =>
    let pi := c.aux.headD 0
    match tget s.pats pi with
    | none => s
    | some p => if (reqsOf s pi).isEmpty then done cid 0 0 (rotate (evictTo pi (le c.pkt 24 1) p s)) else s

/-- Meaning of PATTERN_EVICT_COMPLETE. -/
def execPatternEvictComplete (cid : Nat) (s : State) : Host.Outcome State Fault Refusal := .next (patternEvicted cid s)

/-! ### Appliqués (03 R115-R118) -/

/-- Appliqué entries of a tenant against its share. -/
def appsFull (s : State) (t : Nat) : Bool :=
  decide (1024 ≤ s.apps.length) || (match partOf s t with
    | some e => decide (e.appliques ≤ (s.apps.filter fun x => x.2.tenant = t).length)
    | none => false)

/-- An appliqué whose first version is being loaded: `current` 0. -/
def newApplique (gen pi tenant bytes cid : Nat) : Applique :=
  { gen := gen, pattern := pi, tenant := tenant, bytes := 0, prevBytes := 0, nextBytes := bytes, fmt := .fp32, current := 0,
    weights := [], previous := none, place := some (.cmd cid), next := none, loading := true, retiring := false, tag := 0,
    grads := [], momenta := [] }

/-- APPLIQUE_LOAD. -/
def appliqueLoad (cid : Nat) (s : State) : State :=
  runPattern cid 0x0105 (fun c pi p s =>
    let bytes := le c.pkt 32 4
    if p.evicting.isSome then refuse cid .badState 3 s
    else if !p.staged then refuse cid .badState 1 s
    else if halfOut s p then refuse cid .stateLost 4 s
    else if appsFull s p.tenant then refuse cid .tableFull 5 s
    else if pinnedFull s pi p bytes then refuse cid .busy 1 s
    else
      match pickSlot s cid s.apps 1024 with
      | none => refuse cid .tableFull 5 s
      | some i =>
        let g := pickGen s cid 10 (tgetD s.appGens i 1)
        begun cid [i] (rotate { s with apps := tset s.apps i (newApplique g pi p.tenant bytes cid), appGens := tset s.appGens i g })) s

/-- Meaning of APPLIQUE_LOAD. -/
def execAppliqueLoad (cid : Nat) (s : State) : Host.Outcome State Fault Refusal := .next (appliqueLoad cid s)

/-- A handle that names no appliqué. -/
def appliqueFaultsAt (c : Cmd) (s : State) : List Nat := if (findApplique s (le c.pkt 20 2)).isNone then [20] else []

/-- A command on an appliqué of its own tenant that is not retiring runs. -/
def runApplique (cid op : Nat) (f : Cmd → Nat → Applique → State → State) (s : State) : State :=
  runCmdWith cid op appliqueFaultsAt (fun c s =>
    match findApplique s (le c.pkt 20 2) with
    | none => s
    | some (i, a) =>
      if some a.tenant ≠ c.tenant then refuse cid .accessDenied 2 s
      else if a.retiring then refuse cid .badState 5 s
      else f c i a s) s

/-- APPLIQUE_REPLACE: the second version place is held until the reply (03 R117). -/
def appliqueReplace (cid : Nat) (s : State) : State :=
  runApplique cid 0x0106 (fun c i a s =>
    let bytes := le c.pkt 32 4
    match tget s.pats a.pattern with
    | none => s
    | some p =>
      if !placeFree a && a.place != some (.cmd cid) then refuse cid .busy 4 s
      else if halfOut s p then refuse cid .stateLost 4 s
      else if pinnedFull s a.pattern p bytes then refuse cid .busy 1 s
      else
        let hold := fun (a : Applique) => { a with place := some (.cmd cid), loading := true, nextBytes := bytes }
        begun cid [i] (rotate (modApp i hold s))) s

/-- Meaning of APPLIQUE_REPLACE. -/
def execAppliqueReplace (cid : Nat) (s : State) : Host.Outcome State Fault Refusal := .next (appliqueReplace cid s)

/-- The loaded version: version 1 with zeroed buffers, or version n + 1, current at its reply (03 R115, R117, 05 R183). -/
def loadedVersion (cid i : Nat) (fmt : Elem) (weights : List (BitVec 32)) (a : Applique) (s : State) : State :=
  if a.current = 0 then
    let zero := List.replicate weights.length (0 : BitVec 32)
    let first := fun (a : Applique) =>
      { a with current := 1, bytes := a.nextBytes, nextBytes := 0, fmt := fmt, weights := weights, loading := false,
               place := none, tag := 1, grads := zero, momenta := zero }
    done cid 0 (BitVec.ofNat 64 (appHandle a.gen i + 2 ^ 32)) (takeBuffers i a weights.length (modApp i first s))
  else
    finish cid .done 0 (BitVec.ofNat 64 ((a.current + 1) * 2 ^ 32)) 0 (.appliqueCurrent i)
      (modApp i (fun a => { a with loading := false, fmt := fmt, next := some weights }) s)

/-- APPLIQUE_LOAD_COMPLETE (03 R117, Table 3-17): SRC_CRC is checked; a failed load leaves the appliqué as it was, or none. -/
def appliqueLoaded (cid : Nat) (crc : BitVec 32) (fmt : Elem) (weights : List (BitVec 32)) (s : State) : State :=
  match (if hubRuns s then tget s.cmds cid else none) with
  | none => s
  | some c =>
    let op := opcodeOf c.pkt
    let i := c.aux.headD 0
    match tget s.apps i with
    | none => s
    | some a =>
      if c.phase ≠ .begun ∨ (op ≠ 0x0105 ∧ op ≠ 0x0106) then s
      else if crc ≠ BitVec.ofNat 32 (le c.pkt 36 4) then refuse cid .integrityMismatch 36 (rotate (dropLoad i s))
      else if !roomFor s a.tenant (fun h => appPages s a (le c.pkt 32 4) h + bufferPages s a weights.length h) then s
      else loadedVersion cid i fmt weights a (takePages a.tenant (appPages s a (le c.pkt 32 4)) (.applique i (a.current + 1)) s)

/-- Meaning of APPLIQUE_LOAD_COMPLETE. -/
def execAppliqueLoadComplete (cid : Nat) (crc : BitVec 32) (fmt : Elem) (weights : List (BitVec 32)) (s : State) :
    Host.Outcome State Fault Refusal := .next (appliqueLoaded cid crc fmt weights s)

/-- APPLIQUE_RETIRE (03 R118): DONE at once; the handle is freed once neither version is held. -/
def appliqueRetire (cid : Nat) (s : State) : State :=
  runApplique cid 0x0107 (fun _ i _ s => done cid 0 0 (drainApplique i (modApp i (fun a => { a with retiring := true }) s))) s

/-- Meaning of APPLIQUE_RETIRE. -/
def execAppliqueRetire (cid : Nat) (s : State) : Host.Outcome State Fault Refusal := .next (appliqueRetire cid s)

end Sys2Proof.Machine
end

