-- ==== Sys2Proof/Machine/Tenants.lean ====
section
/-! DEFINITION. Tenants, key generations, quotes and partitions (09 R276-R297). -/
namespace Sys2Proof.Machine

/-! ### Creating and removing a tenant -/

/-- LIFECYCLE DECOMMISSIONED (09 R276). -/
def decommissioned (s : State) : Bool := lifecycle s = 3

/-- A tenant number that whole-device mode does not have. -/
def tenantFaults (c : Cmd) (s : State) : List Nat :=
  if !partitioned s && le c.pkt 20 1 % 8 != 0 then [20] else []

/-- The partition of a tenant number is defined, or the mode is whole-device. -/
def partDefined (s : State) (t : Nat) : Bool := !partitioned s || (partOf s t).isSome

def tenantState (s : State) (t : Nat) : TenantState := ((tget s.tenants t).map (·.st)).getD .absent

/-- A tenant newly ACTIVE: generation 1 with a fresh PAGE_KEY and no BUF_KEY (09 R282). -/
def newTenant (s : State) (t : Nat) : Tenant :=
  { st := .active, epoch := epochOf s t, cur := some { num := 1, pageKey := s.sec.draws, bufKey := none, outKey := none, nonce := 0 },
    prev := none, next := none, keyless := false, remover := none }

/-- TENANT_CREATE (09 R276, R277, R282). -/
def tenantCreate (cid : Nat) (s : State) : State :=
  runCmdWith cid 0x0501 tenantFaults (fun c s =>
    let t := le c.pkt 20 1 % 8
    if decommissioned s then refuse cid .badState 17 s
    else if s.sec.debugOpened then refuse cid .accessDenied 4 s
    else if !partDefined s t then refuse cid .badState 15 s
    else if tenantState s t ≠ .absent then refuse cid .badState 10 s
    else
      done cid 0 (BitVec.ofNat 64 (epochOf s t + 2 ^ 16))
        { s with tenants := tset s.tenants t (newTenant s t), sec := { s.sec with draws := s.sec.draws + 1 } }) s

/-- Meaning of TENANT_CREATE. -/
def execTenantCreate (cid : Nat) (s : State) : Host.Outcome State Fault Refusal := .next (tenantCreate cid s)

/-- Outstanding requests of a tenant in ascending fallback tick, those without a deadline last (09 R293 step 4). -/
def tenantReqs (s : State) (t : Nat) : List Nat :=
  let fb := fun slot => (tget s.sent.entries slot).bind (·.fallback)
  sortBy (fun a b => tickLe (fb a) (fb b)) (liveReqs s fun r => r.tenant = t)

/-- A tenant becomes REMOVING (09 R293 steps 1 to 4): its rings DEFUNCT, its keys zeroised, its epoch advanced, a restitch
abandoned, TENANT_GONE submitted for all its work. `remover` is the command, 0 for the opening of JTAG. -/
def beginRemoval (t remover : Nat) (s : State) : State :=
  let rings := (s.rings.filter fun e => e.2.tenant == some t && (e.2.st == .active || e.2.st == .error)).map Prod.fst
  let gone := fun (r : Ring) => { r with st := .defunct, pending := false }
  let s := rings.foldl (fun s n => releaseReads n (modRing n gone s)) s
  let leave := fun (x : Tenant) =>
    { zeroKeys x with st := .removing, epoch := (x.epoch + 1) % 256, remover := some remover }
  let s := { s with tenants := tmod s.tenants t leave,
                    pages := tmap s.pages fun _ p => if p.tenant = t then { p with restitching := false } else p }
  let s := endReqs (tenantReqs s t) .tenantGone t s
  refuseAll (openCmds s fun c => c.tenant == some t) .tenantGone t s

/-- Pages a tenant owns, in both halves. -/
def tenantPages (s : State) (t : Nat) : Nat := (s.pages.filter fun e => e.2.tenant = t).length

/-- TENANT_REMOVE (09 R293). -/
def tenantRemove (cid : Nat) (s : State) : State :=
  runCmd cid 0x0502 (fun c s =>
    let t := le c.pkt 20 1 % 8
    if tenantState s t ≠ .active then refuse cid .badState 10 s
    else beginRemoval t cid (begun cid [t, tenantPages s t] s)) s

/-- Meaning of TENANT_REMOVE. -/
def execTenantRemove (cid : Nat) (s : State) : Host.Outcome State Fault Refusal := .next (tenantRemove cid s)

def keep {α : Type} (l : Tbl α) (gone : α → Bool) : Tbl α := l.filter fun e => !gone e.2

/-- Steps 5 to 7 of 09 R293: cores zeroed, everything of the tenant released, its patterns removed from the model store, its
pages zeroed and freed. -/
def releaseTenant (t : Nat) (s : State) : State :=
  let mine := fun (k : Nat) => match partOf s t with
    | some e => e.cores.testBit k
    | none => !partitioned s
  let pidx := (s.pats.filter fun e => e.2.tenant = t).map Prod.fst
  let sidx := (s.streams.filter fun e => e.2.tenant = t).map Prod.fst
  let cores := s.cores.zipIdx.map fun (e : Core × Nat) => if mine e.2 then e.1.wiped else e.1
  let clear := fun (e : Half × Nat) =>
    let w := halfShare s t e.2
    { e.1 with store := e.1.store.filter fun b => !decide (w.1 ≤ b.1 ∧ b.1 < w.2), pricks := e.1.pricks.filter fun x => !pidx.contains x.pattern }
  let halves := s.halves.zipIdx.map clear
  let s := dropStages (fun k => pidx.contains k) { s with cores := cores, halves := halves }
  let s := { s with engines := s.engines.filter fun e => !sidx.contains e.2.stream }
  let owned := (s.pages.filter fun e => e.2.tenant = t).map Prod.fst
  let s := zeroPages owned.contains s
  rotate { s with
    patGens := advanceGens s.pats (fun p => p.tenant = t) (·.gen) patTop s.patGens, pats := keep s.pats fun p => p.tenant = t,
    appGens := advanceGens s.apps (fun a => a.tenant = t) (·.gen) 62 s.appGens, apps := keep s.apps fun a => a.tenant = t,
    seqGens := advanceGens s.seqs (fun q => q.tenant = t) (·.gen) seqTop s.seqGens, seqs := keep s.seqs fun q => q.tenant = t,
    streamGens := advanceGens s.streams (fun x => x.tenant = t) (·.gen) streamTop s.streamGens,
    streams := keep s.streams fun x => x.tenant = t,
    encGens := advanceGens s.encs (fun x => x.tenant = t) (·.gen) streamTop s.encGens, encs := keep s.encs fun x => x.tenant = t,
    fences := keep s.fences fun f => f.tenant = t, accts := keep s.accts fun a => a.tenant = t,
    pages := keep s.pages fun p => p.tenant = t }

/-- No work of a tenant is left: every request FREE and every command ended, the remover excepted. -/
def tenantQuiet (s : State) (t remover : Nat) : Bool :=
  !(s.reqs.any fun e => e.2.tenant = t) && !(s.cmds.any fun e => e.2.tenant == some t && e.1 != remover)

/-- TENANT_REMOVE_COMPLETE (09 R293): DONE with the new epoch and the pages zeroed, and the tenant is ABSENT. -/
def removalDone (cid : Nat) (s : State) : State :=
  match s.tenants.find? fun e => e.2.st == .removing && e.2.remover == some cid with
  | none => s
  | some (t, x) =>
    if !tenantQuiet s t cid then s
    else
      let s := releaseTenant t s
      let s := { s with tenants := tset s.tenants t { x with st := .absent, remover := none } }
      match inProgress s cid 0x0502 with
      | some c => done cid (sat 32 ((c.aux[1]?).getD 0)) (BitVec.ofNat 64 x.epoch) s
      | none => s

/-- Meaning of TENANT_REMOVE_COMPLETE. -/
def execTenantRemoveComplete (cid : Nat) (s : State) : Host.Outcome State Fault Refusal := .next (removalDone cid s)

/-! ### Keys (09 R283, R284, R295-R297) -/

/-- Field of key block entry `e` (09 Table 9-9). -/
def keyField (block : BitVec 18688) (e off len : Nat) : Nat := bytesAt block (1168 * e + off) len

/-- Offset of the first reserved byte of the entries that is not 0 (02 R427). -/
def keyBlockFault (block : BitVec 18688) (entries : Nat) : Option Nat :=
  ((List.range entries).flatMap fun e => (List.range 12).map fun i => 1168 * e + 0x484 + i).find? fun o =>
    bytesAt block o 1 != 0

/-- The entry for this module: the first whose EK_PREFIX matches (09 R283 step 1). -/
def keyEntry (s : State) (block : BitVec 18688) (entries : Nat) : Option Nat :=
  (List.range entries).find? fun e => keyField block e 0 8 = (kemEkHash s).toNat % 2 ^ 64

/-- BUF_KEY and OUT_KEY that a key block delivers for a generation of a tenant, or the failure (09 R283, Table 9-2). -/
def unwrap (s : State) (t gen entries : Nat) (block : BitVec 18688) : (BitVec 256 × BitVec 256) ⊕ (Status × Nat) :=
  match keyBlockFault block entries with
  | some o => .inr (.badParam, 0x8000 + o)
  | none =>
    match keyEntry s block entries with
    | none => .inr (.badState, 16)
    | some e =>
      let ss := Config.kemDecaps (kemSeed s) (keyField block e 0x008 1088)
      let who := [(1, t), (1, epochOf s t), (2, gen)]
      let wk := Config.sha3 44 (pack ([(8, 0x505241572D464B53), (32, ss.toNat)] ++ who))
      match Config.gcmOpen wk (keyField block e 0x448 12) (pack who) 32 (keyField block e 0x454 32) (keyField block e 0x474 16) with
      | none => .inr (.integrityMismatch, 0x20010 + e)
      | some k =>
        let buf := BitVec.ofNat 256 k
        .inl (buf, Config.sha3 71 (pack [(7, 0x54554F2D464B53), (32, buf.toNat), (32, ss.toNat)]))

/-- What refuses both key commands before their own checks (09 R276, R283). -/
def keyDenied (s : State) : Option Nat :=
  if decommissioned s then some 6 else if s.sec.debugOpened then some 4 else none

/-- A standby applies a key block that carries no entry for it (10 R306). -/
def noEntryHere (c : Cmd) (st : Status) (d : Nat) : Bool := c.given.isSome && st == .badState && d = 16

/-- The tenant is KEYLESS. -/
def markKeyless (t : Nat) (s : State) : State := { s with tenants := tmod s.tenants t fun x => { x with keyless := true } }

/-- KEY_INSTALL (09 R283). -/
def keyInstall (cid : Nat) (block : BitVec 18688) (s : State) : State :=
  runCmd cid 0x0503 (fun c s =>
    let t := c.tenant.getD 0
    match keyDenied s, (tget s.tenants t).bind (·.cur) with
    | some d, _ => refuse cid .accessDenied d s
    | none, none => s
    | none, some g =>
      match unwrap s t g.num (le c.pkt 32 1) block with
      | .inr (.badParam, d) => refuse cid .badParam d s
      | r =>
        if g.bufKey.isSome then refuse cid .badState 13 s
        else
          match r with
          | .inr (st, d) => if noEntryHere c st d then done cid 0 (BitVec.ofNat 64 g.num) (markKeyless t s) else refuse cid st d s
          | .inl (b, o) =>
            let put := fun (x : Tenant) => { x with cur := some { g with bufKey := some b, outKey := some o, nonce := 0 }, keyless := false }
            done cid 0 (BitVec.ofNat 64 g.num) { s with tenants := tmod s.tenants t put }) s

/-- Meaning of KEY_INSTALL. -/
def execKeyInstall (cid : Nat) (block : BitVec 18688) (s : State) : Host.Outcome State Fault Refusal :=
  .next (keyInstall cid block s)

/-- The next generation is made ready; it is current from the reply (09 R295). -/
def rotateTo (cid t num : Nat) (keys : Option (BitVec 256 × BitVec 256)) (s : State) : State :=
  let g : KeyGen := { num := num, pageKey := s.sec.draws, bufKey := keys.map (·.1), outKey := keys.map (·.2), nonce := 0 }
  let s := { s with tenants := tmod s.tenants t fun x => { x with next := some g },
                    sec := { s.sec with draws := s.sec.draws + 1 } }
  finish cid .done 0 (BitVec.ofNat 64 num) 0 (.keyCurrent t) s

/-- KEY_ROTATE (09 R283, R295). -/
def keyRotate (cid : Nat) (block : BitVec 18688) (s : State) : State :=
  runCmd cid 0x0504 (fun c s =>
    let t := c.tenant.getD 0
    match keyDenied s, tget s.tenants t with
    | some d, _ => refuse cid .accessDenied d s
    | none, none => s
    | none, some x =>
      let num := nextGen 65535 (currentGen s t)
      let n := le c.pkt 32 1
      match (if n = 0 then .inr (.done, 0) else unwrap s t num n block) with
      | .inr (.badParam, d) => refuse cid .badParam d s
      | r =>
        if x.prev.isSome || x.next.isSome then refuse cid .busy 11 s
        else
          match r with
          | .inr (.done, _) => rotateTo cid t num none s
          | .inr (st, d) => if noEntryHere c st d then rotateTo cid t num none (markKeyless t s) else refuse cid st d s
          | .inl k => rotateTo cid t num (some k) s) s

/-- Meaning of KEY_ROTATE. -/
def execKeyRotate (cid : Nat) (block : BitVec 18688) (s : State) : Host.Outcome State Fault Refusal :=
  .next (keyRotate cid block s)

/-- A page is tagged with its tenant's previous generation. -/
def stale (s : State) (x : Page) : Bool :=
  match (tget s.tenants x.tenant).bind (·.prev), (tget s.tenants x.tenant).bind (·.cur) with
  | some g, some c => x.parity = g.num % 2 && c.num % 2 != g.num % 2
  | _, _ => false

/-- RESTITCH_PAGE (09 R296): the lowest page of a half that is tagged with a previous generation is re-encrypted under the current one. -/
def restitch (h p : Nat) (s : State) : State :=
  match tget s.pages (pageKey h p) with
  | none => s
  | some x =>
    let earlier := s.pages.any fun e => decide (e.1 / 2 ^ 21 = h ∧ e.1 < pageKey h p) && stale s e.2
    if halfInService s h && stale s x && !earlier then restitchPages (· == pageKey h p) x.tenant s else s

/-- Meaning of RESTITCH_PAGE. -/
def execRestitchPage (half page : Nat) (s : State) : Host.Outcome State Fault Refusal := .next (restitch half page s)

/-! ### Quotes (09 R280, Tables 9-3 to 9-6) -/

/-- DIK's seed (09 Table 9-2). -/
def dikSeed (s : State) : BitVec 256 := Config.sha3 39 (pack [(7, 0x4B49442D464B53), (32, fuse s 1023 768)])

/-- KEY_ID of a tenant. -/
def keyId (s : State) (t : Nat) : Nat :=
  match ((tget s.tenants t).bind (·.cur)).bind (·.bufKey) with
  | some k => (Config.sha3 41 (pack [(9, 0x444959454B2D464B53), (32, k.toNat)])).toNat
  | none => 0

def tenantCode : TenantState → Nat
  | .absent => 0 | .active => 1 | .removing => 2

/-- A tenant record (09 Table 9-5); in whole-device mode CORES is 0xFF and the quotas are the module's totals. -/
def tenantRecord (s : State) (t : Nat) : List (Nat × Nat) :=
  let head := [(1, t), (1, epochOf s t), (1, tenantCode (tenantState s t))]
  match partOf s t with
  | some e => head ++ [(1, e.cores), (2, currentGen s t), (2, 0), (4, e.pagesWest), (4, e.pagesEast), (1, e.decode),
      (1, e.encoders), (2, e.fences), (4, 0), (32, keyId s t), (8, 0)]
  | none => head ++ [(1, 0xFF), (2, currentGen s t), (2, 0), (4, halfPages s 0), (4, halfPages s 1), (1, 64), (1, 16),
      (2, 16384), (4, 0), (32, keyId s t), (8, 0)]

/-- Digest of a version's bytes. -/
def weightsDigest (fmt : Elem) (w : List (BitVec 32)) : Nat :=
  (Config.sha3 (planeBytes fmt w.length) (packElems fmt (w.map (·.toNat)))).toNat

/-- List entries of patterns and appliqué versions (09 Table 9-6), in ascending handle and version. -/
def listEntry (handle kind st tenant flags version digest : Nat) : Nat × List (Nat × Nat) :=
  (handle, [(4, handle), (1, kind), (1, st), (1, tenant), (1, flags), (4, version), (4, 0), (32, digest)])

def patternState (p : Pattern) : Nat :=
  match p.res with
  | .pinned => 3
  | .rotating => 2
  | .none => bit p.staged

def quoteList (s : State) (scope : Option Nat) : List (Nat × Nat) :=
  let mine := fun t => scope.isNone || scope == some t
  let pats := (s.pats.filter fun e => mine e.2.tenant).map fun e =>
    listEntry (patHandle e.2.gen e.1) 0 (patternState e.2) e.2.tenant (bit e.2.damaged.isSome) 0 e.2.digest.toNat
  let vers := fun (i : Nat) (a : Applique) =>
    let h := appHandle a.gen i
    (match a.previous with
      | some (v, w) => [listEntry h 1 1 a.tenant 0 v (weightsDigest a.fmt w)]
      | none => []) ++ [listEntry h 1 0 a.tenant 0 a.current (weightsDigest a.fmt a.weights)]
  let apps := (s.apps.filter fun e => mine e.2.tenant && e.2.current != 0).flatMap fun e => vers e.1 e.2
  let order := fun l => sortBy (fun (a b : Nat × List (Nat × Nat)) => decide (a.1 ≤ b.1)) l
  (order pats ++ order apps).flatMap (·.2)

/-- Bytes of a configuration copy (11 Table 11-11). -/
def copyBytes (c : CfgCopy) : Nat × Nat :=
  match c with
  | .valid f n items =>
    let l := [(4, 0x46434B53), (2, f), (2, items.length), (8, n)] ++ items.flatMap fun e => [(2, e.1), (6, 0), (8, e.2)]
    let k := packLen l
    (k + 4, pack (l ++ [(4, crc32c k (pack l))]))
  | _ => (0, 0)

/-- Header bytes 0x0000 to 0x08FF of the running image. -/
def fwMeasured (s : State) : Nat := fwHeader (slotOf s s.dev.activeSlot) 0 0x900

/-- Offsets and size of a quote: list, chain, total. -/
structure QuotePlan where
  kem   : Nat
  list  : Nat
  chain : Nat
  total : Nat
deriving DecidableEq, Repr

def quotePlan (flags entries : Nat) : QuotePlan :=
  let kem := if flags.testBit 0 then 0xE80 else 0
  let list := roundUp (0xE80 + if flags.testBit 0 then 1184 else 0) 64
  let stop := list + 48 * entries
  let chain := roundUp stop 64
  if flags.testBit 1 then
    { kem := kem, list := list, chain := chain, total := chain + 8 + Config.dikCert.1 + Config.caCert.1 }
  else { kem := kem, list := list, chain := 0, total := stop }

/-- Bytes 0x000 to 0x17F of a quote (09 Table 9-4). -/
def quoteBody (s : State) (scope : Option Nat) (nonce : BitVec 256) (list : List (Nat × Nat)) (q : QuotePlan) :
    List (Nat × Nat) :=
  let t := scope.getD 0
  let one := fun (v : Nat) => if scope.isSome then v else 0
  let tens : List Nat := match scope with
    | some t => [t]
    | none => (s.tenants.filter fun (e : Nat × Tenant) => e.2.st != TenantState.absent).map Prod.fst
  let recs := tens.flatMap (tenantRecord s)
  let cfg := copyBytes (s.nor.copies.headD .blank)
  [(4, 0x54514B53), (2, 1), (1, bit scope.isSome), (1, if scope.isSome then t else 0xFF), (8, now s), (32, nonce.toNat),
   (16, moduleSerial s), (8, fwVersion s), (4, fwSecurity s), (1, s.dev.activeSlot), (1, lifecycleCode s),
   (1, match debugPolicy s with | 0 => 0 | 1 => 1 | _ => 2), (1, bit s.sec.debugOpened), (1, isoPolicy s),
   (1, maxPartitions s), (1, bit (partitioned s)), (1, pairPolicy s), (1, antiRollback s), (1, one (epochOf s t)),
   (2, one (currentGen s t)), (4, coreMap s), (4, packLen list / 48),
   (32, rootHash s (fwHeader (slotOf s s.dev.activeSlot) 0x18 1)), (32, (Config.sha3 0x900 (fwMeasured s)).toNat),
   (32, (Config.sha3 cfg.1 cfg.2).toNat), (32, (Config.sha3 (packLen recs) (pack recs)).toNat),
   (32, (Config.sha3 (packLen list) (pack list)).toNat), (32, one (keyId s t)), (32, (kemEkHash s).toNat), (4, q.kem),
   (4, q.list), (4, q.chain), (4, q.total), (48, 0)]

/-- The whole quote. -/
def quoteBytes (s : State) (scope : Option Nat) (nonce : BitVec 256) (flags : Nat) : List (Nat × Nat) :=
  let list := quoteList s scope
  let q := quotePlan flags (packLen list / 48)
  let body := quoteBody s scope nonce list q
  let sig := Config.dikSign (dikSeed s) (Config.sha3 0x180 (pack body))
  let main := body ++ [(3309, sig), (19, 0)] ++ if flags.testBit 0 then [(1184, Config.kemEk (kemSeed s))] else []
  let toList := main ++ [(q.list - packLen main, 0)] ++ list
  if q.chain = 0 then toList
  else toList ++ [(q.chain - packLen toList, 0), (4, Config.dikCert.1), (Config.dikCert.1, Config.dikCert.2),
    (4, Config.caCert.1), (Config.caCert.1, Config.caCert.2)]

/-- ATTEST_QUOTE (09 R276, R280): module scope on ring 0, tenant scope on a tenant ring. -/
def attestQuote (cid : Nat) (nonce : BitVec 256) (s : State) : State :=
  runCmd cid 0x0505 (fun c s =>
    let flags := le c.pkt 20 1
    let scope := if c.ring = 0 then none else c.tenant
    let need := (quotePlan flags (packLen (quoteList s scope) / 48)).total
    if decommissioned s then refuse cid .accessDenied 6 s
    else if le c.pkt 32 4 < need then finish cid .badParam 32 (BitVec.ofNat 64 need) 0 .none s
    else done cid need 0 (writeFields (le c.pkt 24 8) (quoteBytes s scope nonce flags) s)) s

/-- Meaning of ATTEST_QUOTE. -/
def execAttestQuote (cid : Nat) (nonce : BitVec 256) (s : State) : Host.Outcome State Fault Refusal :=
  .next (attestQuote cid nonce s)

/-! ### Partitions (09 R289, R290, Tables 9-13, 9-14) -/

/-- Entry `n` of a partition block. -/
def partEntry (b : BitVec 2048) (n : Nat) : PartEntry :=
  let f := fun off len => bytesAt b (32 * n + off) len
  { cores := f 0 1, decode := f 1 1, encoders := f 2 1, selvage := f 3 1, hsWest := f 4 2, hsEast := f 6 2,
    pagesWest := f 8 4, pagesEast := f 0xC 4, requests := f 0x10 4, sequences := f 0x14 4, fences := f 0x18 2,
    appliques := f 0x1A 2 }

/-- Fields of entry `n` judged with the entries before it: sums so far, cores disjoint from theirs (notes/assumptions 25). -/
def partFlds (s : State) (b : BitVec 2048) (n : Nat) : List Fld :=
  let e := partEntry b n
  let before := (List.range n).map (partEntry b)
  let sum := fun (f : PartEntry → Nat) (m : Nat) => decide (f e + (before.map f).sum ≤ m)
  let west := e.cores % 16 != 0
  let east := e.cores / 16 != 0
  let o := 32 * n
  [fld o 1 (e.cores != 0 && before.all fun x => decide (x.cores &&& e.cores = 0)), fld (o + 1) 1 (sum (·.decode) 64),
   fld (o + 2) 1 (sum (·.encoders) 16), fld (o + 3) 1 (sum (·.selvage) 16),
   fld (o + 4) 2 (sum (·.hsWest) 256 && (west || e.hsWest = 0)), fld (o + 6) 2 (sum (·.hsEast) 256 && (east || e.hsEast = 0)),
   fld (o + 8) 4 (sum (·.pagesWest) (halfPages s 0)), fld (o + 0xC) 4 (sum (·.pagesEast) (halfPages s 1)),
   fld (o + 0x10) 4 (sum (·.requests) 65536), fld (o + 0x14) 4 (sum (·.sequences) 262144),
   fld (o + 0x18) 2 (sum (·.fences) 16384), fld (o + 0x1A) 2 (sum (·.appliques) 1024)]

/-- Offset of the first fault of a partition block of `count` entries. -/
def partFault (s : State) (b : BitVec 2048) (count : Nat) : Option Nat :=
  firstFault ((List.range count).flatMap (partFlds s b)) b.toNat 0 (32 * count)

/-- COUNT above MAX_PARTITIONS. -/
def partitionFaults (c : Cmd) (s : State) : List Nat := if maxPartitions s < le c.pkt 21 1 then [21] else []

/-- PARTITION_SET (09 R289). -/
def partitionSet (cid : Nat) (b : BitVec 2048) (s : State) : State :=
  runCmdWith cid 0x0506 partitionFaults (fun c s =>
    let n := le c.pkt 21 1
    match partFault s b n with
    | some d => refuse cid .badParam (0x8000 + d) s
    | none =>
      if s.tenants.any (fun e => e.2.st != .absent) then refuse cid .badState 11 s
      else if n ≠ 0 ∧ isoPolicy s = 0 then refuse cid .badState 14 s
      else done cid 0 0 { s with parts := if n = 0 then none else some ((List.range n).map (partEntry b)) }) s

/-- Meaning of PARTITION_SET. -/
def execPartitionSet (cid : Nat) (block : BitVec 2048) (s : State) : Host.Outcome State Fault Refusal :=
  .next (partitionSet cid block s)

end Sys2Proof.Machine
end

