-- ==== Sys2Proof/Machine/Pair.lean ====
section
/-! DEFINITION. The commands of the pair: binding, status, resilvering, audit, switch-back, unbinding (10 R298-R302, R332-R338,
Tables 10-3, 10-12a, 10-13). -/
namespace Sys2Proof.Machine

/-! ### Binding (10 R300, R301) -/

/-- Check 1 of R300: the mode allows the command, and no other PAIR_BIND is under way. -/
def bindAllowed (s : State) (role : Nat) : Bool :=
  (s.pair.mode == .unpaired || (role = 1 && s.pair.mode == .solo && s.pair.role == .active)) && s.pair.binding.isNone

/-- Check 2: a module bound as STANDBY holds no tenant and no ring but ring 0. -/
def bindBare (s : State) (role : Nat) : Bool :=
  role != 2 || (!(s.tenants.any fun e => e.2.st != .absent) && s.rings.all fun e => e.1 = 0)

/-- PAIR_BIND: the partner's quote is awaited. -/
def pairBind (cid : Nat) (s : State) : State :=
  runCmd cid 0x0601 (fun c s =>
    let role := le c.pkt 20 1
    if !bindAllowed s role then refuse cid .badState 20 s
    else if !bindBare s role then refuse cid .badState 21 s
    else modPair (fun p => { p with binding := some (cid, now s) }) (begun cid [] s)) s

/-- Meaning of PAIR_BIND. -/
def execPairBind (cid : Nat) (s : State) : Host.Outcome State Fault Refusal := .next (pairBind cid s)

/-- This module's SIGNER: the root key hash that signed the running image (09 Table 9-4). -/
def ownSigner (s : State) : Nat := rootHash s (fwHeader (slotOf s s.dev.activeSlot) 0x18 1)

/-- Checks 4 to 6 of R300; of the fields of check 4 the lower offset is named (02 R40, notes/assumptions 43). -/
def bindFault (s : State) (p : Packet) (q : PartnerQuote) : Option (Status × Nat) :=
  if q.pairId.toNat ≠ le p 24 4 ∨ q.role ≠ 3 - le p 20 1 then some (.badParam, 24)
  else if q.serial.toNat ≠ le p 28 16 then some (.badParam, 28)
  else if pairPolicy s = 3 ∨ q.pairPolicy = 3 ∨ q.verified = false ∨ (pairPolicy s = 1 ∧ q.signer.toNat ≠ ownSigner s) then
    some (.accessDenied, 7)
  else if q.fwMajor ≠ runningMajor s ∨ q.isoPolicy ≠ isoPolicy s ∨ q.maxParts ≠ maxPartitions s then some (.badState, 19)
  else none

/-- The session key of direction `d` (10 R301). -/
def sessionKey (q : PartnerQuote) (d : Nat) : BitVec 256 :=
  Config.sha3 77 (pack [(8, 0x524941502D464B53), (32, q.secretA.toNat), (32, q.secretB.toNat), (4, q.pairId.toNat), (1, d)])

/-- The binding of a module in a role; a module that served alone goes on numbering its records (R310). -/
def boundPair (s : State) (p : Packet) (q : PartnerQuote) : Pair :=
  let old := s.pair
  { Pair.reset with mode := old.mode, role := old.role, pairId := q.pairId, serial := BitVec.ofNat 128 (le p 28 16),
                    keyA := some (sessionKey q 0), keyB := some (sessionKey q 1), commitSeq := old.commitSeq, since := now s,
                    lastTakeover := old.lastTakeover, linkUp := old.linkUp, nextBeat := now s, progress := old.progress,
                    marks := old.marks, lastAdvance := old.lastAdvance }

/-- PAIR_BIND_COMPLETE: the partner has answered, and the pair is DEGRADED. -/
def pairBound (cid : Nat) (q : PartnerQuote) (s : State) : State :=
  match inProgress s cid 0x0601 with
  | none => s
  | some c =>
    if !s.pair.linkUp || looped s 2 0 then s
    else
      match bindFault s c.pkt q with
      | some (st, d) => refuse cid st d (modPair (fun p => { p with binding := none }) s)
      | none =>
        let role : Role := if le c.pkt 20 1 = 1 then .active else .standby
        done cid 0 0 (setMode .degraded role { s with pair := boundPair s c.pkt q })

/-- Meaning of PAIR_BIND_COMPLETE. -/
def execPairBindComplete (cid : Nat) (q : PartnerQuote) (s : State) : Host.Outcome State Fault Refusal := .next (pairBound cid q s)

/-- PAIR_BIND_TIMEOUT (10 R300 check 3): 1 s without an answer. -/
def bindTimeout (cid : Nat) (s : State) : State :=
  match inProgress s cid 0x0601 with
  | none => s
  | some c =>
    if now s < c.since + 100000000 then s
    else refuse cid .cancelled 6 (modPair (fun p => { p with binding := none }) s)

/-- Meaning of PAIR_BIND_TIMEOUT. -/
def execPairBindTimeout (cid : Nat) (s : State) : Host.Outcome State Fault Refusal := .next (bindTimeout cid s)

/-! ### PAIR_STATUS (10 Table 10-13) -/

/-- RESILVER_BYTES and STORE_BLOCKS_OUTSTANDING: how far a running phase has come is a free value (notes/assumptions 44). -/
def phaseReading (s : State) : Nat × Nat :=
  (if s.pair.phase = 0 then 0 else spare s 2, if s.pair.phase = 4 then spare s 3 % (s.pair.storeLeft + 1) else 0)

/-- The 128 bytes of PAIR_STATUS. -/
def pairData (s : State) : List (Nat × Nat) :=
  let p := s.pair
  let t := now s
  let hear := fun (h : Heard) (i : Nat) => bit (bound s && !silent h t) * 2 ^ i + bit (bound s && progressing h t) * 2 ^ (i + 2)
  [(1, modeCode p.mode), (1, roleCode p.role), (1, hear p.heardA 0 + hear p.heardB 1),
   (1, bits8 fun n => ((tget s.tenants n).map (·.keyless)).getD false), (4, p.pairId.toNat), (16, p.serial.toNat),
   (8, unsign 64 p.offset), (8, p.commitSeq), (8, p.unacked.length), (1, p.phase), (1, p.lastCause), (6, spare s 0),
   (8, (phaseReading s).1), (8, (phaseReading s).2), (8, p.lastTakeover), (8, p.diverged), (40, spare s 1)]

/-- PAIR_STATUS. -/
def pairStatus (cid : Nat) (s : State) : State :=
  runCmd cid 0x0602 (fun c s =>
    done cid 0 (BitVec.ofNat 64 (modeCode s.pair.mode)) (useSpares 4 (writeFields (le c.pkt 24 8) (pairData s) s))) s

/-- Meaning of PAIR_STATUS. -/
def execPairStatus (cid : Nat) (s : State) : Host.Outcome State Fault Refusal := .next (pairStatus cid s)

/-! ### Resilvering (10 R332-R335) -/

/-- A command runs on the active in a mode; otherwise BAD_STATE, DETAIL 20. -/
def runActive (cid op : Nat) (mode : PairMode) (f : Cmd → State → State) (s : State) : State :=
  runCmd cid op (fun c s => if s.pair.mode = mode ∧ s.pair.role = .active then f c s else refuse cid .badState 20 s) s

/-- RESILVER_START: phase 1 begins; `aux` holds the bytes copied so far. Every tenant is KEYLESS on the spare (R333). -/
def resilverStart (cid : Nat) (s : State) : State :=
  runActive cid 0x0603 .degraded (fun _ s =>
    let s := { s with tenants := tmap s.tenants fun _ t => { t with keyless := true } }
    setMode .resilvering .active (modPair (fun p => { p with resilver := some cid, phase := 1 }) (begun cid [0] s))) s

/-- Meaning of RESILVER_START. -/
def execResilverStart (cid : Nat) (s : State) : Host.Outcome State Fault Refusal := .next (resilverStart cid s)

/-- The tenants as phase 2 copies them, without keys (10 Table 10-12a); every one is KEYLESS (R333). -/
def withoutKeys (t : Tenant) : Tenant :=
  let bare := fun (g : KeyGen) => { g with pageKey := 0, bufKey := none, outKey := none, nonce := 0 }
  { t with cur := t.cur.map bare, prev := t.prev.map bare, next := t.next.map bare, keyless := true, remover := none }

/-- Streams and encoders are copied without pictures and without work in progress (10 R316), patterns and appliqués with their images and
tiers, but not gradients and momenta. -/
def copyOf (s : State) : Copied :=
  let st := fun (x : Stream) => { x with bufs := List.replicate x.bufs.length emptyBuf, slots := List.replicate 8 none, sets := [], feeds := [],
                                         closing := none, named := none, picked := none }
  let pat := fun (p : Pattern) => { p with staging := none, loading := none, evicting := none, want := none, migrated := [] }
  let app := fun (a : Applique) => { a with place := none, next := none, loading := false, nextBytes := 0,
                                            grads := List.replicate a.weights.length 0, momenta := List.replicate a.weights.length 0 }
  { at_ := s.pair.commitSeq, tenants := tmap s.tenants fun _ t => withoutKeys t, parts := s.parts, cfg := s.cfg.live,
    rings := s.rings.filter fun e => e.1 != 0, accts := s.accts, fences := s.fences,
    seqs := tmap (s.seqs.filter fun e => e.2.mirrored) fun _ q => { q with closer := none, prov := none },
    streams := tmap s.streams fun _ x => st x, encs := tmap s.encs fun _ x => { x with frames := [], closing := none, sinceIdr := 0 },
    pats := tmap s.pats fun _ p => pat p, apps := tmap s.apps fun _ a => app a }

/-- Reply queues of the copied rings are bound from this module's own descriptors (02 R41, 10 R302). One whose descriptor is not valid
stays unbound. -/
def bindCopied (c : Copied) (descs : Tbl (BitVec 256)) (s : State) : State :=
  c.rings.foldl (fun s e => (bindQueue e.2.queue (tgetD descs e.2.queue 0) s).getD s) s

/-- PAGE_KEY is drawn on this module for every generation copied (10 R306). -/
def drawKeys (s : State) : State :=
  s.tenants.foldl (fun s e =>
    let key := fun (n : Nat) (g : KeyGen) => { g with pageKey := n }
    let d := s.sec.draws
    { s with tenants := tset s.tenants e.1 { e.2 with cur := e.2.cur.map (key d), prev := e.2.prev.map (key (d + 1)) },
             sec := { s.sec with draws := d + 2 } }) s

/-- Pages of this module's own for what was copied: staged patterns, appliqué versions, pools and reference buffers (09 R287). -/
def pagesForCopied (c : Copied) (s : State) : State :=
  let s := c.pats.foldl (fun s e => if e.2.staged then takePages e.2.tenant (stagePages e.2) (.pattern e.1) s else s) s
  let s := c.apps.foldl (fun s e =>
    let s := takePages e.2.tenant (appPages s e.2 e.2.bytes) (.applique e.1 e.2.current) s
    match e.2.previous with
    | some (v, _) => takePages e.2.tenant (appPages s e.2 e.2.prevBytes) (.applique e.1 v) s
    | none => s) s
  let s := c.streams.foldl (fun s e =>
    allocPages e.2.half e.2.tenant (List.replicate (bufferUnits e.2.width e.2.height e.2.bits * e.2.bufs.length) (.pool e.1)) s) s
  c.encs.foldl (fun s e => allocPages e.2.half e.2.tenant (List.replicate (encoderUnits e.2.width e.2.height e.2.bits) (.encoder e.1)) s) s

/-- Generation numbers of copied objects, so that the handles are the active's (10 R305). -/
def gensOf {α : Type} (l : Tbl α) (gen : α → Nat) (g : Tbl Nat) : Tbl Nat := l.foldl (fun g e => tset g e.1 (gen e.2)) g

/-- The spare takes phase 2's copy (10 R332, R333). -/
def install (c : Copied) (descs : Tbl (BitVec 256)) (s : State) : State :=
  let own := s.rings.filter fun e => e.1 = 0
  let s := { s with rings := own ++ c.rings, accts := c.accts, fences := c.fences, seqs := c.seqs, streams := c.streams, encs := c.encs,
                    pats := c.pats, apps := c.apps, tenants := c.tenants, parts := c.parts, cfg := { s.cfg with live := c.cfg },
                    fenceGens := gensOf c.fences (·.gen) s.fenceGens, seqGens := gensOf c.seqs (·.gen) s.seqGens,
                    streamGens := gensOf c.streams (·.gen) s.streamGens, encGens := gensOf c.encs (·.gen) s.encGens,
                    patGens := gensOf c.pats (·.gen) s.patGens, appGens := gensOf c.apps (·.gen) s.appGens }
  rotate (pagesForCopied c (bindCopied c descs (drawKeys s)))

/-- RESILVER_PHASE_COMPLETE on the spare: phase 2 brings its copy, and what waited for it is taken. -/
def sparePhase (copy : Option Copied) (descs : Tbl (BitVec 256)) (s : State) : State :=
  let next := modPair (fun p => { p with phase := min 3 (p.phase + 1) })
  match s.pair.phase, copy with
  | 2, some c => reportApplied (takeWaiting c.at_ (next (install c descs s)))
  | 2, none => s
  | _, _ => next s

/-- What a phase copies: records where Table 10-6 has a kind, and the copy of phase 2 for the rest (notes/assumptions 44). -/
def copyPhase (phase : Nat) (s : State) : State :=
  match phase with
  | 1 => s.reqs.foldl (fun s e => tellReq e.1 s)
      (s.rings.foldl (fun s e => if e.1 = 0 then s else tell (.fetch e.2.fetched []) e.1 0 e.2.tenant s)
        ((s.cmds.filter fun e => e.2.ring != 0 && activeOnly (opcodeOf e.2.pkt)).foldl (fun s e =>
          tell (.command (opcodeOf e.2.pkt) (tagOf e.2.pkt) (seqOf e.2.pkt) false) e.2.ring e.2.order e.2.tenant s) s))
  | 2 => s.seqs.foldl (fun s e => tellSeq e.1 s)
      (s.fences.foldl (fun s e => tellFence e.1 s)
        (s.accts.foldl (fun s e => tell (.budget e.2.balance e.2.window) e.1 0 (some e.2.tenant) s) (emit (.copied (copyOf s)) s)))
  | 3 => (s.seqs.filter fun e => e.2.mirrored).foldl (fun s e =>
      (List.range (layersOf s e.2.pattern).length).foldl (fun s j => tell (.kv j 0 e.2.committed (kvData s e.1 j 0 e.2.committed id)) e.1 0 (some e.2.tenant) s) s) s
  | _ => s

/-- Blocks of the images of patterns that are only stored (R335). -/
def storedBlocks (s : State) : Nat :=
  ((s.pats.filter fun e => !e.2.staged && !resident e.2).map fun e => e.2.blocks).sum

/-- RESILVER_PHASE_COMPLETE: after phase 3 the pair is ACTIVE/STANDBY and RESILVER_START replies; phase 4 runs on. -/
def phaseComplete (bytes : Nat) (copy : Option Copied) (descs : Tbl (BitVec 256)) (s : State) : State :=
  if !(hubOn s && s.pair.linkUp) then s
  else if s.pair.role == .spare then sparePhase copy descs s
  else if s.pair.role != .active then s
  else
    match s.pair.phase, s.pair.resilver with
    | 4, _ => modPair (fun p => { p with phase := 0, storeLeft := 0 }) s
    | n, some cid =>
      match inProgress s cid 0x0603 with
      | none => s
      | some c =>
        let total := c.aux.headD 0 + bytes
        let s := copyPhase n (modCmd cid (fun c => { c with aux := [total] }) s)
        let s := modPair (fun p => { p with phase := n + 1 }) s
        if n < 3 then s
        else
          let left := storedBlocks s
          done cid 0 (BitVec.ofNat 64 total) (setMode .activeStandby .active
            (modPair (fun p => { p with resilver := none, storeLeft := left }) s))
    | _, none => s

/-- Meaning of RESILVER_PHASE_COMPLETE. -/
def execResilverPhaseComplete (bytes : Nat) (copy : Option Copied) (descs : Tbl (BitVec 256)) (s : State) :
    Host.Outcome State Fault Refusal := .next (phaseComplete bytes copy descs s)

/-! ### Audit and switch-back (10 R336, R337) -/

/-- The reply of an audit: objects compared, repaired and diverged. -/
def auditReply (cid compared repaired diverged : Nat) (s : State) : State :=
  finish cid (if diverged = 0 then .done else .diverged) (sat 16 repaired + sat 16 diverged * 2 ^ 16) (BitVec.ofNat 64 compared) 0
    .none s

/-- Diverged objects are resolved on this module (Table 10-12). -/
def resolveAll (l : List Record) (s : State) : State := l.foldl (fun s r => diverge r s) s

/-- The present state of an object, by KIND and KEY, as a record (10 Table 10-6). -/
def tellObject (kind key : Nat) (s : State) : State :=
  match kind with
  | 1 => match tget s.rings key with
    | some x => tell (.fetch x.fetched []) key 0 x.tenant s
    | none => s
  | 2 => tellReq key s
  | 5 => match tget s.seqs key with
    | some q => if q.mirrored then (List.range (layersOf s q.pattern).length).foldl (fun s j =>
        tell (.kv j 0 q.committed (kvData s key j 0 q.committed id)) key 0 (some q.tenant) s) s else s
    | none => s
  | 6 => tellSeq key s
  | 7 => match tget s.accts key with
    | some a => tell (.budget a.balance a.window) key 0 (some a.tenant) s
    | none => s
  | 8 => tellFence key s
  | _ => s

/-- The copy of the standby, where it is the higher one, replaces the active's (10 R336). -/
def takeHigher (r : Record) (s : State) : State :=
  let k := objKey (recKind r.body) r.key
  let held := ((tget s.pair.held k).map (·.1)).getD 0
  if held < r.commitSeq then
    let s := modPair (fun p => { p with held := tset p.held k (r.commitSeq, r.crc), commitSeq := max p.commitSeq r.commitSeq }) s
    match r.body with
    | .fetch head _ => modRing r.key (fun x => { x with fetched := max x.fetched head, visible := max x.visible head }) s
    | .budget b w => { s with accts := tmod s.accts r.key fun a => { a with balance := b, window := w } }
    | .fence gen t v on => applyFence r.key gen t v on s
    | .sequence gen st n pat app t => applySeq r.key gen st n pat app t s
    | .kv layer first count data => applyKv r.key layer first count data s
    | _ => s
  else s

/-- Where the sequences differ, the higher copy goes to the other module: the active sends `sent` and takes `taken`. -/
def repair (sent : List (Nat × Nat)) (taken : List Record) (s : State) : State :=
  taken.foldl (fun s r => takeHigher r s) (sent.foldl (fun s e => tellObject e.1 e.2 s) s)

/-- PAIR_AUDIT. -/
def pairAudit (cid compared : Nat) (sent : List (Nat × Nat)) (taken diverged : List Record) (s : State) : State :=
  runActive cid 0x0605 .activeStandby (fun _ s =>
    auditReply cid compared (sent.length + taken.length) diverged.length (resolveAll diverged (repair sent taken s))) s

/-- Meaning of PAIR_AUDIT. -/
def execPairAudit (cid compared : Nat) (sent : List (Nat × Nat)) (taken diverged : List Record) (s : State) :
    Host.Outcome State Fault Refusal := .next (pairAudit cid compared sent taken diverged s)

/-- PAIR_SWITCHBACK: the audit, then fetching and dispatching stop, running requests stop at their next boundary, and HANDOVER
follows once every record is acknowledged. Those that run on the partner's cores return to ADMITTED (DESIGN CHOICE, notes/assumptions
101). -/
def switchback (cid compared : Nat) (sent : List (Nat × Nat)) (taken diverged : List Record) (s : State) : State :=
  runActive cid 0x0604 .activeStandby (fun _ s =>
    if s.pair.switching.isSome then refuse cid .badState 20 s
    else if diverged ≠ [] then
      auditReply cid compared (sent.length + taken.length) diverged.length (resolveAll diverged (repair sent taken s))
    else
      let s := modPair (fun p => { p with switching := some cid }) (begun cid [] (repair sent taken s))
      tryHandover (preemptAll (s.reqs.filter fun e => e.2.st == .running && !e.2.lent) (shedLent s))) s

/-- Meaning of PAIR_SWITCHBACK. -/
def execPairSwitchback (cid compared : Nat) (sent : List (Nat × Nat)) (taken diverged : List Record) (s : State) :
    Host.Outcome State Fault Refusal := .next (switchback cid compared sent taken diverged s)

/-- The state of the former active is the mirrored copy: its requests are entries that are not armed (R337 step 6). -/
def keepAsCopy (s : State) : State :=
  { s with reqs := tmap s.reqs fun _ r => copyReq r,
           sent := { s.sent with entries := tmap s.sent.entries fun _ e => { e with armed := false } } }

/-- PAIR_SWITCHBACK_COMPLETE: the partner reports ROLE ACTIVE. -/
def switched (cid : Nat) (s : State) : State :=
  match inProgress s cid 0x0604 with
  | none => s
  | some _ =>
    if s.pair.handover && s.pair.partnerRole == .active then
      let s := modPair (fun p => { p with switching := none, handover := false, leaves := false }) (keepAsCopy s)
      done cid 0 0 (setMode .activeStandby .standby s)
    else s

/-- Meaning of PAIR_SWITCHBACK_COMPLETE. -/
def execPairSwitchbackComplete (cid : Nat) (s : State) : Host.Outcome State Fault Refusal := .next (switched cid s)

/-! ### PAIR_UNBIND (10 R338) -/

/-- PAIR_UNBIND; the partner learns of it by a Halyard A frame with MODE UNPAIRED (notes/assumptions 42). -/
def pairUnbind (cid : Nat) (s : State) : State :=
  runCmd cid 0x0606 (fun _ s =>
    if !bound s then refuse cid .badState 20 s
    else
      let last := frameA (modPair (fun p => { p with mode := .unpaired, role := .none }) s)
      let s := if s.pair.linkUp && opticsOn s then emit (.halyardA last) s else s
      done cid 0 0 (unbind s)) s

/-- Meaning of PAIR_UNBIND. -/
def execPairUnbind (cid : Nat) (s : State) : Host.Outcome State Fault Refusal := .next (pairUnbind cid s)

end Sys2Proof.Machine
end

