-- ==== Sys2Proof/Machine/Sequences.lean ====
section
/-! DEFINITION. The request commands as their rows name them, and the sequences: REQ_SUBMIT to ADAPT_STEP (03 R80-R84, R119-R121, 05
R170-R185). -/
namespace Sys2Proof.Machine

/-! ### Admission by opcode -/

/-- A fetched request of an opcode is taken to admission with its parameter blocks (03 R80). -/
def admitAs (op cid : Nat) (b : Blocks) (s : State) : State :=
  match begins s cid op with
  | some _ => admitRequest cid b s
  | none => s

/-- Meaning of REQ_SUBMIT. -/
def execReqSubmit (cid : Nat) (blocks : Blocks) (s : State) : Host.Outcome State Fault Refusal :=
  .next (admitAs 0x0201 cid blocks s)

/-- Meaning of REQ_APPEND. -/
def execReqAppend (cid : Nat) (blocks : Blocks) (s : State) : Host.Outcome State Fault Refusal :=
  .next (admitAs 0x0202 cid blocks s)

/-- Meaning of REQ_VERIFY. -/
def execReqVerify (cid : Nat) (blocks : Blocks) (s : State) : Host.Outcome State Fault Refusal :=
  .next (admitAs 0x0203 cid blocks s)

/-- Meaning of ADAPT_STEP. -/
def execAdaptStep (cid : Nat) (blocks : Blocks) (s : State) : Host.Outcome State Fault Refusal :=
  .next (admitAs 0x0208 cid blocks s)

/-! ### REQ_COMMIT (05 R173-R175) -/

/-- A handle's sequence, where it is the command's tenant's. -/
def ownSeq (s : State) (c : Cmd) : Option (Nat × Sequence) :=
  match findSeq s (le c.pkt 20 4) with
  | some (i, q) => if some q.tenant = c.tenant then some (i, q) else none
  | none => none

/-- REQ_COMMIT (05 R174): it waits until the producing request is FREE; `aux` holds sequence, slot and generation. -/
def reqCommit (cid : Nat) (s : State) : State :=
  runCmd cid 0x0204 (fun c s =>
    match ownSeq s c with
    | none => refuse cid .badState 6 s
    | some (i, q) =>
      match q.st, q.prov with
      | .awaitingCommit, some pr =>
        if le c.pkt 24 1 ≠ 0xFF ∧ pr.parents.length ≤ le c.pkt 24 1 then refuse cid .badParam 24 s
        else begun cid [i, pr.slot, pr.gen] s
      | _, _ => refuse cid .badState 6 s) s

/-- Meaning of REQ_COMMIT. -/
def execReqCommit (cid : Nat) (s : State) : Host.Outcome State Fault Refusal := .next (reqCommit cid s)

/-- PROVISIONAL_DISCARDED (02 Table 2-14, 05 R175). -/
def discardedFlag (b : Bool) : BitVec 16 := if b then 16 else 0

/-- KV records of newly committed positions of a mirrored sequence (05 R160, 10 Table 10-6). -/
def tellCommitted (i first count : Nat) (q : Sequence) (s : State) : State :=
  if q.mirrored then
    (List.range (layersOf s q.pattern).length).foldl (fun s j => tell (.kv j first count (kvData s i j first count id)) i 0 (some q.tenant) s) s
  else s

/-- The path to LEAF commits (05 R174): COMMITTED_LEN grows by its length, pages beyond it are freed, the sequence is OPEN. -/
def commitPath (cid i leaf : Nat) (q : Sequence) (pr : Provisional) (s : State) : State :=
  let path := pathTo pr.parents 64 leaf
  let len := pr.base + path.length
  let freed := trimCount i len s
  let s := settlePages i len (commitSeq i len (moveEntries i pr.base path s))
  let s := modSeq i (fun q => { q with st := .open, prov := none }) (trimSeq i len s)
  let s := tellSeq i (tellCommitted i pr.base path.length q s)
  finish cid .done freed (BitVec.ofNat 64 len) (discardedFlag (decide (path.length < pr.parents.length))) .none s

/-- The producing request is FREE. -/
def producerFree (s : State) (slot gen : Nat) : Bool := ((tget s.reqs slot).map (·.gen)) != some gen

/-- REQ_COMMIT_WAIT_END (05 R174): the state of the sequence is checked again, and the path commits. -/
def commitWaitEnd (cid : Nat) (s : State) : State :=
  match inProgress s cid 0x0204 with
  | none => s
  | some c =>
    match c.aux with
    | [i, slot, gen] =>
      if !producerFree s slot gen then s
      else
        match ownSeq s c with
        | none => refuse cid .badState 6 s
        | some (_, q) =>
          match q.st, q.prov with
          | .awaitingCommit, some pr =>
            if pr.slot = slot ∧ pr.gen = gen then commitPath cid i (le c.pkt 24 1) q pr s else refuse cid .badState 6 s
          | _, _ => refuse cid .badState 6 s
    | _ => s

/-- Meaning of REQ_COMMIT_WAIT_END. -/
def execReqCommitWaitEnd (cid : Nat) (s : State) : Host.Outcome State Fault Refusal := .next (commitWaitEnd cid s)

/-! ### REQ_CANCEL, REQ_QUERY (03 R119-R121) -/

/-- RING is now bound to another tenant than the command's. -/
def ringForeign (s : State) (c : Cmd) : Bool :=
  match (tget s.rings (le c.pkt 20 4)).bind (·.tenant) with
  | some t => some t != c.tenant
  | none => false

/-- The requests not FREE that a command matches: by ring, TAG and tenant (03 R119). -/
def matching (s : State) (c : Cmd) : List (Nat × Req) :=
  s.reqs.filter fun e => e.2.ring = le c.pkt 20 4 && e.2.tag.toNat = le c.pkt 24 8 && some e.2.tenant == c.tenant

/-- REQ_CANCEL (03 R120): CANCELLED for every match without a final reply; the reply counts those the arbiter accepts. -/
def reqCancel (cid : Nat) (s : State) : State :=
  runCmd cid 0x0205 (fun c s =>
    if ringForeign s c then refuse cid .accessDenied 2 s
    else
      let l := matching s c
      let live := l.filter fun e => e.2.final.isNone
      let aux := [l.length - live.length, 0] ++ live.map fun e => reqHandle e.2.gen e.1
      let put := fun (s : State) (e : Nat × Req) =>
        submit { reqCand s e.1 e.2 .cancelled 3 (reqValue s e.1 e.2) 0 false with act := .cancelled cid } s
      settleCancels (live.foldl put (begun cid aux s))) s

/-- Meaning of REQ_CANCEL. -/
def execReqCancel (cid : Nat) (s : State) : Host.Outcome State Fault Refusal := .next (reqCancel cid s)

/-- PROVISIONAL_LEN of a request's sequence. -/
def provisionalLen (s : State) (r : Req) : Nat :=
  match (r.seqIdx.bind (tget s.seqs)).bind (·.prov) with
  | some pr => pr.parents.length
  | none => if inFlightState r.st then r.cands else 0

/-- Address of the first page of a sequence's page list: byte address in its half, East at 2^40 (notes/assumptions 29). -/
def pageListAddr (s : State) (i : Nat) : Nat :=
  match s.pages.find? fun e => match e.2.use with | .pageList k => k = i | _ => false with
  | some e => e.1 % 2 ^ 21 * 65536 + e.1 / 2 ^ 21 * 2 ^ 40
  | none => 0

/-- A request table entry as REQ_QUERY writes it (03 Table 3-1). -/
def entryFields (s : State) (slot : Nat) (r : Req) : List (Nat × Nat) :=
  let app := match r.applique with
    | some (i, v) => (((tget s.apps i).map fun (a : Applique) => appHandle a.gen i).getD 0xFFFF, v)
    | none => (0xFFFF, 0)
  [(4, reqHandle r.gen slot), (1, reqStateCode r.st),
   (1, r.cls % 4 + r.tenant % 8 * 4 + bit r.mirror * 32 + spare s 0 % 4 * 64), (2, r.account % 4096 + spare s 1 % 16 * 4096),
   (4, reqSeqHandle s r), (4, committedOf s r), (1, provisionalLen s r),
   (1, r.hemPolicy % 4 + r.minHem % 8 * 4 + r.deepest % 8 * 32), (2, r.guard), (4, r.patHandle), (2, app.1), (2, spare s 2),
   (4, app.2), (8, r.deadline.getD 0), (8, r.doorbell), (4, r.charged), (4, sat 32 r.used),
   (8, (r.seqIdx.map (pageListAddr s)).getD 0)]

/-- The match admitted earliest. -/
def earliest (l : List (Nat × Req)) : Option (Nat × Req) :=
  (sortBy (fun a b : Nat × Req => decide (a.2.number ≤ b.2.number)) l).head?

/-- USED of a running request as it stands: how far its units have come is a free value between what is counted and all of it (03 R107,
Table 3-1; notes/assumptions 6). -/
def countSoFar (slot : Nat) (s : State) : State :=
  match tget s.reqs slot with
  | some r =>
    if inFlightState r.st && r.result.isNone && decide (r.counted < countable r) then
      stepFree (modReq slot (countUse (r.counted + (freeWord s).toNat % (countable r - r.counted + 1))) s)
    else s
  | none => s

/-- REQ_QUERY (03 R121). -/
def reqQuery (cid : Nat) (s : State) : State :=
  runCmd cid 0x0206 (fun c s =>
    if ringForeign s c then refuse cid .accessDenied 2 s
    else
      let l := matching s c
      match earliest l with
      | none => done cid 0 0 s
      | some (slot, r) =>
        let s := countSoFar slot s
        let r := (tget s.reqs slot).getD r
        done cid l.length (BitVec.ofNat 64 (reqHandle r.gen slot))
          (useSpares 3 (writeFields (le c.pkt 32 8) (entryFields s slot r) s))) s

/-- Meaning of REQ_QUERY. -/
def execReqQuery (cid : Nat) (s : State) : Host.Outcome State Fault Refusal := .next (reqQuery cid s)

/-! ### SEQ_CLOSE (05 R179) -/

/-- Requests of a sequence. -/
def seqReqs (s : State) (i : Nat) : List (Nat × Req) := s.reqs.filter fun e => e.2.seqIdx == some i

/-- SEQ_CLOSE (05 R179): CLOSING; `aux` holds the sequence and whether provisional entries are discarded. -/
def seqClose (cid : Nat) (s : State) : State :=
  runCmd cid 0x0207 (fun c s =>
    match ownSeq s c with
    | none => refuse cid .badState 6 s
    | some (i, q) =>
      if q.st = .closing then refuse cid .badState 6 s
      else
        let had := match q.prov with
          | some pr => !pr.parents.isEmpty
          | none => false
        let shut := fun (q : Sequence) => { q with st := .closing, prov := none, closer := some cid, freed := 0 }
        let s := tellSeq i (modSeq i shut (begun cid [i, bit had] s))
        if c.pkt.getLsbD 192 then endReqs (((seqReqs s i).filter fun e => e.2.final.isNone).map Prod.fst) .cancelled 3 s
        else s) s

/-- Meaning of SEQ_CLOSE. -/
def execSeqClose (cid : Nat) (s : State) : Host.Outcome State Fault Refusal := .next (seqClose cid s)

/-- Pages that hold entries of a sequence, and pages of its list. -/
def seqKv (i : Nat) (u : PageUse) : Bool := match u with | .kv k _ _ _ _ => k = i | _ => false
def seqList (i : Nat) (u : PageUse) : Bool := match u with | .pageList k => k = i | _ => false

/-- SEQ_CLOSE_COMPLETE (05 R179, 03 R116): every request of the sequence is FREE; its pages are freed, then its entry. VALUE's length at
close is COMMITTED_LEN when the entry is freed (DESIGN CHOICE, notes/assumptions 126). -/
def seqClosed (i : Nat) (s : State) : State :=
  match tget s.seqs i with
  | none => s
  | some q =>
    match q.closer with
    | none => s
    | some cid =>
      if q.st ≠ .closing ∨ (seqReqs s i).isEmpty = false then s
      else
        let pages := q.freed + countPages (seqKv i) s
        let had := ((tget s.cmds cid).map fun c => c.aux.getD 1 0) == some 1
        let s := freePagesOf (fun u => seqKv i u || seqList i u) s
        let s := { s with seqs := tdel s.seqs i, seqGens := tset s.seqGens i (nextGen 16383 q.gen) }
        let s := match q.applique with
          | some (a, _) => drainApplique a s
          | none => s
        finish cid .done pages (BitVec.ofNat 64 q.committed) (discardedFlag had) .none (retireKeys q.tenant s)

/-- Meaning of SEQ_CLOSE_COMPLETE. -/
def execSeqCloseComplete (seqIdx : Nat) (s : State) : Host.Outcome State Fault Refusal := .next (seqClosed seqIdx s)

end Sys2Proof.Machine
end

