-- ==== Sys2Proof/Machine/Service.lean ====
section
/-! DEFINITION. The service ports: SMBus reads and the alert (13 R400-R402, 14 R418), and JTAG (09 R275, R277). -/
namespace Sys2Proof.Machine

/-! ### SMBus transfers (13 R400) -/

/-- One bit of SMBus's CRC-8, polynomial x^8 + x^2 + x + 1 (notes/assumptions 38). -/
def pecBit (c : Nat) : Nat := (if 128 ≤ c then (2 * c) ^^^ 0x107 else 2 * c) % 256

/-- Packet Error Code of a transfer's bytes. -/
def pec (l : List Nat) : Nat :=
  l.foldl (fun c b => pecBit (pecBit (pecBit (pecBit (pecBit (pecBit (pecBit (pecBit (c ^^^ b))))))))) 0

/-- The bytes of a number. -/
def bytesOf (n v : Nat) : List Nat := (List.range n).map fun i => (v >>> (8 * i)) % 256

/-- Address bytes of the target: 0x40 + SLOT_ID, writing and reading. -/
def smbAddr (s : State) (read : Bool) : Nat := 2 * (0x40 + s.link.slotId.toNat) + bit read

/-- The reply of a read: FLAGS and fields, then the PEC over the whole transfer. A process call writes its arguments with their
count. -/
def smbReply (code : Nat) (args : List Nat) (coarse : Bool) (fields : List (Nat × Nat)) (s : State) : State :=
  if !s.clk.sclk then s
  else
    let l := (1, bit coarse) :: fields
    let n := packLen l
    let written := smbAddr s false :: code :: (if args.isEmpty then [] else args.length :: args)
    let p := pec (written ++ smbAddr s true :: n :: bytesOf n (pack l))
    emit (.smbus (n + 1) (pack l + p * 2 ^ (8 * n))) s

/-- An argument out of range is refused at its byte (13 R400). -/
def smbNak (s : State) : State := if s.clk.sclk then emit .smbusNak s else s

/-- SMB_ALERT# is released. -/
def releaseAlert (s : State) : State := if s.clk.sclk then { s with health := { s.health with alert := false } } else s

/-- SMBUS_IDENTITY. -/
def smbIdentity (s : State) : State :=
  smbReply 0x01 [] false [(1, s.link.slotId.toNat), (1, lifecycleCode s), (1, bit s.link.latchOpen), (16, partNumber),
    (16, moduleSerial s), (8, fwVersion s)] s

/-- Meaning of SMBUS_IDENTITY. -/
def execSmbusIdentity (s : State) : Host.Outcome State Fault Refusal := .next (smbIdentity s)

/-- SMBUS_STATE: releases the alert (13 R402). -/
def smbState (s : State) : State :=
  releaseAlert (smbReply 0x02 [] false ([0x10, 0x18, 0x50, 0x48, 0x40].map fun off => (8, (regRead off s).toNat)) s)

/-- Meaning of SMBUS_STATE. -/
def execSmbusState (s : State) : Host.Outcome State Fault Refusal := .next (smbState s)

/-- SMBUS_TIME. -/
def smbTime (s : State) : State := smbReply 0x03 [] false [(8, now s)] s

/-- Meaning of SMBUS_TIME. -/
def execSmbusTime (s : State) : Host.Outcome State Fault Refusal := .next (smbTime s)

/-- SMBUS_SENSORS. -/
def smbSensors (first count : Nat) (s : State) : State :=
  if 0x33 < first ∨ count = 0 ∨ 64 < count then smbNak s
  else smbReply 0x10 [first, count] (partitioned s)
    ((List.range count).map fun i => (2, if first + i ≤ 0x33 then sensorWord s (first + i) else 0x8000)) s

/-- Meaning of SMBUS_SENSORS. -/
def execSmbusSensors (first count : Nat) (s : State) : Host.Outcome State Fault Refusal := .next (smbSensors first count s)

/-- A feed in units of 10 mV, or its presence in partition mode. -/
def feedWord (s : State) (f : Feed) : Nat := if partitioned s then bit f.present else f.mv / 10

/-- SMBUS_POWER. -/
def smbPower (s : State) : State :=
  smbReply 0x11 [] (partitioned s) ([(2, totalW s), (2, feedWord s s.power.feedA), (2, feedWord s s.power.feedB)] ++
    (List.range 8).map fun k => (2, coreWatts s k)) s

/-- Meaning of SMBUS_POWER. -/
def execSmbusPower (s : State) : Host.Outcome State Fault Refusal := .next (smbPower s)

/-- SMBUS_BOBBIN: only the records that are held are given (14 R418). -/
def smbBobbin (unit start count : Nat) (s : State) : State :=
  if 0x1D < unit ∨ 255 < start ∨ count = 0 ∨ 15 < count then smbNak s
  else smbReply 0x20 [unit, start, count] (partitioned s) (bobRecords s unit start count) s

/-- Meaning of SMBUS_BOBBIN. -/
def execSmbusBobbin (unit start count : Nat) (s : State) : Host.Outcome State Fault Refusal := .next (smbBobbin unit start count s)

/-- SMBUS_ALERT_RESPONSE: a module that asserts SMB_ALERT# answers with its address and PEC, and releases it. -/
def smbAlert (s : State) : State :=
  if s.clk.sclk && s.health.alert then
    let a := smbAddr s false
    releaseAlert (emit (.smbus 2 (a + pec [0x19, a] * 256)) s)
  else s

/-- Meaning of SMBUS_ALERT_RESPONSE. -/
def execSmbusAlertResponse (s : State) : Host.Outcome State Fault Refusal := .next (smbAlert s)

/-! ### JTAG (09 R275, R277) -/

/-- The hub runs and the boot ROM has read the fuses; before that the port offers BYPASS and IDCODE only (notes/assumptions 39). -/
def jtagRuns (s : State) : Bool := hubOn s && !s.dev.startDue

/-- DEBUG_POLICY AUTH, 0b01; OPEN is 0b00. -/
def authPolicy (s : State) : Bool := debugPolicy s = 1

/-- JTAG_CHALLENGE: a fresh challenge from the DRBG, none for 1 s after a failed check. -/
def challenge (s : State) : State :=
  if jtagRuns s && authPolicy s && decide (s.sec.challengeAt ≤ now s) then
    let c := (Config.drbg s.sec.draws).setWidth 256
    emit (.jtag c) { s with sec := { s.sec with draws := s.sec.draws + 1, challenge := some c } }
  else s

/-- Meaning of JTAG_CHALLENGE. -/
def execJtagChallenge (s : State) : Host.Outcome State Fault Refusal := .next (challenge s)

/-- The port opens: every tenant is removed as TENANT_REMOVE does, every key slot zeroed (14 Table 14-14), DEBUG_OPENED set. -/
def openPort (s : State) : State :=
  let act := (s.tenants.filter fun e => e.2.st == .active).map Prod.fst
  let s := zeroAllKeys (act.foldl (fun s t => beginRemoval t 0 s) s)
  { s with sec := { s.sec with debugOpened := true, jtagOpen := true } }

/-- The check of an unlock token: key, its revocation, and the signature over the digest of MODULE_SERIAL and the challenge. -/
def tokenGood (s : State) (root key sig : Nat) (c : BitVec 256) : Bool :=
  decide (root ≤ 2) && (Config.sha3 1952 key).toNat == rootHash s root && !(keyRevoke s).testBit root &&
    Config.mldsaVerify key (Config.sha3 48 (pack [(16, moduleSerial s), (32, c.toNat)])) sig

/-- JTAG_UNLOCK: a challenge serves one check. -/
def unlock (root key sig : Nat) (s : State) : State :=
  if !(jtagRuns s && authPolicy s) then s
  else
    let good := (s.sec.challenge.map fun c => tokenGood s root (key % 2 ^ 15616) (sig % 2 ^ 26472) c).getD false
    let s := { s with sec := { s.sec with challenge := none } }
    if good then emit (.jtagStatus true) (openPort s)
    else emit (.jtagStatus s.sec.jtagOpen) { s with sec := { s.sec with challengeAt := now s + 100000000 } }

/-- Meaning of JTAG_UNLOCK. -/
def execJtagUnlock (root key sig : Nat) (s : State) : Host.Outcome State Fault Refusal := .next (unlock root key sig s)

/-- JTAG_OPEN: under OPEN the first instruction other than BYPASS or IDCODE opens the port. -/
def jtagFirst (s : State) : State :=
  if jtagRuns s && decide (debugPolicy s = 0) && !s.sec.jtagOpen then emit (.jtagStatus true) (openPort s) else s

/-- Meaning of JTAG_OPEN. -/
def execJtagOpen (s : State) : Host.Outcome State Fault Refusal := .next (jtagFirst s)

/-- The bits that a JTAG operation may blow; `field` is the lowest logical bit. In DEPLOYED it may only advance LIFECYCLE to
DECOMMISSIONED, once authenticated. -/
def jtagBits (s : State) (field value : Nat) : BitVec 4096 :=
  if lifecycle s = 0 then BitVec.ofNat 4096 (value * 2 ^ field)
  else if lifecycle s = 1 ∧ s.sec.jtagOpen = true ∧ authPolicy s = true ∧ field = 1219 ∧ value = 3 then
    BitVec.ofNat 4096 (3 * 2 ^ 1219)
  else 0

/-- JTAG_FUSE_PROGRAM (09 R275, R277) through the open port, which under OPEN this instruction opens itself: cells are blown; the
shadow follows at the next boot (R272). -/
def fuseProgram (field value : Nat) (s : State) : State :=
  let t := jtagFirst s
  if jtagRuns t && t.sec.jtagOpen then blow (jtagBits t field value) t else t

/-- Meaning of JTAG_FUSE_PROGRAM. -/
def execJtagFuseProgram (field : Nat) (value : Nat) (s : State) : Host.Outcome State Fault Refusal :=
  .next (fuseProgram field value s)

end Sys2Proof.Machine
end

