-- ==== Sys2Proof/Machine/Dispatch.lean ====
section
/-! DEFINITION. The meaning of each command: one arm for each row of the opcode table. -/
namespace Sys2Proof.Machine

def exec (i : Instr) (s : State) : Host.Outcome State Fault Refusal :=
  match i with
  | .doorbellWrite w64 v => Sys2Proof.Machine.execDoorbellWrite w64 v s
  | .replyDoorbellWrite w64 v => Sys2Proof.Machine.execReplyDoorbellWrite w64 v s
  | .adminRingEnable sizeLog2 desc => Sys2Proof.Machine.execAdminRingEnable sizeLog2 desc s
  | .adminRingDisable sizeLog2 => Sys2Proof.Machine.execAdminRingDisable sizeLog2 s
  | .registerWrite off w64 v => Sys2Proof.Machine.execRegisterWrite off w64 v s
  | .localTimeRead upper w64 => Sys2Proof.Machine.execLocalTimeRead upper w64 s
  | .ringFetchVisit kinds => Sys2Proof.Machine.execRingFetchVisit kinds s
  | .commandFetched ring pkt sealedObj blocks => Sys2Proof.Machine.execCommandFetched ring pkt sealedObj blocks s
  | .fetchReadFailed ring => Sys2Proof.Machine.execFetchReadFailed ring s
  | .pcieReadError t => Sys2Proof.Machine.execPcieReadError t s
  | .orderedRelease cid => Sys2Proof.Machine.execOrderedRelease cid s
  | .replyAccept queue => Sys2Proof.Machine.execReplyAccept queue s
  | .eventBacklogDrain => Sys2Proof.Machine.execEventBacklogDrain s
  | .requestReady slot => Sys2Proof.Machine.execRequestReady slot s
  | .requestDispatch slot pricks lend => Sys2Proof.Machine.execRequestDispatch slot pricks lend s
  | .requestResume slot => Sys2Proof.Machine.execRequestResume slot s
  | .hemComplete slot hem ops => Sys2Proof.Machine.execHemComplete slot hem ops s
  | .verifyPassComplete slot rows ops => Sys2Proof.Machine.execVerifyPassComplete slot rows ops s
  | .requestWorkComplete slot w => Sys2Proof.Machine.execRequestWorkComplete slot w s
  | .inCrcCheck slot crc sealedGen tagOk => Sys2Proof.Machine.execInCrcCheck slot crc sealedGen tagOk s
  | .fallbackTick slot => Sys2Proof.Machine.execFallbackTick slot s
  | .hemCutoff slot w => Sys2Proof.Machine.execHemCutoff slot w s
  | .sweepComplete => Sys2Proof.Machine.execSweepComplete s
  | .requestUnitsStopped slot ran => Sys2Proof.Machine.execRequestUnitsStopped slot ran s
  | .requestRetired slot => Sys2Proof.Machine.execRequestRetired slot s
  | .budgetRefill account => Sys2Proof.Machine.execBudgetRefill account s
  | .sliceStart => Sys2Proof.Machine.execSliceStart s
  | .patternSramRelease pattern => Sys2Proof.Machine.execPatternSramRelease pattern s
  | .nop cid => Sys2Proof.Machine.execNop cid s
  | .identify cid => Sys2Proof.Machine.execIdentify cid s
  | .getHealth cid => Sys2Proof.Machine.execGetHealth cid s
  | .setConfig cid => Sys2Proof.Machine.execSetConfig cid s
  | .configCommit cid => Sys2Proof.Machine.execConfigCommit cid s
  | .ringCreate cid desc => Sys2Proof.Machine.execRingCreate cid desc s
  | .ringDestroy cid => Sys2Proof.Machine.execRingDestroy cid s
  | .ringDestroyComplete ring => Sys2Proof.Machine.execRingDestroyComplete ring s
  | .accountSet cid => Sys2Proof.Machine.execAccountSet cid s
  | .resetUnitModule cid => Sys2Proof.Machine.execResetUnitModule cid s
  | .resetUnitHalf cid => Sys2Proof.Machine.execResetUnitHalf cid s
  | .resetUnitCore cid => Sys2Proof.Machine.execResetUnitCore cid s
  | .resetUnitComplete cid => Sys2Proof.Machine.execResetUnitComplete cid s
  | .shutdown cid => Sys2Proof.Machine.execShutdown cid s
  | .shutdownComplete => Sys2Proof.Machine.execShutdownComplete s
  | .patternStore cid image => Sys2Proof.Machine.execPatternStore cid image s
  | .patternStoreComplete cid plan => Sys2Proof.Machine.execPatternStoreComplete cid plan s
  | .patternStage cid => Sys2Proof.Machine.execPatternStage cid s
  | .patternStageComplete cid e => Sys2Proof.Machine.execPatternStageComplete cid e s
  | .patternReside cid => Sys2Proof.Machine.execPatternReside cid s
  | .patternResideComplete cid => Sys2Proof.Machine.execPatternResideComplete cid s
  | .patternEvict cid => Sys2Proof.Machine.execPatternEvict cid s
  | .patternEvictComplete cid => Sys2Proof.Machine.execPatternEvictComplete cid s
  | .appliqueLoad cid => Sys2Proof.Machine.execAppliqueLoad cid s
  | .appliqueReplace cid => Sys2Proof.Machine.execAppliqueReplace cid s
  | .appliqueLoadComplete cid crc fmt weights => Sys2Proof.Machine.execAppliqueLoadComplete cid crc fmt weights s
  | .appliqueRetire cid => Sys2Proof.Machine.execAppliqueRetire cid s
  | .reqSubmit cid blocks => Sys2Proof.Machine.execReqSubmit cid blocks s
  | .reqAppend cid blocks => Sys2Proof.Machine.execReqAppend cid blocks s
  | .reqVerify cid blocks => Sys2Proof.Machine.execReqVerify cid blocks s
  | .reqCommit cid => Sys2Proof.Machine.execReqCommit cid s
  | .reqCommitWaitEnd cid => Sys2Proof.Machine.execReqCommitWaitEnd cid s
  | .reqCancel cid => Sys2Proof.Machine.execReqCancel cid s
  | .reqQuery cid => Sys2Proof.Machine.execReqQuery cid s
  | .seqClose cid => Sys2Proof.Machine.execSeqClose cid s
  | .seqCloseComplete seqIdx => Sys2Proof.Machine.execSeqCloseComplete seqIdx s
  | .adaptStep cid blocks => Sys2Proof.Machine.execAdaptStep cid blocks s
  | .streamOpen cid => Sys2Proof.Machine.execStreamOpen cid s
  | .streamFeed cid crc sealedGen tagOk => Sys2Proof.Machine.execStreamFeed cid crc sealedGen tagOk s
  | .pictureDecodeStart engine p => Sys2Proof.Machine.execPictureDecodeStart engine p s
  | .pictureDecodeEnd engine p => Sys2Proof.Machine.execPictureDecodeEnd engine p s
  | .decodeWatchdog engine done p => Sys2Proof.Machine.execDecodeWatchdog engine done p s
  | .streamClose cid => Sys2Proof.Machine.execStreamClose cid s
  | .streamCloseComplete stream => Sys2Proof.Machine.execStreamCloseComplete stream s
  | .encOpen cid => Sys2Proof.Machine.execEncOpen cid s
  | .encFrame cid rois source sealedGen tagOk => Sys2Proof.Machine.execEncFrame cid rois source sealedGen tagOk s
  | .encFrameComplete cid au baseQp => Sys2Proof.Machine.execEncFrameComplete cid au baseQp s
  | .encClose cid => Sys2Proof.Machine.execEncClose cid s
  | .fenceAlloc cid => Sys2Proof.Machine.execFenceAlloc cid s
  | .fenceFree cid => Sys2Proof.Machine.execFenceFree cid s
  | .fenceFreeComplete cid => Sys2Proof.Machine.execFenceFreeComplete cid s
  | .fenceSignal cid => Sys2Proof.Machine.execFenceSignal cid s
  | .fenceWait cid => Sys2Proof.Machine.execFenceWait cid s
  | .fenceWaitDone cid => Sys2Proof.Machine.execFenceWaitDone cid s
  | .fenceWaitLimit cid => Sys2Proof.Machine.execFenceWaitLimit cid s
  | .tenantCreate cid => Sys2Proof.Machine.execTenantCreate cid s
  | .tenantRemove cid => Sys2Proof.Machine.execTenantRemove cid s
  | .tenantRemoveComplete cid => Sys2Proof.Machine.execTenantRemoveComplete cid s
  | .keyInstall cid block => Sys2Proof.Machine.execKeyInstall cid block s
  | .keyRotate cid block => Sys2Proof.Machine.execKeyRotate cid block s
  | .restitchPage half page => Sys2Proof.Machine.execRestitchPage half page s
  | .attestQuote cid nonce => Sys2Proof.Machine.execAttestQuote cid nonce s
  | .partitionSet cid block => Sys2Proof.Machine.execPartitionSet cid block s
  | .pairBind cid => Sys2Proof.Machine.execPairBind cid s
  | .pairBindComplete cid q => Sys2Proof.Machine.execPairBindComplete cid q s
  | .pairStatus cid => Sys2Proof.Machine.execPairStatus cid s
  | .resilverStart cid => Sys2Proof.Machine.execResilverStart cid s
  | .resilverPhaseComplete bytes copy descs => Sys2Proof.Machine.execResilverPhaseComplete bytes copy descs s
  | .pairSwitchback cid compared sent taken diverged => Sys2Proof.Machine.execPairSwitchback cid compared sent taken diverged s
  | .pairSwitchbackComplete cid => Sys2Proof.Machine.execPairSwitchbackComplete cid s
  | .pairAudit cid compared sent taken diverged => Sys2Proof.Machine.execPairAudit cid compared sent taken diverged s
  | .pairUnbind cid => Sys2Proof.Machine.execPairUnbind cid s
  | .fwWriteBlock cid data => Sys2Proof.Machine.execFwWriteBlock cid data s
  | .fwVerify cid => Sys2Proof.Machine.execFwVerify cid s
  | .fwActivateKeep cid => Sys2Proof.Machine.execFwActivateKeep cid s
  | .activationPauseEnd formatOf changed => Sys2Proof.Machine.execActivationPauseEnd formatOf changed s
  | .activationPauseTimeout => Sys2Proof.Machine.execActivationPauseTimeout s
  | .fwActivateFull cid => Sys2Proof.Machine.execFwActivateFull cid s
  | .fwQuery cid => Sys2Proof.Machine.execFwQuery cid s
  | .trialComplete => Sys2Proof.Machine.execTrialComplete s
  | .loopbackSet cid => Sys2Proof.Machine.execLoopbackSet cid s
  | .loopbackEnd cid mismatched compared => Sys2Proof.Machine.execLoopbackEnd cid mismatched compared s
  | .traceConfig cid => Sys2Proof.Machine.execTraceConfig cid s
  | .bobbinRead cid => Sys2Proof.Machine.execBobbinRead cid s
  | .counterRead cid => Sys2Proof.Machine.execCounterRead cid s
  | .counterArm cid => Sys2Proof.Machine.execCounterArm cid s
  | .counterDisarm cid => Sys2Proof.Machine.execCounterDisarm cid s
  | .marginScan cid => Sys2Proof.Machine.execMarginScan cid s
  | .selftestRun cid => Sys2Proof.Machine.execSelftestRun cid s
  | .powerOn => Sys2Proof.Machine.execPowerOn s
  | .start env formatOf changed => Sys2Proof.Machine.execStart env formatOf changed s
  | .startComplete => Sys2Proof.Machine.execStartComplete s
  | .startFailure => Sys2Proof.Machine.execStartFailure s
  | .startRetry => Sys2Proof.Machine.execStartRetry s
  | .startStageTimeout row => Sys2Proof.Machine.execStartStageTimeout row s
  | .startFailsClear => Sys2Proof.Machine.execStartFailsClear s
  | .perstAssert => Sys2Proof.Machine.execPerstAssert s
  | .perstDeassert => Sys2Proof.Machine.execPerstDeassert s
  | .hotReset => Sys2Proof.Machine.execHotReset s
  | .linkDisable => Sys2Proof.Machine.execLinkDisable s
  | .linkUp speed width => Sys2Proof.Machine.execLinkUp speed width s
  | .functionLevelReset => Sys2Proof.Machine.execFunctionLevelReset s
  | .d3hotEntry => Sys2Proof.Machine.execD3hotEntry s
  | .d3hotTaken => Sys2Proof.Machine.execD3hotTaken s
  | .d3hotExit => Sys2Proof.Machine.execD3hotExit s
  | .busMasterDisable => Sys2Proof.Machine.execBusMasterDisable s
  | .busMasterEnable => Sys2Proof.Machine.execBusMasterEnable s
  | .feedPresent feed mv => Sys2Proof.Machine.execFeedPresent feed mv s
  | .feedLost feed otherMv => Sys2Proof.Machine.execFeedLost feed otherMv s
  | .holdUpEnd => Sys2Proof.Machine.execHoldUpEnd s
  | .latchOpen => Sys2Proof.Machine.execLatchOpen s
  | .slotIdChange pins => Sys2Proof.Machine.execSlotIdChange pins s
  | .syspllLockLoss => Sys2Proof.Machine.execSyspllLockLoss s
  | .refclkFail => Sys2Proof.Machine.execRefclkFail s
  | .livenessMark processor => Sys2Proof.Machine.execLivenessMark processor s
  | .wedge => Sys2Proof.Machine.execWedge s
  | .watchdogReset => Sys2Proof.Machine.execWatchdogReset s
  | .heartbeatSend => Sys2Proof.Machine.execHeartbeatSend s
  | .halyardAFrameRx frame => Sys2Proof.Machine.execHalyardAFrameRx frame s
  | .halyardBFrameRx idles chars => Sys2Proof.Machine.execHalyardBFrameRx idles chars s
  | .partnerLost => Sys2Proof.Machine.execPartnerLost s
  | .mirrorRecordRx r => Sys2Proof.Machine.execMirrorRecordRx r s
  | .recordAckRx commitSeq => Sys2Proof.Machine.execRecordAckRx commitSeq s
  | .recordAckTimeout => Sys2Proof.Machine.execRecordAckTimeout s
  | .setupAppliedReport cid applied => Sys2Proof.Machine.execSetupAppliedReport cid applied s
  | .mirrorLinkLost => Sys2Proof.Machine.execMirrorLinkLost s
  | .recoveryWindowClose half => Sys2Proof.Machine.execRecoveryWindowClose half s
  | .sensorSample readings => Sys2Proof.Machine.execSensorSample readings s
  | .throttleRelease core => Sys2Proof.Machine.execThrottleRelease core s
  | .migrationReturn pattern => Sys2Proof.Machine.execMigrationReturn pattern s
  | .powerWindow slow milliwatts coreW blockW feedMv => Sys2Proof.Machine.execPowerWindow slow milliwatts coreW blockW feedMv s
  | .powerStepDown mean100us => Sys2Proof.Machine.execPowerStepDown mean100us s
  | .powerStepUp => Sys2Proof.Machine.execPowerStepUp s
  | .flowSample mlPerMin => Sys2Proof.Machine.execFlowSample mlPerMin s
  | .flowCapUpdate meanMlPerMin => Sys2Proof.Machine.execFlowCapUpdate meanMlPerMin s
  | .orderlyShutdownDrainEnd => Sys2Proof.Machine.execOrderlyShutdownDrainEnd s
  | .coolantHoldEnd => Sys2Proof.Machine.execCoolantHoldEnd s
  | .coolantHoldTimeout => Sys2Proof.Machine.execCoolantHoldTimeout s
  | .droopStretch core => Sys2Proof.Machine.execDroopStretch core s
  | .marginWindowEnd supplyMv slackPs => Sys2Proof.Machine.execMarginWindowEnd supplyMv slackPs s
  | .opticalSample tx rx => Sys2Proof.Machine.execOpticalSample tx rx s
  | .lpddrRefresh channel => Sys2Proof.Machine.execLpddrRefresh channel s
  | .retraining channel ok eye => Sys2Proof.Machine.execRetraining channel ok eye s
  | .halfMapRebuilt half => Sys2Proof.Machine.execHalfMapRebuilt half s
  | .eccWindowEnd => Sys2Proof.Machine.execEccWindowEnd s
  | .lpddrScrub channel line r => Sys2Proof.Machine.execLpddrScrub channel line r s
  | .sramScrub unit word r sentinelSlot => Sys2Proof.Machine.execSramScrub unit word r sentinelSlot s
  | .flashPatrol pattern block r heavy => Sys2Proof.Machine.execFlashPatrol pattern block r heavy s
  | .eccRepairComplete half unit arg => Sys2Proof.Machine.execEccRepairComplete half unit arg s
  | .dieLinkFault l => Sys2Proof.Machine.execDieLinkFault l s
  | .halfFault half => Sys2Proof.Machine.execHalfFault half s
  | .haloRowWrite path frame row layer bytes down data => Sys2Proof.Machine.execHaloRowWrite path frame row layer bytes down data s
  | .haloRowRead path frame row layer => Sys2Proof.Machine.execHaloRowRead path frame row layer s
  | .frameEnd pattern half spent lastRow => Sys2Proof.Machine.execFrameEnd pattern half spent lastRow s
  | .smbusIdentity => Sys2Proof.Machine.execSmbusIdentity s
  | .smbusState => Sys2Proof.Machine.execSmbusState s
  | .smbusTime => Sys2Proof.Machine.execSmbusTime s
  | .smbusSensors first count => Sys2Proof.Machine.execSmbusSensors first count s
  | .smbusPower => Sys2Proof.Machine.execSmbusPower s
  | .smbusBobbin unit start count => Sys2Proof.Machine.execSmbusBobbin unit start count s
  | .smbusAlertResponse => Sys2Proof.Machine.execSmbusAlertResponse s
  | .jtagChallenge => Sys2Proof.Machine.execJtagChallenge s
  | .jtagUnlock root key sig => Sys2Proof.Machine.execJtagUnlock root key sig s
  | .jtagOpen => Sys2Proof.Machine.execJtagOpen s
  | .traceCounterSample => Sys2Proof.Machine.execTraceCounterSample s
  | .traceSync => Sys2Proof.Machine.execTraceSync s
  | .latchClose => Sys2Proof.Machine.execLatchClose s
  | .pairBindTimeout cid => Sys2Proof.Machine.execPairBindTimeout cid s
  | .jtagFuseProgram field value => Sys2Proof.Machine.execJtagFuseProgram field value s
  | .memoryErrorOnAccess t e => Sys2Proof.Machine.execMemoryErrorOnAccess t e s
  | .channelPhyFault channel => Sys2Proof.Machine.execChannelPhyFault channel s
  | .selftestEnd cid mismatches first => Sys2Proof.Machine.execSelftestEnd cid mismatches first s
  | .fwBlockWritten cid => Sys2Proof.Machine.execFwBlockWritten cid s
  | .fwVerifyComplete cid => Sys2Proof.Machine.execFwVerifyComplete cid s
  | .marginScanComplete cid tx rx eyes => Sys2Proof.Machine.execMarginScanComplete cid tx rx eyes s
  | .mirrorLinkUp => Sys2Proof.Machine.execMirrorLinkUp s

end Sys2Proof.Machine
end

