-- ==== Sys2Proof/Machine/Time.lean ====
section
/-! DEFINITION. What one tick of SCLK does of itself (notes/assumptions 1): the counter and the bobbin store. -/
namespace Sys2Proof.Machine

/-- The units of 14 Table 14-4 in the order the store serves them after `last` (14 R417: round robin). -/
def bobUnits (last : Nat) : List Nat := (List.range 30).map fun i => (last + 1 + i) % 30

/-- A bobbin record of a selected unit goes out as trace as well (14 R422). -/
def traceBobbin (unit : Nat) (r : BobRec) (s : State) : State :=
  if s.svc.trace.mask.testBit unit then traceRec unit r.code r.arg s else s

/-- The store takes the oldest waiting record of one unit; drops since the last stored record go into it (14 R417). -/
def storeFrom (unit : Nat) (s : State) : State :=
  let b := bobOf s unit
  match b.queue with
  | [] => s
  | r :: rest =>
    let r' : BobRec := { r with dropped := min b.drops 15 }
    let b' : Bobbin := { recs := (r' :: b.recs).take 256, posted := b.posted + 1, queue := rest, drops := 0 }
    traceBobbin unit r' { s with bob := { units := tset s.bob.units unit b', last := unit } }

/-- One record of the first unit that has one waiting, if any. -/
def storeOne (s : State) : State :=
  match (bobUnits s.bob.last).find? fun u => !(bobOf s u).queue.isEmpty with
  | some u => storeFrom u s
  | none => s

/-- A core's stretched cycles pass: 36 ÷ divider in one tick, half of what it runs unstretched (12 R384, 01 Table 1-7). -/
def stretchTick (c : Core) : Core := { c with stretchCycles := c.stretchCycles - 36 / divider c }

/-- At the start of each 1 ms window the counters are held for partition mode (09 Table 9-15, 03 R100). -/
def holdCounters (s : State) : State :=
  if now s % 100000 = 0 then
    { s with svc := { s.svc with window := s.svc.tallies ++ s.svc.prof.getD [], windowAt := now s } }
  else s

/-- One tick: the bobbin store takes up to 4 records (14 R417) and LOCAL_TIME advances while SCLK runs (01 R25). -/
def tick (s : State) : State :=
  let s := storeOne (storeOne (storeOne (storeOne s)))
  if s.clk.sclk then
    holdCounters { s with clk := { s.clk with localTime := s.clk.localTime + 1 }, cores := s.cores.map stretchTick }
  else s

end Sys2Proof.Machine
end

