-- ==== Sys2Proof/Safety.lean ====
section
/-! DEFINITION. The terms claims are stated in: a command ready to run or in progress, what is kept across commands, the reply log,
legal core dividers, well-formed tables. -/
namespace Sys2Proof.Machine

/-- A command of an opcode has been fetched and may begin, on a running hub, and no field of its packet is at fault (02 R40,
R59, R427). -/
abbrev Ready (s : State) (cid op : Nat) (c : Cmd) : Prop := begins s cid op = some c ∧ badField c.pkt false = none

/-- A command of an opcode has begun and awaits its completion, on a running hub. -/
abbrev Begun (s : State) (cid op : Nat) (c : Cmd) : Prop := inProgress s cid op = some c

/-- What left the module into a reply queue: the bytes of a reply, or a tail word. -/
def isReply : Tx → Bool
  | .reply .. => true
  | .tailWord .. => true
  | _ => false

/-- The replies and tail words written, oldest first. -/
def replyLog (s : State) : List Tx := s.tx.filter isReply

/-- What no command changes but those that claims name. -/
structure Lasting where
  time    : Tick
  debug   : Bool
  cellA   : BitVec 4096
  cellB   : BitVec 4096
  cellC   : BitVec 4096
  queue   : List Instr
  replies : List Tx
deriving DecidableEq, Repr

/-- LOCAL_TIME, DEBUG_OPENED, the fuse cells, the queue of waiting commands and the replies written. -/
def lasting (s : State) : Lasting :=
  { time := s.clk.localTime, debug := s.sec.debugOpened, cellA := s.fuses.cellA, cellB := s.fuses.cellB,
    cellC := s.fuses.cellC, queue := s.pending, replies := replyLog s }

/-- The two divider settings of each logical core. -/
def dividers (s : State) : List (Nat × Nat) := s.cores.map fun c => (c.ceiling, c.powerDiv)

/-- A divider of 12 R368: ÷4, ÷5, ÷6 or ÷8. -/
def legalDivider (d : Nat) : Bool := d == 4 || d == 5 || d == 6 || d == 8

/-- Eight logical cores, each with legal divider settings (01 R11, 12 R368). -/
abbrev legalCores (s : State) : Prop :=
  (dividers s).length = 8 ∧ ∀ d ∈ dividers s, legalDivider d.1 = true ∧ legalDivider d.2 = true

/-- No cell of a fuse bit that stood at 1 stands at 0. -/
abbrev onlyBlown (a b : BitVec 4096) : Prop := a &&& b = a

end Sys2Proof.Machine
end

