-- ==== Sys2Proof/Certificates/Slice0/Obligations.lean ====
section
/-! DEFINITION. Statements for the provers: what the commands do, by family, and what every command keeps. -/
open Sys2Proof Sys2Proof.Machine

/-! ### The step, the tick, the queue -/

/-- With a command at the front of its queue, a step is that command's effect on the state with the queue's rest. -/
def Obligations.StepRunsFrontCommand : Prop :=
  ∀ (c : Instr) (rest : List Instr) (s : State), s.pending = c :: rest → step s = exec c { s with pending := rest }

/-- With an empty queue a step is one tick: LOCAL_TIME counts it while SCLK runs and stands otherwise, and only the clock, the
bobbin store with the trace it feeds, the counters held for partition mode and the stretched cycles of the cores may change.
(The tick as a step is notes/assumptions 1.) -/
def Obligations.EmptyQueueTicks : Prop :=
  ∀ s : State, s.pending = [] → ∃ t : State, step s = .next t ∧
    t.clk = { s.clk with localTime := s.clk.localTime + bit s.clk.sclk } ∧ dividers t = dividers s ∧
    t.cores.map (·.halted) = s.cores.map (·.halted) ∧ replyLog t = replyLog s ∧
    { t with clk := s.clk, cores := s.cores, bob := s.bob, svc := s.svc, tx := s.tx, free := s.free } = s

/-! ### BAR0 -/

/-- A 64-bit DOORBELL write that names an ACTIVE ring and a tail below its size, and a REPLY_DOORBELL write that names a bound
queue and a head within its unread replies: the new slots become visible with the write's tick as their doorbell time, the
consumed replies are counted; nothing else changes. -/
def Obligations.DoorbellsTaken : Prop :=
  ∀ (v : BitVec 64) (s : State), reachable s = true →
    (∀ r : Ring, s.dev.state ≠ .booting → tget s.rings (bitsOf v.toNat 19 0) = some r → r.st = .active →
      bitsOf v.toNat 47 24 < 2 ^ r.sizeLog2 →
      let n := (bitsOf v.toNat 47 24 + 2 ^ r.sizeLog2 - r.visible % 2 ^ r.sizeLog2) % 2 ^ r.sizeLog2
      let stamps := r.stamps ++ [(r.visible + n, s.clk.localTime)]
      exec (.doorbellWrite true v) s = .next (if n = 0 then s else
        { s with
          rings := tset s.rings (bitsOf v.toNat 19 0)
            { r with visible := r.visible + n, pending := true,
                     stamps := if bitsOf v.toNat 19 0 ≠ 0 ∧ standbyLike s = true then mergeStamps stamps else stamps } })) ∧
    (∀ x : RQueue, tget s.queues (bitsOf v.toNat 10 0) = some x → bitsOf v.toNat 43 24 < 2 ^ x.sizeLog2 →
      (bitsOf v.toNat 43 24 + 2 ^ x.sizeLog2 - headIndex x) % 2 ^ x.sizeLog2 ≤ x.unread.length →
      exec (.replyDoorbellWrite true v) s = .next
        { s with
          queues := tset s.queues (bitsOf v.toNat 10 0)
            { x with unread := x.unread.drop ((bitsOf v.toNat 43 24 + 2 ^ x.sizeLog2 - headIndex x) % 2 ^ x.sizeLog2) } })

/-- The cause with which a DOORBELL write is ignored (02 Table 2-3), none where it is taken. -/
def doorbellCause (w64 : Bool) (v : BitVec 64) (s : State) : Option Nat :=
  if w64 = false then some 5
  else if s.dev.state = .booting then some 4
  else match tget s.rings (bitsOf v.toNat 19 0) with
    | none => some 1
    | some r => match r.st with
      | .error => some 3
      | .defunct | .destroying => some 1
      | .active => if bitsOf v.toNat 47 24 < 2 ^ r.sizeLog2 then none else some 2

/-- The cause with which a REPLY_DOORBELL write is ignored. -/
def replyDoorbellCause (w64 : Bool) (v : BitVec 64) (s : State) : Option Nat :=
  if w64 = false then some 5
  else match tget s.queues (bitsOf v.toNat 10 0) with
    | none => some 6
    | some x => if bitsOf v.toNat 43 24 < 2 ^ x.sizeLog2 ∧
        (bitsOf v.toNat 43 24 + 2 ^ x.sizeLog2 - headIndex x) % 2 ^ x.sizeLog2 ≤ x.unread.length then none else some 7

/-- An ignored doorbell counts in DOORBELL_DROPS, saturating, with its ring or queue number and its cause, and changes nothing
else. (That a 32-bit write in BOOTING counts with cause 5 is the model's reading, notes/assumptions 48.) -/
def Obligations.DoorbellsIgnored : Prop :=
  ∀ (w64 : Bool) (v : BitVec 64) (s : State), reachable s = true →
    (∀ k : Nat, doorbellCause w64 v s = some k → exec (.doorbellWrite w64 v) s = .next { s with bar :=
      { s.bar with dropCount := min (s.bar.dropCount + 1) 0xFFFFFFFF, dropRing := BitVec.ofNat 20 (bitsOf v.toNat 19 0),
                   dropCause := BitVec.ofNat 8 k } }) ∧
    (∀ k : Nat, replyDoorbellCause w64 v s = some k → exec (.replyDoorbellWrite w64 v) s = .next { s with bar :=
      { s.bar with dropCount := min (s.bar.dropCount + 1) 0xFFFFFFFF, dropRing := BitVec.ofNat 20 (bitsOf v.toNat 10 0),
                   dropCause := BitVec.ofNat 8 k } })

/-- ENABLE written as 1 with a size of 8 to 12 starts ring 0 afresh, binding queue 0 where it is not bound; outside that range
ENABLE stays 0; written as 0 it stops fetching from ring 0. ADMIN_RING_BASE and REPLY_AREA_BASE take bits [63:12] while ENABLE
is 0 and keep their values while it is 1. A write that is not naturally aligned is a fault, since the spec forbids it and gives
it no effect. SIZE_LOG2 written while ENABLE is 0 is kept, and HUB_STALL is cleared by writing 1 to it. -/
def Obligations.AdminRegisters : Prop :=
  ∀ (sz : BitVec 5) (d : BitVec 256) (v : BitVec 64) (s : State), reachable s = true →
    (s.bar.enable = false → s.dev.state ≠ .booting → 8 ≤ sz.toNat → sz.toNat ≤ 12 →
      (tget s.queues 0).isSome = true ∨ validDesc 0 d = true →
      exec (.adminRingEnable sz d) s = .next
      { s with
        bar := { s.bar with sizeLog2 := sz, enable := true },
        queues := if (tget s.queues 0).isSome then s.queues else tset s.queues 0 (queueOf d),
        rings := tset s.rings 0
          { st := .active, base := s.bar.adminBase.toNat, sizeLog2 := sz.toNat, cls := 0, tenant := none, account := 0,
            queue := 0, fast := false, headAddr := none, fetched := 0, visible := 0, pending := false, stamps := [],
            destroyers := [], partnerUpTo := 0 },
        reads := s.reads.filter fun r => r.ring != 0 }) ∧
    (s.bar.enable = false → (s.dev.state = .booting ∨ sz.toNat < 8 ∨ 12 < sz.toNat) →
      exec (.adminRingEnable sz d) s = .next { s with bar := { s.bar with sizeLog2 := sz } }) ∧
    (s.bar.enable = true → ∃ t : State, exec (.adminRingDisable sz) s = .next t ∧ t.bar = { s.bar with enable := false } ∧
      (∀ r ∈ t.reads, r.ring ≠ 0) ∧
      { t with bar := s.bar, reads := s.reads, queues := s.queues, rings := s.rings } = s) ∧
    (s.bar.enable = false → exec (.registerWrite 0x20 true v) s =
      .next { s with bar := { s.bar with adminBase := BitVec.ofNat 64 (v.toNat / 4096 * 4096) } }) ∧
    (s.bar.enable = false → exec (.registerWrite 0x30 true v) s =
      .next { s with bar := { s.bar with replyBase := BitVec.ofNat 64 (v.toNat / 4096 * 4096) } }) ∧
    (s.bar.enable = false → v.toNat.testBit 31 = false → exec (.registerWrite 0x28 true v) s =
      .next { s with bar := { s.bar with sizeLog2 := BitVec.ofNat 5 v.toNat } }) ∧
    exec (.registerWrite 0x40 true v) s = .next { s with sent := { s.sent with hubStall := s.sent.hubStall && !v.toNat.testBit 2 } } ∧
    (s.bar.enable = true → exec (.registerWrite 0x20 true v) s = .next s ∧ exec (.registerWrite 0x30 true v) s = .next s) ∧
    (∀ (off : BitVec 16) (w64 : Bool), off.toNat % (if w64 then 8 else 4) ≠ 0 →
      exec (.registerWrite off w64 v) s = .fault .misalignedAccess)

/-- A 64-bit read of LOCAL_TIME returns it and clears the shadow; a 32-bit read at 0x0058 returns its low half and latches the high
half of the same tick; one at 0x005C returns the shadow and clears it, or the live high half where none is held. -/
def Obligations.LocalTimeRead : Prop :=
  ∀ s : State, reachable s = true →
    let t := BitVec.ofNat 64 s.clk.localTime
    (∀ u : Bool, exec (.localTimeRead u true) s =
      .next { s with clk := { s.clk with shadow := none }, tx := s.tx ++ [.barRead t] }) ∧
    exec (.localTimeRead false false) s = .next
      { s with clk := { s.clk with shadow := some (t.extractLsb' 32 32) }, tx := s.tx ++ [.barRead ((t.extractLsb' 0 32).setWidth 64)] } ∧
    (∀ h : BitVec 32, s.clk.shadow = some h → exec (.localTimeRead true false) s =
      .next { s with clk := { s.clk with shadow := none }, tx := s.tx ++ [.barRead (h.setWidth 64)] }) ∧
    (s.clk.shadow = none → exec (.localTimeRead true false) s =
      .next { s with clk := { s.clk with shadow := none }, tx := s.tx ++ [.barRead ((t.extractLsb' 32 32).setWidth 64)] })

/-! ### Fetching -/

/-- A visit issues reads of the next ring's slots, at most 8, in ring order, each with its doorbell time, and reserves a place in the
ring's reply queue for each; a fetched packet that passes its checks is copied with its doorbell time under the next number; a
failed read puts the ring in ERROR and posts RING_ERROR; a failed read of a command's data ends it with INTEGRITY_MISMATCH;
ORDERED is let go when every earlier command of the ring has its final reply. -/
def Obligations.Fetching : Prop :=
  ∀ s : State,
    (∀ (kinds : Tbl (List Bool)) (n : Nat) (r : Ring), fetching s = true → nextRing s kinds = some (n, r) →
      let rs := readsFor s kinds n r
      rs.length ≤ 8 ∧ rs ≠ [] ∧
      (∀ (k : Nat) (x : SlotRead), rs[k]? = some x → x.ring = n ∧ x.order = r.fetched + readsOf s n + k ∧
        x.doorbell = stampAt r.stamps x.order s.clk.localTime) ∧
      exec (.ringFetchVisit kinds) s = .next { s with
        reads := s.reads ++ rs,
        served := if n = 0 then s.served else s.served.set r.cls n,
        queues := tmod s.queues r.queue fun q => { q with reserved := q.reserved + rs.length } }) ∧
    (∀ (n : Nat) (p : Packet) (o : BitVec 608) (rd : SlotRead) (r : Ring), s.reads.find? (fun x => x.ring = n) = some rd →
      tget s.rings n = some r → hubRuns s = true → ending s = false → fetchFault s n r p = none →
      ∀ p' : Packet, openParams s r p o = .inl p' → releaseLate s p' = false →
      ∃ (t : State) (c : Cmd), exec (.commandFetched n p o none) s = .next t ∧
      (∀ b : Blocks, exec (.commandFetched n p o (some b)) s =
        .next (if isReqOp (opcodeOf p') then admitRequest s.nextCid b t else t)) ∧
      tget t.cmds s.nextCid = some c ∧ c.pkt = p' ∧ c.ring = n ∧ c.doorbell = rd.doorbell ∧ c.tenant = r.tenant ∧
      c.queue = r.queue ∧ (c.phase = .ready ∨ c.phase = .ordered) ∧ t.nextCid = s.nextCid + 1 ∧ t.reads = s.reads.erase rd ∧
      tget t.rings n = some (ringFetched r) ∧
      { t with cmds := s.cmds, nextCid := s.nextCid, reads := s.reads, rings := s.rings, streams := s.streams, apps := s.apps,
               pair := s.pair, tx := s.tx, free := s.free } = s) ∧
    (∀ (n : Nat) (rd : SlotRead) (r : Ring), s.reads.find? (fun x => x.ring = n) = some rd → tget s.rings n = some r →
      r.st = .active → exec (.fetchReadFailed n) s = .next (postEvent 2 n (rd.order % 2 ^ r.sizeLog2) 0 .done
        { releaseReads n s with rings := tset s.rings n { r with st := .error, pending := false } })) ∧
    (∀ (cid : Nat) (c : Cmd), tget s.cmds cid = some c → c.phase ≠ .replied →
      exec (.pcieReadError (.cmd cid)) s = .next (refuse cid .integrityMismatch 0x00010003 (dropWork cid s))) ∧
    (∀ slot : Nat, exec (.pcieReadError (.req slot)) s = .next (endReq slot .integrityMismatch 0x00010003 s)) ∧
    (∀ (cid : Nat) (c : Cmd), hubRuns s = true → tget s.cmds cid = some c → c.phase = .ordered → earlierDone s c.ring cid = true →
      exec (.orderedRelease cid) s = .next { s with cmds := tset s.cmds cid { c with phase := .ready } })

/-! ### Final replies -/

/-- How a command other than a request ends: its final reply becomes a candidate at the arbiter with the command's TAG and SEQ;
for a pair-applied command of an active module, once its SETUP record has been sent, it waits for the report of the partner; on
a module that applies its partner's command it waits to be reported. -/
def Obligations.FinalReplyCandidates : Prop :=
  ∀ (cid : Nat) (st : Status) (d : Nat) (v : BitVec 64) (fl : BitVec 16) (act : OnAccept) (s : State) (c : Cmd),
    tget s.cmds cid = some c →
    let k : Cand := { target := .cmd cid, gen := 0, queue := c.queue, tag := tagOf c.pkt, seqNo := seqOf c.pkt, status := st,
                      flags := fl ||| takenFlag c.partner, detail := d, value := v, tick := arrival s c.queue, sweep := false,
                      act := act }
    let cmds := tset s.cmds cid { c with phase := .replied }
    (c.given = none → (mirroring s && pairApplied (opcodeOf c.pkt)) = false →
      finish cid st d v fl act s = { s with cmds := cmds, arb := { s.arb with cands := s.arb.cands ++ [k] } }) ∧
    (c.given.isSome = true →
      finish cid st d v fl act s = { s with cmds := cmds, pair := { s.pair with awaiting := s.pair.awaiting ++ [(cid, k)] } }) ∧
    (c.given = none → (mirroring s && pairApplied (opcodeOf c.pkt)) = true → ∃ r : Record,
      r.commitSeq = s.pair.commitSeq + 1 ∧ r.body = .setup c.pkt 0 st d v true ∧
      (finish cid st d v fl act s).tx = s.tx ++ [.record s.pair.recordsSent r] ∧ (finish cid st d v fl act s).arb = s.arb ∧
      (finish cid st d v fl act s).cmds = cmds ∧
      (finish cid st d v fl act s).pair.awaiting = s.pair.awaiting ++ [(cid, k)])

/-- The arbiter accepts, for a queue, one candidate per tick: with Bus Master Enable at 1 a reply is written into the queue's next
slot and the tail word counts it. Events go into queue 0 in the order posted, while no reply to a command waits for it. The
events held back move to the free event slots in order; those that find none stay; once all have moved, EVENTS_LOST with the
number discarded comes behind them where a slot is left. (Reserved bits of a reply are free values, 00 R6.) -/
def Obligations.RepliesAccepted : Prop :=
  ∀ (q : Nat) (x : RQueue) (s : State), tget s.queues q = some x →
    (hubOn s = true → looped s 0 0 = false → x.lastTick ≠ some s.clk.localTime → s.link.busMaster = true →
      (∀ (c d : Cand) (cid : Nat), s.arb.cands.find? (fun e => e.queue = q) = some c → d = bestOf c (rivals c s.arb.cands) →
        d.target = .cmd cid → d.queue = q → (tget s.cmds cid).isSome = true → ∃ t : State, exec (.replyAccept q) s = .next t ∧
        replyLog t = replyLog s ++ [.reply q (x.tail % 2 ^ x.sizeLog2) (withReserved q x.tail
          (replyBits d.tag d.seqNo d.status d.flags d.detail d.value s.clk.localTime)), .tailWord x.tailAddr (x.tail + 1)]) ∧
      (∀ (e : Event) (rest : List Event), q = 0 → s.arb.cands.find? (fun e => e.queue = 0) = none → s.arb.events = e :: rest →
        ∃ t : State, exec (.replyAccept 0) s = .next t ∧ t.arb = { s.arb with events := rest } ∧
        replyLog t = replyLog s ++ [.reply 0 (x.tail % 2 ^ x.sizeLog2) (withReserved 0 x.tail (eventBits e s.clk.localTime)),
            .tailWord x.tailAddr (x.tail + 1)])) ∧
    (q = 0 → ∃ t : State, exec .eventBacklogDrain s = .next t ∧
      (s.arb.events ++ s.arb.backlog.take (64 - eventsHeld s) <+: t.arb.events) ∧ t.arb.cands = s.arb.cands ∧
      (64 - eventsHeld s < s.arb.backlog.length → s.health.bits.getLsbD 11 = true → t = { s with arb := { s.arb with
        events := s.arb.events ++ s.arb.backlog.take (64 - eventsHeld s), backlog := s.arb.backlog.drop (64 - eventsHeld s) } }) ∧
      (s.arb.backlog.length < 64 - eventsHeld s → s.arb.lost ≠ 0 →
        (s.arb.events ++ s.arb.backlog ++
          [{ code := 0xFF, object := 0, status := .done, detail := 0, value := BitVec.ofNat 64 s.arb.lost }] <+: t.arb.events)) ∧
      { t with arb := s.arb, health := s.health } = s)

/-- When several candidates for one handle reached the arbiter in the same tick it accepts the first in the order of 03 Table 3-8:
with Bus Master Enable at 1 that candidate's reply is the one written, and no candidate for the handle is left. -/
def Obligations.OneFinalReply : Prop :=
  ∀ (q : Nat) (x : RQueue) (c d : Cand) (s : State), tget s.queues q = some x → hubOn s = true → looped s 0 0 = false →
    x.lastTick ≠ some s.clk.localTime → s.arb.cands.find? (fun e => e.queue = q) = some c →
    d = bestOf c (rivals c s.arb.cands) →
    sameTarget c d = true ∧ d ∈ s.arb.cands ∧ (∀ e ∈ rivals c s.arb.cands, candRank d.status ≤ candRank e.status) ∧
    (∀ e ∈ s.arb.cands, sameTarget c e = true → e.tick = c.tick → e ∈ rivals c s.arb.cands) ∧
    ∀ slot : Nat, c.target = .req slot → ∃ t : State, exec (.replyAccept q) s = .next t ∧
      (∀ e ∈ t.arb.cands, sameTarget c e = false) ∧
      (s.link.busMaster = true → d.queue = q → replyLog t = replyLog s ++ [.reply q (x.tail % 2 ^ x.sizeLog2)
        (withReserved q x.tail (replyBits d.tag d.seqNo d.status d.flags d.detail d.value s.clk.localTime)), .tailWord x.tailAddr (x.tail + 1)])

/-! ### Requests -/

/-- A request in ADMITTED whose conditions of 03 Table 3-3 hold is QUEUED, with its pages reserved; a QUEUED one is dispatched to the
first of its sets of cores that is free for it, and RUNNING; one whose REQUEST pricking is malformed ends with
INTEGRITY_MISMATCH and 0x8000 plus the offset; BULK work that the active places on the standby's cores is RUNNING on none of its
own, and RUNNING there; a PREEMPTED one runs again on its cores once none runs on them and no request of a higher class waits. -/
def Obligations.RequestsScheduled : Prop :=
  ∀ (slot : Nat) (r : Req) (p : Pattern) (s : State), tget s.reqs slot = some r → tget s.pats r.pattern = some p →
    (r.st = .admitted → canLeaveAdmitted s slot r = true → ∃ t : State, exec (.requestReady slot) s = .next t ∧
      tget t.reqs slot = some { r with st := .queued } ∧
      t.pages = (allocPages 1 r.tenant (needPages s slot r 1) (allocPages 0 r.tenant (needPages s slot r 0) s)).pages ∧
      (∀ k : Nat, k ≠ slot → ∀ q : Req, tget s.reqs k = some q →
        tget t.reqs k = some q ∨ tget t.reqs k = some { q with st := .preempted }) ∧
      { t with reqs := s.reqs, pages := s.pages, svc := s.svc, pair := s.pair, tx := s.tx, free := s.free } = s) ∧
    (∀ (l : List Nat) (pricks : List (Nat × Nat)), r.st = .queued → dispatchable s r = true → coresPowered s = true →
      inFlight s < 1024 → s.pair.role ≠ .standby →
      (coreSets s p).find? (fun l => setFree s r.cls l && !outranked s l r) = some l →
      let q : Req := { r with cores := l, baseLen := committedOf s r, used := r.used + unitTokens p, ran := true,
                              table := tablePath s p, empties := 0, st := .running }
      ((∀ e ∈ reqPricks p pricks, prickOk e.2.1 e.2.2 = true) → ∃ t : State, exec (.requestDispatch slot pricks false) s = .next t ∧
        tget t.reqs slot = some q ∧ (∀ k : Nat, k ≠ slot → tget t.reqs k = tget s.reqs k) ∧
        { t with reqs := s.reqs, pages := s.pages, cores := s.cores, halves := s.halves, stages := s.stages, mem := s.mem,
                 svc := s.svc, pair := s.pair, tx := s.tx, free := s.free } = s) ∧
      (∀ e : (AttnLayer × Nat) × Nat × Nat, (reqPricks p pricks).find? (fun e => !prickOk e.2.1 e.2.2) = some e →
        r.final = none → leftToPartner s r.mirror = false → ∃ (t : State) (k : Cand),
        exec (.requestDispatch slot pricks false) s = .next t ∧ tget t.reqs slot = some { q with stopped := true } ∧
        t.arb = { s.arb with cands := s.arb.cands ++ [k] } ∧ k.target = .req slot ∧ k.status = .integrityMismatch ∧
        k.detail = 0x8000 + e.1.1.offset)) ∧
    (∀ pricks : List (Nat × Nat), dispatchable s r = true → lendable s r = true →
      (s.pair.role = .active → serving s = true → s.pair.switching = none → hubRuns s = true → inFlight s < 1024 → ∃ t : State,
        exec (.requestDispatch slot pricks true) s = .next t ∧
        tget t.reqs slot = some { r with cores := [], lent := true, baseLen := committedOf s r, used := r.used + unitTokens p,
                                         ran := true, table := false, empties := 0, st := .running } ∧
        { t with reqs := s.reqs, svc := s.svc, pair := s.pair, tx := s.tx, free := s.free } = s)) ∧
    (∀ (l : List Nat) (pricks : List (Nat × Nat)), s.pair.role = .standby → r.st = .admitted → lendable s r = true →
      coresPowered s = true → p.sram = true → p.leaving = false → halvesClear s p = true → pagesRoom s slot r = true →
      (coreSets s p).find? (setFree s r.cls) = some l → (∀ e ∈ reqPricks p pricks, prickOk e.2.1 e.2.2 = true) → ∃ t : State,
        exec (.requestDispatch slot pricks true) s = .next t ∧
        tget t.reqs slot = some { r with cores := l, lent := true, st := .running, baseLen := committedOf s r,
                                         table := tablePath s p, empties := 0 } ∧
        { t with reqs := s.reqs, pages := s.pages, cores := s.cores, halves := s.halves } = s) ∧
    (r.st = .preempted → r.stopped = false → setServes s r.cores = true → coresPowered s = true → occupants s r.cores = [] →
      higherWaits s r = false → ∃ t : State, exec (.requestResume slot) s = .next t ∧
      tget t.reqs slot = some { r with st := .running } ∧
      { t with reqs := s.reqs, svc := s.svc, pair := s.pair, tx := s.tx, free := s.free } = s)

/-- After what its units do, a deeper hem of the current run becomes the request's deepest one and is written into the sentinel's entry;
a verify pass ends in VERIFYING, a GREEDY one with the path and bonus token its rows give; a full result whose input has passed
its checks becomes a candidate with status DONE and its output is in host memory; an input that passes its check lets a result
go, one that fails ends the request with INTEGRITY_MISMATCH. Bytes that a core of the request stores are there afterwards, every
other byte of that core's store is as it was, and the store keeps its canonical form. (The units' operations are operands,
notes/assumptions 109.) -/
def Obligations.RequestResults : Prop :=
  ∀ (slot : Nat) (r : Req) (p : Pattern) (s : State),
    (∀ (n : Nat) (ops : List (List UnitOp)) (e : SEntry) (u : State), u = runUnits slot ops s → tget u.reqs slot = some r →
      tget u.pats r.pattern = some p → r.st = .running → r.stopped = false → holdsCopy u = false → r.hemPolicy ≠ 0 →
      r.deepest < n → n ≤ hemCount p → coresClocked u = true → tget u.sent.entries slot = some e →
      exec (.hemComplete slot n ops) s = .next { u with
        reqs := tset u.reqs slot { r with deepest := n, used := r.used + hemTokens p },
        sent := { u.sent with entries := tset u.sent.entries slot { e with deepest := max e.deepest n } } }) ∧
    (∀ (hem k addr n data : Nat), tget s.reqs slot = some r → tget s.pats r.pattern = some p → coresClocked s = true →
      occupies r = true → r.stopped = false → tenantActive s r.tenant = true → r.cores.contains k = true → k < s.cores.length →
      (coreOf s k).halted = none → addr + n ≤ 64 * 2 ^ 20 → ∃ t : State,
      exec (.hemComplete slot hem [[.hostRead k (.core k addr) n data]]) s = .next t ∧
      (∀ j : Nat, byteAt (coreOf t k).store j = if addr ≤ j ∧ j < addr + n then BitVec.ofNat 8 (data >>> (8 * (j - addr)))
        else byteAt (coreOf s k).store j) ∧
      (∀ j : Nat, j ≠ k → coreOf t j = coreOf s j) ∧ t.mem = s.mem ∧ t.halves = s.halves ∧ t.pages = s.pages ∧
      (bytesWf (coreOf s k).store = true → bytesWf (coreOf t k).store = true)) ∧
    (∀ (rows : List (List (BitVec 32))) (ops : List (List UnitOp)) (v : Verify) (u : State), u = runUnits slot ops s →
      tget u.reqs slot = some r → r.verify = some v → r.st = .running → r.stopped = false → holdsCopy u = false →
      coresClocked u = true → ∃ t : State, exec (.verifyPassComplete slot rows ops) s = .next t ∧
      tget t.reqs slot = some { r with st := .verifying, verify := some (if v.greedy then
        { v with
          path := (acceptFrom v.parents v.tokens rows 64 0xFF).1, bonus := (acceptFrom v.parents v.tokens rows 64 0xFF).2,
          rows := rows }
        else { v with rows := rows }) } ∧
      { t with reqs := u.reqs, pair := u.pair, tx := u.tx, free := u.free } = u) ∧
    (∀ (w : WorkResult) (q : Req) (u : State), u = runUnits slot w.ops s → tget u.reqs slot = some r →
      tget u.pats r.pattern = some p → q = (if r.lent then { r with empties := w.empties } else r) →
      q.st = (if q.verify.isSome then .verifying else .running) → q.stopped = false → q.result = none → q.inOk = true →
      q.final = none → coresClocked u = true → holdsCopy u = false → tenantActive u q.tenant = true → sealedOut q = false →
      (q.mirror && mirroring u) = false → leftToPartner u q.mirror = false → ∃ (t : State) (k : Cand),
      exec (.requestWorkComplete slot w) s = .next t ∧
      t.arb = { u.arb with cands := u.arb.cands ++ [k] } ∧ k.target = .req slot ∧ k.gen = q.gen ∧ k.queue = q.queue ∧
      k.tag = q.tag ∧ k.seqNo = q.seqNo ∧ k.status = .done ∧ k.detail = doneDetail u q p w ∧ k.value = doneValue u slot q ∧
      (u.link.busMaster = true → Tx.host q.outAddr (outputBytes u q p w false).1
        ((outputBytes u q p w false).2 % 2 ^ (8 * (outputBytes u q p w false).1)) ∈ t.tx) ∧
      { t with arb := u.arb, reqs := u.reqs, tx := u.tx, free := u.free } = u) ∧
    (∀ (crc : BitVec 32) (g : Nat) (ok : Bool), tget s.reqs slot = some r → liveState r.st = true → r.inOk = false →
      sealedOut r = false → r.result = none → holdsCopy s = false → hubRuns s = true →
      (r.bufFlags.getLsbD 1 = true → crc = r.inCrc → exec (.inCrcCheck slot crc g ok) s =
        .next { s with reqs := tset s.reqs slot { r with inOk := true } }) ∧
      (r.bufFlags.getLsbD 1 = true → crc ≠ r.inCrc → exec (.inCrcCheck slot crc g ok) s =
        .next (endReq slot .integrityMismatch 0x800C { s with reqs := tset s.reqs slot { r with stopped := true } })))

/-- From its fallback tick on, and not before, a watched request gets a DEADLINE_FALLBACK candidate with cause 1 and the deepest hem
of the sentinel's entry; from its cut-off on a request under a hem policy stops, and its deepest qualifying hem, if any, becomes
its result, whose output is in host memory. A sweep that is over is followed by what it was for. -/
def Obligations.Fallbacks : Prop :=
  ∀ (slot : Nat) (e : SEntry) (s : State), tget s.sent.entries slot = some e →
    (∀ (f : Tick) (r : Req), e.fallback = some f → sentinelRuns s = true → armedEntry e = true → f ≤ s.clk.localTime →
      tget s.reqs slot = some r → r.gen = e.gen → r.final = none → leftToPartner s r.mirror = false →
      ∃ k : Cand, exec (.fallbackTick slot) s = .next { s with arb := { s.arb with cands := s.arb.cands ++ [k] } } ∧
      k.status = .deadlineFallback ∧ k.detail = 1 + e.deepest * 256 ∧ k.tag = e.tag ∧ k.seqNo = e.seqNo ∧
      k.queue = e.queue ∧ k.target = .req slot) ∧
    (∀ f : Tick, e.fallback = some f → s.clk.localTime < f → exec (.fallbackTick slot) s = .next s) ∧
    (∀ (r : Req) (p : Pattern) (c : Tick) (w : WorkResult), tget s.reqs slot = some r →
      tget s.pats r.pattern = some p → e.cutoff = some c → c ≤ s.clk.localTime → armedEntry e = true → r.hemPolicy ≠ 0 →
      liveState r.st = true → r.stopped = false → r.result = none → hubRuns s = true →
      ((qualifies r && inFlightState r.st) = false ∨ tenantActive s r.tenant = false → exec (.hemCutoff slot w) s =
        .next { s with reqs := tset s.reqs slot { r with stopped := true } }) ∧
      ((qualifies r && inFlightState r.st) = true → tenantActive s r.tenant = true → sealedOut r = false →
        ∃ (t : State) (q : Req), exec (.hemCutoff slot w) s = .next t ∧ tget t.reqs slot = some q ∧ q.stopped = true ∧
        q.result = some (.doneAtHem, r.deepest, reqValue s slot r, resultFlags r true) ∧
        (s.link.busMaster = true → Tx.host r.outAddr (outputBytes s r p w true).1
          ((outputBytes s r p w true).2 % 2 ^ (8 * (outputBytes s r p w true).1)) ∈ t.tx))) ∧
    (∀ a : AfterSweep, s.sent.sweep = some a → sweepDone s = true →
      let s' : State := { s with sent := { s.sent with sweep := none } }
      exec .sweepComplete s = .next (match a with
        | .nothing => s'
        | .resetModule source => moduleReset source s'
        | .cutHub => { s' with dev := { s'.dev with on := false }, link := { s'.link with up := false } }))

/-- A REPLIED request whose units have stopped is RETIRING; where it was cut short, USED then counts the positions and tokens that ran,
each once; a RETIRING one is reconciled against its account, after any refill that is due, and FREE, and its slot's generation
advances, from 65,535 to 1 and never to 0. -/
def Obligations.RequestsRetired : Prop :=
  ∀ (slot : Nat) (r : Req) (s : State), tget s.reqs slot = some r → holdsCopy s = false → hubRuns s = true →
    (∀ ran : Nat, r.st = .replied → ∃ t : State, exec (.requestUnitsStopped slot ran) s = .next t ∧
      tget t.reqs slot = some (if r.ran = false ∨ r.result.map (·.1) = some .done then { r with st := .retiring }
        else { r with
          st := .retiring, used := r.used + (min ran (countable r) - r.counted), counted := max (min ran (countable r)) r.counted }) ∧
      { t with reqs := s.reqs, pair := s.pair, tx := s.tx, free := s.free } = s) ∧
    (r.st = .retiring → admittedThisTick s r.account = false → ∃ t : State, exec (.requestRetired slot) s = .next t ∧
      tget t.reqs slot = none ∧
      tget t.reqGens slot = some (if r.gen = 65535 then 1 else r.gen + 1) ∧ tget t.sent.entries slot = none ∧
      t.accts = tmod (budgetRefill r.account s).accts r.account (fun a => { a with balance := reconcile a r.charged r.used }))

/-- Once a window of an account has started, a staged change is in effect, the window is the latest that has started, and the balance
has grown by REFILL for each, not above CAP; before it nothing happens. At a slice the rotating patterns that are not chosen leave
their SRAM, and those chosen that hold it stay; where no slicing is needed none leaves. A pattern that leaves releases its SRAM
when its last request has left. -/
def Obligations.WindowsAndSlices : Prop :=
  ∀ s : State,
    (∀ (i : Nat) (a : Account), tget s.accts i = some a →
      (a.window + a.fig.windowMs * 100000 ≤ s.clk.localTime → ∃ (t : State) (n : Nat), exec (.budgetRefill i) s = .next t ∧
        let f := a.pending.getD a.fig
        let w := a.window + a.fig.windowMs * 100000 + n * (f.windowMs * 100000)
        w ≤ s.clk.localTime ∧ (f.windowMs ≠ 0 → s.clk.localTime < w + f.windowMs * 100000) ∧
        t.accts = tset s.accts i { a with
          fig := f, pending := none, window := w, balance := min (min (a.balance + f.refill) f.cap + n * f.refill) f.cap } ∧
        { t with accts := s.accts, pair := s.pair, tx := s.tx, free := s.free } = s) ∧
      (s.clk.localTime < a.window + a.fig.windowMs * 100000 → exec (.budgetRefill i) s = .next s)) ∧
    (∀ t0 : Tick, s.sliceAt = some t0 → t0 < s.clk.localTime →
      ((s.clk.localTime - t0) % (s.cfg.live.slice * 100000) = 0 → ∃ t : State, exec .sliceStart s = .next t ∧
        (∀ (k : Nat) (p : Pattern), tget s.pats k = some p → rotating p = true → ∃ q : Pattern, tget t.pats k = some q ∧
          (mustSlice s = true → (chosen s (patsWith s pinning) (ranking s)).contains k = false →
            q.sram = p.sram ∧ q.leaving = p.sram ∧ q.want = none) ∧
          (mustSlice s = true → (chosen s (patsWith s pinning) (ranking s)).contains k = true → p.sram = true →
            q.sram = true ∧ q.leaving = false ∧ q.want = none) ∧
          (mustSlice s = false → q.leaving = false ∧ (p.sram = true → q.sram = true))) ∧
        t.sliceAt = (if mustSlice s then some t0 else none) ∧
        { t with pats := s.pats, halves := s.halves, sliceAt := s.sliceAt } = s) ∧
      ((s.clk.localTime - t0) % (s.cfg.live.slice * 100000) ≠ 0 → exec .sliceStart s = .next s)) ∧
    (∀ (i : Nat) (p : Pattern), tget s.pats i = some p → p.leaving = true →
      (patBusy s i = false → p.want = none → ∃ (t : State) (q : Pattern), exec (.patternSramRelease i) s = .next t ∧
        tget t.pats i = some q ∧ q.sram = false ∧ q.leaving = false ∧
        (∀ (k : Nat) (x : Pattern), k ≠ i → tget s.pats k = some x → x.sram = true →
          (tget t.pats k).map (·.sram) = some true) ∧
        { t with pats := s.pats, halves := s.halves } = s) ∧
      (patBusy s i = true → exec (.patternSramRelease i) s = .next s))

/-! ### Admission and the commands on requests and sequences -/

/-- The opcode of the four commands that create requests. -/
def admits (op cid : Nat) (b : Blocks) : Option Instr :=
  if op = 0x0201 then some (.reqSubmit cid b) else if op = 0x0202 then some (.reqAppend cid b)
  else if op = 0x0203 then some (.reqVerify cid b) else if op = 0x0208 then some (.adaptStep cid b) else none

/-- REQ_SUBMIT, REQ_APPEND, REQ_VERIFY and ADAPT_STEP: a request that is first of its ring and passes every admission check is in
ADMITTED, in the lowest free slot under that slot's generation, with its estimate charged to the account of its ring after any
refill that is due, its deadline counted from its doorbell, and an armed entry of the sentinel whose fallback tick lies the guard
before the deadline. (The slot is notes/assumptions 12.) -/
def Obligations.RequestsAdmitted : Prop :=
  ∀ (op cid : Nat) (b : Blocks) (i : Instr) (c : Cmd) (r : Ring) (pi : Nat) (p : Pattern) (io tree : Nat) (s : State),
    admits op cid b = some i → begins s cid op = some c → tget s.rings c.ring = some r → stopping s = false →
    heldUnbound s = false → firstUnadmitted s cid c.ring = true → namesPicked s c r b = false →
    admitCheck (budgetRefill r.account s) c r b = .inl (pi, p, io, tree) →
    ∃ (t : State) (q : Req) (e : SEntry), exec i s = .next t ∧ t.reqs = tset s.reqs (freeSlot s) q ∧
      q.st = .admitted ∧ q.gen = tgetD s.reqGens (freeSlot s) 1 ∧ q.opcode = op ∧ q.pattern = pi ∧ q.cls = r.cls ∧
      q.tenant = r.tenant.getD 0 ∧ q.charged = le c.pkt 36 4 ∧ q.doorbell = c.doorbell ∧
      q.deadline = (if le c.pkt 24 4 = 0 then none else some (c.doorbell + le c.pkt 24 4)) ∧ q.guard = s.cfg.live.guard ∧
      q.final = none ∧ q.result = none ∧ q.number = s.nextReq ∧ t.nextReq = s.nextReq + 1 ∧ t.cmds = tdel s.cmds cid ∧
      t.accts = tmod (budgetRefill r.account s).accts r.account
        (fun a => { a with balance := a.balance - le c.pkt 36 4, lastAdmit := some s.clk.localTime }) ∧
      t.sent = { s.sent with entries := tset s.sent.entries (freeSlot s) e } ∧ e.armed = true ∧ e.final = false ∧
      e.fallback = q.deadline.map (· - s.cfg.live.guard) ∧ e.cutoff = q.deadline.map (· - s.cfg.live.guard - hemLead p) ∧
      { t with reqs := s.reqs, nextReq := s.nextReq, cmds := s.cmds, accts := s.accts, sent := s.sent, seqs := s.seqs,
               apps := s.apps, pats := s.pats, halves := s.halves, sliceAt := s.sliceAt, streams := s.streams, pair := s.pair,
               tx := s.tx, free := s.free } = s

/-- The four commands that create requests: one that is first of its ring and fails an admission check gets that check's status, DETAIL
and VALUE as its final reply, and leaves the request table, the sequences and the sentinel as they were, and the accounts but for
a refill that was due. -/
def Obligations.RequestsRefused : Prop :=
  ∀ (op cid : Nat) (b : Blocks) (i : Instr) (c : Cmd) (r : Ring) (st : Status) (d : Nat) (v : BitVec 64) (s : State),
    admits op cid b = some i → begins s cid op = some c → tget s.rings c.ring = some r → stopping s = false →
    heldUnbound s = false → firstUnadmitted s cid c.ring = true → namesPicked s c r b = false →
    admitCheck (budgetRefill r.account s) c r b = .inr (st, d, v) →
    ∃ t : State, t = finish cid st d v 0 .none (budgetRefill r.account s) ∧ exec i s = .next t ∧
      t.reqs = s.reqs ∧ t.accts = (budgetRefill r.account s).accts ∧ t.seqs = s.seqs ∧ t.sent = s.sent

/-- REQ_COMMIT of an own sequence in AWAITING_COMMIT waits for the producing request; once that is FREE the path to LEAF commits and
the sequence is OPEN; REQ_CANCEL puts a CANCELLED candidate for each match without a final reply; REQ_QUERY writes the earliest
match's entry, with USED as it stands, and answers how many match; SEQ_CLOSE closes a sequence, and its entry is freed, its generation advanced, once no
request of it is left. -/
def Obligations.SequenceCommands : Prop :=
  ∀ (cid : Nat) (c : Cmd) (s : State),
    (∀ (i : Nat) (q : Sequence) (pr : Provisional), Ready s cid 0x0204 c → ownSeq s c = some (i, q) →
      q.st = .awaitingCommit → q.prov = some pr → (le c.pkt 24 1 = 0xFF ∨ le c.pkt 24 1 < pr.parents.length) →
      exec (.reqCommit cid) s = .next { s with
        cmds := tset s.cmds cid { c with phase := .begun, since := s.clk.localTime, aux := [i, pr.slot, pr.gen] } }) ∧
    (∀ (i : Nat) (q : Sequence) (pr : Provisional), Begun s cid 0x0204 c → c.aux = [i, pr.slot, pr.gen] →
      producerFree s pr.slot pr.gen = true → ownSeq s c = some (i, q) → q.st = .awaitingCommit → q.prov = some pr →
      ∃ (t : State) (f : Nat), exec (.reqCommitWaitEnd cid) s = .next t ∧
        tget t.seqs i = some { q with
          st := .open, prov := none, freed := q.freed + f,
          committed := pr.base + (pathTo pr.parents 64 (le c.pkt 24 1)).length }) ∧
    (Ready s cid 0x0205 c → ringForeign s c = false → ∃ t : State, exec (.reqCancel cid) s = .next t ∧ t.reqs = s.reqs ∧
      (∀ e ∈ matching s c, e.2.final = none → tget s.reqs e.1 = some e.2 → leftToPartner s e.2.mirror = false →
        ∃ k ∈ t.arb.cands, k.target = .req e.1 ∧ k.gen = e.2.gen ∧ k.status = .cancelled ∧ k.detail = 3) ∧
      (matching s c = [] → t = settleCancels (begun cid [0, 0] s))) ∧
    (∀ (slot : Nat) (r r' : Req), Ready s cid 0x0206 c → ringForeign s c = false → earliest (matching s c) = some (slot, r) →
      tget s.reqs slot = some r → tget (countSoFar slot s).reqs slot = some r' → r'.gen = r.gen ∧
      exec (.reqQuery cid) s = .next (done cid (matching s c).length (BitVec.ofNat 64 (slot + r.gen * 65536))
        (useSpares 3 (writeFields (le c.pkt 32 8) (entryFields (countSoFar slot s) slot r') (countSoFar slot s))))) ∧
    (Ready s cid 0x0206 c → ringForeign s c = false → matching s c = [] → exec (.reqQuery cid) s = .next (done cid 0 0 s)) ∧
    (∀ (i : Nat) (q : Sequence), Ready s cid 0x0207 c → ownSeq s c = some (i, q) → q.st ≠ .closing →
      ∃ t : State, exec (.seqClose cid) s = .next t ∧
        tget t.seqs i = some { q with st := .closing, prov := none, closer := some cid, freed := 0 } ∧ t.pages = s.pages ∧
        t.reqs = s.reqs) ∧
    (∀ (i k : Nat) (q : Sequence), tget s.seqs i = some q → q.st = .closing → q.closer = some k → seqReqs s i = [] →
      ∃ t : State, exec (.seqCloseComplete i) s = .next t ∧ tget t.seqs i = none ∧
        tget t.seqGens i = some (if q.gen = 16383 then 1 else q.gen + 1) ∧
        ∀ e ∈ t.pages, (seqKv i e.2.use || seqList i e.2.use) = false)

/-! ### Admin commands -/

/-- NOP replies DONE with the LOCAL_TIME at which it ran. -/
def Obligations.NopRepliesTime : Prop :=
  ∀ (cid : Nat) (c : Cmd) (s : State), Ready s cid 0x0001 c →
    exec (.nop cid) s = .next (finish cid .done 0 (BitVec.ofNat 64 s.clk.localTime) 0 .none s)

/-- IDENTIFY and GET_HEALTH write their records and answer FW_VERSION and HEALTH_SUMMARY; SET_CONFIG stages a value; CONFIG_COMMIT
writes three equal copies with the staged values over the stored ones, erases the previous ones and empties the stage, and when
its reply is accepted the configuration is what the stored copies hold. -/
def Obligations.Information : Prop :=
  ∀ (cid : Nat) (c : Cmd) (s : State),
    (Ready s cid 0x0002 c → exec (.identify cid) s = .next (done cid 0 (BitVec.ofNat 64 (fwVersion s))
      (useSpares 1 (writeFields (le c.pkt 24 8) (identity s) s)))) ∧
    (Ready s cid 0x0003 c → exec (.getHealth cid) s = .next (finish cid .done 0 (s.health.bits.setWidth 64) (coarsened s)
      .none (useSpares 6 (writeFields (le c.pkt 24 8) (healthRecord s c.tenant) s)))) ∧
    (Ready s cid 0x0004 c → exec (.setConfig cid) s = .next (done cid 0 0
      { s with cfg := { s.cfg with staged := tset s.cfg.staged (le c.pkt 20 2) (le c.pkt 24 8) } })) ∧
    (Ready s cid 0x0005 c → exec (.configCommit cid) s = .next (finish cid .done 0 0 0 .applyConfig
      { s with nor := { s.nor with copies := [committedCopy s, committedCopy s, committedCopy s],
                                   previous := [.blank, .blank, .blank] }, cfg := { s.cfg with staged := [] } })) ∧
    (∀ items : Tbl Nat, ∀ n : Nat, s.nor.copies.head? = some (.valid s.dev.format n items) →
      committedCopy s = .valid s.dev.format ((n + 1) % 2 ^ 64) (withStaged items s.cfg.staged)) ∧
    (∀ (q : Nat) (x : RQueue) (k : Cand) (f n : Nat) (items : Tbl Nat), tget s.queues q = some x → hubOn s = true →
      looped s 0 0 = false → x.lastTick ≠ some s.clk.localTime → s.arb.cands.find? (fun e => e.queue = q) = some k →
      bestOf k (rivals k s.arb.cands) = k → k.target = .cmd cid → tget s.cmds cid = some c → k.act = .applyConfig →
      s.nor.copies.head? = some (.valid f n items) → ∃ t : State, exec (.replyAccept q) s = .next t ∧
      t.cfg.live = cfgOfItems items)

/-- RING_CREATE of a FREE ring makes it ACTIVE as its packet says, binding its queue where it is not bound; RING_DESTROY stops its
fetching at once; once every command fetched from it has its final reply the ring is FREE and each RING_DESTROY replies DONE;
ACCOUNT_SET sets a new account with its first window's balance, stages a change of one, or deletes one that no ring names. -/
def Obligations.RingsAndAccounts : Prop :=
  ∀ (cid : Nat) (c : Cmd) (s : State),
    (∀ d : BitVec 256, Ready s cid 0x0006 c → ringFaults c s = [] → tget s.rings (le c.pkt 20 4) = none →
      ((tget s.accts (ringOf c.pkt).account).map (·.tenant)) = (ringOf c.pkt).tenant →
      ((ringOf c.pkt).fast && decide (65536 ≤ fastRings s)) = false →
      ((tget s.queues (ringOf c.pkt).queue).isSome = true ∨ validDesc (ringOf c.pkt).queue d = true) →
      exec (.ringCreate cid d) s = .next (done cid 0 0
      { s with
        queues := if (tget s.queues (ringOf c.pkt).queue).isSome then s.queues else tset s.queues (ringOf c.pkt).queue (queueOf d),
        rings := tset s.rings (le c.pkt 20 4) (ringOf c.pkt) })) ∧
    (∀ r : Ring, Ready s cid 0x0007 c → tget s.rings (le c.pkt 20 4) = some r → ∃ t : State,
      exec (.ringDestroy cid) s = .next t ∧ (∀ x ∈ t.reads, x.ring ≠ le c.pkt 20 4) ∧
      tget t.rings (le c.pkt 20 4) = some { r with st := .destroying, pending := false, destroyers := r.destroyers ++ [cid] } ∧
      tget t.cmds cid = some { c with phase := .begun, since := s.clk.localTime, aux := [le c.pkt 20 4] } ∧
      { t with rings := s.rings, reads := s.reads, queues := s.queues, cmds := s.cmds } = s) ∧
    (∀ (n : Nat) (r : Ring), tget s.rings n = some r → r.st = .destroying → ringQuiet s n = true →
      exec (.ringDestroyComplete n) s = .next (r.destroyers.foldl (fun s k => done k 0 0 s) 
        { s with
          rings := tdel s.rings n,
          queues := if r.queue = 0 || (tdel s.rings n).any (fun e => e.2.queue = r.queue) then s.queues
            else tdel s.queues r.queue })) ∧
    (Ready s cid 0x0008 c → accountFaults c s = [] →
      let i := le c.pkt 20 2 % 4096
      (tget s.accts i = none → exec (.accountSet cid) s = .next (done cid 0 0 { s with
        accts := tset s.accts i {
          tenant := le c.pkt 22 1 % 8, fig := figuresOf c.pkt, pending := none,
          balance := min (le c.pkt 24 4) (le c.pkt 28 4), window := s.clk.localTime, lastAdmit := none } })) ∧
      (∀ a : Account, tget s.accts i = some a → a.tenant = le c.pkt 22 1 % 8 → c.pkt.getLsbD 184 = false →
        exec (.accountSet cid) s = .next (done cid 0 0
          { s with accts := tset s.accts i { a with pending := some (figuresOf c.pkt) } })) ∧
      (∀ a : Account, tget s.accts i = some a → a.tenant = le c.pkt 22 1 % 8 → c.pkt.getLsbD 184 = true →
        (s.rings.any fun e => e.1 != 0 && e.2.account = i) = false →
        exec (.accountSet cid) s = .next (done cid 0 0 { s with accts := tdel s.accts i })))

/-- RESET_UNIT replies DONE before the reset at module scope, and at half and core scope once the unit serves again; SHUTDOWN stops
admission, in MODE 1 ending each admitted request with CANCELLED and DETAIL 5, and replies DONE once nothing is left, with
DEVICE_STATE SHUTDOWN from its reply; the latch's shutdown ends in DEVICE_STATE SHUTDOWN. -/
def Obligations.ResetUnitAndShutdown : Prop :=
  ∀ (cid : Nat) (c : Cmd) (s : State),
    (Ready s cid 0x0009 c → le c.pkt 20 1 = 0 → exec (.resetUnitModule cid) s =
      .next (finish cid .done 0 0 0 (.resetModule 2) (halfMastReset (signalDying 8 s)))) ∧
    (Ready s cid 0x0009 c → le c.pkt 20 1 = 1 → guarded cid 0x0009 (fun p => le p 20 1 = 0) s = none →
      (halfOf s (le c.pkt 21 1)).heldBy = none → exec (.resetUnitHalf cid) s =
        .next (begun cid [1, le c.pkt 21 1] (resetHalf (le c.pkt 21 1) cid s))) ∧
    (Ready s cid 0x0009 c → le c.pkt 20 1 = 2 → guarded cid 0x0009 (fun p => le p 20 1 = 0) s = none →
      (coreOf s (le c.pkt 21 1)).halted = none → exec (.resetUnitCore cid) s = .next (begun cid [2, le c.pkt 21 1]
        (haltCore (le c.pkt 21 1) (.reset cid)
          (stopReqs ((atWorkOn s (le c.pkt 21 1)).map Prod.fst) .cancelled 4 s)))) ∧
    (∀ h : Nat, Begun s cid 0x0009 c → c.aux = [1, h] → h < 2 → s.halves.length = 2 → (halfOf s h).heldBy = some cid →
      (halfOf s h).faulted = false → (halfOf s h).rebuilding = false → exec (.resetUnitComplete cid) s =
        .next (done cid 0 0 (modHalf h (fun x => { x with heldBy := none, window := true }) s))) ∧
    (∀ k : Nat, Begun s cid 0x0009 c → c.aux = [2, k] → k < 8 → s.cores.length = 8 →
      (coreOf s k).halted = some (.reset cid) → exec (.resetUnitComplete cid) s = .next (done cid 0 0 (serveCore k s))) ∧
    (Ready s cid 0x000A c → stopping s = false → s.dev.state ≠ .shutdown → le c.pkt 20 1 = 0 →
      exec (.shutdown cid) s = .next (modDev (fun d => { d with stopping := some (.cmd cid) }) (signalDying 7 (begun cid [] s)))) ∧
    (∀ t : State, Ready s cid 0x000A c → stopping s = false → s.dev.state ≠ .shutdown → le c.pkt 20 1 = 1 →
      t = modDev (fun d => { d with stopping := some (.cmd cid) }) (signalDying 7 (begun cid [] s)) →
      exec (.shutdown cid) s = .next (endReqs (liveReqs t fun _ => true) .cancelled 5 t)) ∧
    (Begun s cid 0x000A c → s.dev.stopping = some (.cmd cid) → stopQuiet s cid = true →
      exec .shutdownComplete s = .next (finish cid .done 0 0 0 .endShutdown s)) ∧
    (s.dev.stopping = some .latch → stopQuiet s 0 = true → ∃ t : State, exec .shutdownComplete s = .next t ∧
      t.dev.state = .shutdown ∧ t.dev.stopping = none ∧ t.reqs = s.reqs)

/-! ### Fences -/

/-- FENCE_ALLOC sets its value and assigns the fence to the ring's tenant under the index's next generation, from 255 to 1 and never
to 0; FENCE_FREE frees it and ends its waits with CANCELLED and DETAIL 2, and replies once they are answered; FENCE_SIGNAL adds,
saturating, or takes the larger value, and replies the new value. -/
def Obligations.FenceCommands : Prop :=
  ∀ (cid : Nat) (c : Cmd) (s : State),
    (∀ i : Nat, Ready s cid 0x0401 c → c.given = none → tfree s.fences 16384 = some i →
      fencesFull s (c.tenant.getD 0) = false → mirroring s = false →
      let g := if tgetD s.fenceGens i 0 = 255 then 1 else tgetD s.fenceGens i 0 + 1
      exec (.fenceAlloc cid) s = .next (done cid 0 (BitVec.ofNat 64 (i + g * 2 ^ 24)) { s with
        fences := tset s.fences i { gen := g, tenant := c.tenant.getD 0, value := BitVec.ofNat 64 (le c.pkt 24 8) },
        fenceGens := tset s.fenceGens i g })) ∧
    (∀ f : Fence, Ready s cid 0x0402 c → tget s.fences (fenceIndex c.pkt) = some f → f.gen = fenceGen c.pkt →
      c.tenant = some f.tenant → mirroring s = false → ∃ t : State, exec (.fenceFree cid) s = .next t ∧
      t.fences = tdel s.fences (fenceIndex c.pkt) ∧ t = begun cid (waitsOn s (fenceIndex c.pkt) (fenceGen c.pkt))
        (refuseAll (waitsOn s (fenceIndex c.pkt) (fenceGen c.pkt)) .cancelled 2
          { s with fences := tdel s.fences (fenceIndex c.pkt) })) ∧
    (Begun s cid 0x0402 c → (∀ w ∈ c.aux, tget s.cmds w = none) → exec (.fenceFreeComplete cid) s = .next (done cid 0 0 s)) ∧
    (∀ f : Fence, Ready s cid 0x0403 c → tget s.fences (fenceIndex c.pkt) = some f → f.gen = fenceGen c.pkt →
      c.tenant = some f.tenant → mirroring s = false → c.given = none →
      (le c.pkt 24 1 = 0 → exec (.fenceSignal cid) s =
        .next (done cid 0 (BitVec.ofNat 64 (min (f.value.toNat + le c.pkt 32 8) (2 ^ 64 - 1))) 
          { s with
            fences := tset s.fences (fenceIndex c.pkt)
              { f with value := BitVec.ofNat 64 (min (f.value.toNat + le c.pkt 32 8) (2 ^ 64 - 1)) } })) ∧
      (le c.pkt 24 1 = 1 → exec (.fenceSignal cid) s =
        .next (done cid 0 (BitVec.ofNat 64 (max f.value.toNat (le c.pkt 32 8))) { s with
          fences := tset s.fences (fenceIndex c.pkt) { f with value := BitVec.ofNat 64 (max f.value.toNat (le c.pkt 32 8)) } })))

/-- A FENCE_WAIT replies DONE with the value it saw once that is at least TARGET, and CANCELLED with DETAIL 1 if WAIT_LIMIT ticks pass
first; before either it waits. -/
def Obligations.FenceWaits : Prop :=
  ∀ (cid : Nat) (c : Cmd) (f : Fence) (s : State),
    (Ready s cid 0x0404 c → tget s.fences (fenceIndex c.pkt) = some f → f.gen = fenceGen c.pkt → c.tenant = some f.tenant →
      exec (.fenceWait cid) s = .next 
        { s with
          cmds := tset s.cmds cid { c with
            phase := .begun, since := s.clk.localTime,
            aux := [fenceIndex c.pkt, fenceGen c.pkt, le c.pkt 24 8, le c.pkt 32 4] } }) ∧
    (∀ i g target limit : Nat, Begun s cid 0x0404 c → c.aux = [i, g, target, limit] → tget s.fences i = some f → f.gen = g →
      (target ≤ f.value.toNat → exec (.fenceWaitDone cid) s = .next (done cid 0 f.value s)) ∧
      (f.value.toNat < target → exec (.fenceWaitDone cid) s = .next s) ∧
      (f.value.toNat < target → limit ≠ 0 → c.since + limit ≤ s.clk.localTime →
        exec (.fenceWaitLimit cid) s = .next (refuse cid .cancelled 1 s)) ∧
      (limit = 0 ∨ s.clk.localTime < c.since + limit → exec (.fenceWaitLimit cid) s = .next s))

/-! ### Patterns and appliqués -/

/-- PATTERN_STORE of an image that passes every check of R259 begins to copy and, once copied, gives the pattern the lowest free index
under that index's generation; PATTERN_STAGE of a stored pattern that passes its checks begins to copy it, and its completion
takes its pages and writes the summary where an address is given; a block that
fails its check or LDPC leaves the pattern DAMAGED, and a later staging of it ends the same way.
(The index is notes/assumptions 12, the plan an operand, 14.) -/
def Obligations.PatternsStoredAndStaged : Prop :=
  ∀ (cid : Nat) (c : Cmd) (s : State),
    (∀ im : ImageRead, Ready s cid 0x0104 c → storeFault s (le c.pkt 32 8) im = none →
      exec (.patternStore cid im) s =
        .next (begun cid [le c.pkt 32 8 / 65536, imgField im 0x10 32, imgField im 0x40 128] s)) ∧
    (∀ (plan : Plan) (i : Nat), Begun s cid 0x0104 c → c.given = none → flashLooped s = false →
      tfree s.pats 4096 = some i → exec (.patternStoreComplete cid plan) s =
        .next (done cid 0 (BitVec.ofNat 64 (i + tgetD s.patGens i 1 * 2 ^ 16))
          { s with
            pats := tset s.pats i (storedPattern (tgetD s.patGens i 1) (c.tenant.getD 0) c.aux plan),
            patGens := tset s.patGens i (tgetD s.patGens i 1) })) ∧
    (∀ (pi : Nat) (p : Pattern), Ready s cid 0x0101 c → findPattern s (le c.pkt 20 4) = some (pi, p) →
      c.tenant = some p.tenant → p.evicting = none → p.staging = none → p.staged = false → fwMajor p = runningMajor s →
      coresAllowed s p = true → planFault p.plan = none → halfOut s p = false → exec (.patternStage cid) s =
        .next (begun cid [pi] (modPat pi (fun p => { p with staging := some cid }) s))) ∧
    (∀ p : Pattern, Begun s cid 0x0101 c → flashLooped s = false → tget s.pats (c.aux.headD 0) = some p →
      (p.damaged = none → roomFor s p.tenant (stagePages p) = true →
        let t := takePages p.tenant (stagePages p) (.pattern (c.aux.headD 0))
          (modPat (c.aux.headD 0) (fun p => { p with staging := none, staged := true }) s)
        exec (.patternStageComplete cid .complete) s =
          .next (done cid 0 0 (if le c.pkt 24 8 = 0 then t else writeHost (le c.pkt 24 8) 128 p.summary.toNat t))) ∧
      (∀ f : Status × Nat, p.damaged = some f → exec (.patternStageComplete cid .complete) s =
        .next (refuse cid f.1 f.2 (modPat (c.aux.headD 0) (fun p => { p with staging := none }) s))) ∧
      (∀ b : Nat, exec (.patternStageComplete cid (.checkFail b)) s = .next (refuse cid .integrityMismatch b
        (bobPost 0x19 0x0010 b (modPat (c.aux.headD 0)
          (fun p => { p with staging := none, damaged := some (.integrityMismatch, b) }) s)))) ∧
      (∀ b d : Nat, d = 5 * 2 ^ 28 + 15 * 2 ^ 24 + flashOf (c.aux.headD 0) b % 256 * 2 ^ 16 →
        exec (.patternStageComplete cid (.ldpcFail b)) s = .next (refuse cid .dataError d (bobPost 0x19 0x0010 b
          (modPat (c.aux.headD 0) (fun p => { p with staging := none, damaged := some (.dataError, d) }) s)))))

/-- PATTERN_RESIDE without PINNED puts a staged pattern into the rotation at once; with PINNED it waits for its SRAM and is then
pinned, and one that is pinned already is done; PATTERN_EVICT takes effect once every request against the pattern is FREE. -/
def Obligations.PatternsResidentAndEvicted : Prop :=
  ∀ (cid pi : Nat) (c : Cmd) (p : Pattern) (s : State),
    (Ready s cid 0x0102 c → findPattern s (le c.pkt 20 4) = some (pi, p) → c.tenant = some p.tenant → p.evicting = none →
      p.staging = none → p.loading = none → p.staged = true → halfOut s p = false →
      (c.pkt.getLsbD 192 = false → tooLarge s pi p = false → exec (.patternReside cid) s =
        .next (done cid 0 0 (rotate (addStages pi p (modPat pi (fun q => { q with res := .rotating }) s))))) ∧
      (c.pkt.getLsbD 192 = true → p.res = .pinned → exec (.patternReside cid) s = .next (done cid 0 0 s)) ∧
      (c.pkt.getLsbD 192 = true → p.res ≠ .pinned → pinFault s pi p = none → exec (.patternReside cid) s =
        .next (begun cid [pi] (modPat pi (fun q => { q with loading := some cid, leaving := false, want := none })
          (withdrawFor pi (withdrawable s pi) s))))) ∧
    (∀ l : List Nat, Begun s cid 0x0102 c → c.aux = [pi] → tget s.pats pi = some p →
      l = (patsWith s fun q => q.sram).filter (fun j => j != pi) →
      (p.sram || (pinFits s l pi 0 && pinFits s l pi 1 && fitsSelvage s l pi)) = true →
      exec (.patternResideComplete cid) s = .next (done cid 0 0 (rotate (addStages pi p (modPat pi
        (fun q => { q with loading := none, res := .pinned, sram := true, leaving := false, want := none }) s))))) ∧
    (Ready s cid 0x0103 c → findPattern s (le c.pkt 20 4) = some (pi, p) → c.tenant = some p.tenant →
      evictFault s pi p (le c.pkt 24 1) = none → exec (.patternEvict cid) s =
        .next (begun cid [pi] (modPat pi (fun q => { q with evicting := some cid }) s))) ∧
    (Begun s cid 0x0103 c → c.aux = [pi] → tget s.pats pi = some p → reqsOf s pi = [] →
      exec (.patternEvictComplete cid) s = .next (done cid 0 0 (rotate (evictTo pi (le c.pkt 24 1) p s)))) ∧
    (Begun s cid 0x0103 c → c.aux = [pi] → tget s.pats pi = some p → reqsOf s pi ≠ [] →
      exec (.patternEvictComplete cid) s = .next s)

/-- APPLIQUE_LOAD takes the lowest free index and its completion makes version 1 current with zeroed buffers; APPLIQUE_REPLACE takes
the second version place, and version n + 1 becomes current at its reply; an image whose CRC is wrong leaves the appliqué as it
was; APPLIQUE_RETIRE replies DONE at once. -/
def Obligations.Appliques : Prop :=
  ∀ (cid i : Nat) (c : Cmd) (a : Applique) (p : Pattern) (s : State),
    (∀ pi : Nat, Ready s cid 0x0105 c → findPattern s (le c.pkt 20 4) = some (pi, p) → c.tenant = some p.tenant →
      c.given = none → p.evicting = none → p.staged = true → halfOut s p = false → appsFull s p.tenant = false →
      pinnedFull s pi p (le c.pkt 32 4) = false → tfree s.apps 1024 = some i → exec (.appliqueLoad cid) s =
        .next (begun cid [i] (rotate
          { s with
            apps := tset s.apps i (newApplique (tgetD s.appGens i 1) pi p.tenant (le c.pkt 32 4) cid),
            appGens := tset s.appGens i (tgetD s.appGens i 1) }))) ∧
    (Ready s cid 0x0106 c → findApplique s (le c.pkt 20 2) = some (i, a) → c.tenant = some a.tenant → a.retiring = false →
      tget s.pats a.pattern = some p → (placeFree a = true ∨ a.place = some (.cmd cid)) → halfOut s p = false →
      pinnedFull s a.pattern p (le c.pkt 32 4) = false → exec (.appliqueReplace cid) s =
        .next (begun cid [i] (rotate (modApp i
          (fun a => { a with place := some (.cmd cid), loading := true, nextBytes := le c.pkt 32 4 }) s)))) ∧
    (∀ (crc : BitVec 32) (fmt : Elem) (w : List (BitVec 32)), hubRuns s = true → tget s.cmds cid = some c → c.phase = .begun → c.aux = [i] →
      (opcodeOf c.pkt = 0x0105 ∨ opcodeOf c.pkt = 0x0106) → tget s.apps i = some a →
      let t := takePages a.tenant (appPages s a (le c.pkt 32 4)) (.applique i (a.current + 1)) s
      let room := roomFor s a.tenant fun h => appPages s a (le c.pkt 32 4) h + bufferPages s a w.length h
      (crc = BitVec.ofNat 32 (le c.pkt 36 4) → room = true → a.current = 0 →
        exec (.appliqueLoadComplete cid crc fmt w) s =
          .next (done cid 0 (BitVec.ofNat 64 (i + a.gen * 2 ^ 10 + 2 ^ 32)) (takeBuffers i a w.length (modApp i (fun a => { a with
            current := 1, bytes := a.nextBytes, nextBytes := 0, fmt := fmt, weights := w, loading := false, place := none,
            tag := 1, grads := List.replicate w.length 0, momenta := List.replicate w.length 0 }) t)))) ∧
      (crc = BitVec.ofNat 32 (le c.pkt 36 4) → room = true → a.current ≠ 0 →
        exec (.appliqueLoadComplete cid crc fmt w) s =
          .next (finish cid .done 0 (BitVec.ofNat 64 ((a.current + 1) * 2 ^ 32)) 0 (.appliqueCurrent i)
            (modApp i (fun a => { a with loading := false, fmt := fmt, next := some w }) t))) ∧
      (crc ≠ BitVec.ofNat 32 (le c.pkt 36 4) → exec (.appliqueLoadComplete cid crc fmt w) s =
        .next (refuse cid .integrityMismatch 36 (rotate (dropLoad i s))))) ∧
    (Ready s cid 0x0107 c → findApplique s (le c.pkt 20 2) = some (i, a) → c.tenant = some a.tenant → a.retiring = false →
      exec (.appliqueRetire cid) s =
        .next (done cid 0 0 (drainApplique i (modApp i (fun a => { a with retiring := true }) s))))

/-! ### Video -/

/-- STREAM_OPEN reserves the engine with the least load and the pool's pages and answers handle and engine; STREAM_FEED queues a feed
whose data passes its checks; STREAM_CLOSE takes the marks off the pool's buffers, but for those held by vision, and with CANCEL
answers CANCELLED for the feeds that have not begun; once nothing of the stream is left its entry and pool are free, its
generation advances and the close is answered. (The index is notes/assumptions 12.) -/
def Obligations.Streams : Prop :=
  ∀ (cid i : Nat) (c : Cmd) (x : Stream) (s : State),
    (∀ e : Nat, Ready s cid 0x0301 c → c.given = none → videoDenied s (le c.pkt 23 1) = none →
      tfree s.streams 64 = some i →
      chooseEngine (decodeLoad s) 8 (videoRate (le c.pkt 24 2) (le c.pkt 26 2) (le c.pkt 28 4)) = some e →
      streamsFull s (c.tenant.getD 0) = false →
      let units := bufferUnits (le c.pkt 24 2) (le c.pkt 26 2) (le c.pkt 32 1)
      units * le c.pkt 34 1 ≤ freePages s (le c.pkt 23 1) (c.tenant.getD 0) →
      let t := allocPages (le c.pkt 23 1) (c.tenant.getD 0) (List.replicate (units * le c.pkt 34 1) (.pool i)) s
      exec (.streamOpen cid) s = .next (done cid units
        (BitVec.ofNat 64 (i + tgetD s.streamGens i 1 * 2 ^ 16 + e * 2 ^ 32))
        { t with
          streams := tset s.streams i (streamOf s c i e), streamGens := tset s.streamGens i (tgetD s.streamGens i 1) })) ∧
    (∀ (crc : BitVec 32) (g : Nat) (ok : Bool), Ready s cid 0x0302 c → findStream s (le c.pkt 20 4) = some (i, x) →
      x.ring = c.ring → closedFault s x cid = none →
      (le c.pkt 32 4 = 0 → exec (.streamFeed cid crc g ok) s = .next (done cid 0
        (BitVec.ofNat 64 (0xFFFFFFFF + min x.dropsReply 65535 * 2 ^ 40))
        { s with streams := tset s.streams i { x with dropsReply := 0 } })) ∧
      (le c.pkt 32 4 ≠ 0 → feedBehind s c.ring cid (le c.pkt 20 4) = false →
        videoDenied s x.half = none → x.feeds.length < 8 → feedDataFault s x.tenant c.pkt crc g ok = none →
        exec (.streamFeed cid crc g ok) s = .next { s with
          streams := tset s.streams i { x with feeds := x.feeds ++ [cid] }
          cmds := tset s.cmds cid { c with phase := .begun, since := s.clk.localTime, aux := [] } })) ∧
    (Ready s cid 0x0303 c → findStream s (le c.pkt 20 4) = some (i, x) → x.ring = c.ring → x.closing = none →
      ∃ t : State, exec (.streamClose cid) s = .next t ∧
      t.streams = tset s.streams i { x with
        closing := some cid, slots := List.replicate 8 none,
        bufs := x.bufs.map fun b => { b with shortRef := false, longRef := false, outPend := false } } ∧
      tget t.cmds cid = some { c with phase := .begun, since := s.clk.localTime, aux := [i] } ∧
      (c.pkt.getLsbD 192 = false → { t with streams := s.streams, cmds := s.cmds } = s) ∧
      (∀ (f : Nat) (k : Cmd), c.pkt.getLsbD 192 = true → f ∈ x.feeds → tget s.cmds f = some k → k.phase = .begun →
        k.aux = [] → (∀ e ∈ s.engines, e.2.stream = i → e.2.cid ≠ f) →
        tget t.cmds f = some { k with phase := .replied })) ∧
    (∀ (k : Nat) (q : Cmd), tget s.streams i = some x → x.closing = some k → tget s.cmds k = some q →
      streamQuiet s i x = true → ∃ t : State, exec (.streamCloseComplete i) s = .next t ∧ t.streams = tdel s.streams i ∧
      t.streamGens = tset s.streamGens i (if x.gen = 65535 then 1 else x.gen + 1) ∧
      tget t.cmds k = some { q with phase := .replied } ∧ ∀ e ∈ t.pages, e.2.use ≠ .pool i)

/-- An idle decode engine takes up the waiting feed with the earliest doorbell, takes the parameter sets that precede its picture and
selects buffers for the picture and for the references it lacks. A picture's end leaves in its buffer the samples that its sound
units wrote and those that conceal its damaged ones, frees the engine, and counts in its feed, which with its last picture has
its reply submitted. From 4 × ceil(samples ÷ 10.8) ticks on the watchdog ends a picture, and not before. -/
def Obligations.Pictures : Prop :=
  ∀ (en i cid : Nat) (x : Stream) (s : State),
    (∀ (p : PictureHead) (a : Pick), tget s.engines en = none → videoRuns s = true → decodeLooped s en = false →
      s.dev.state ≠ .updating → nextFeed s en = some (i, cid) → tget s.streams i = some x →
      unsupported (takeSets x p) p = false → p.showExisting = none → selectAll s cid (takeSets x p) p = some a →
      ∃ (t : State) (d : Decoding), exec (.pictureDecodeStart en p) s = .next t ∧ t.engines = tset s.engines en d ∧
      d.stream = i ∧ d.cid = cid ∧ d.buffer = a.last ∧ d.start = s.clk.localTime ∧ d.head = p ∧
      d.set = setOf (takeSets x p) p ∧ d.showing = false ∧
      t.streams = tset s.streams i { x with
        sets := (takeSets x p).sets, bufs := a.bufs, slots := a.slots, nextPic := a.next, picked := some s.clk.localTime,
        dropsReply := x.dropsReply + a.drops, dropsReport := x.dropsReport + a.drops } ∧
      { t with engines := s.engines, streams := s.streams, free := s.free } = s) ∧
    (∀ (p : PictureDone) (d : Decoding) (c : Cmd) (b : Buf), tget s.engines en = some d → expired s d = false →
      videoRuns s = true → d.cid = cid → d.stream = i → tget s.cmds cid = some c → c.phase = .begun →
      tget s.streams i = some x → tenantActive s x.tenant = true → x.closing = none → x.bufs[d.buffer]? = some b →
      ∃ (t : State) (y : Stream) (b' : Buf), exec (.pictureDecodeEnd en p) s = .next t ∧ t.engines = tdel s.engines en ∧
      tget t.streams i = some y ∧ y.bufs[d.buffer]? = some b' ∧ b'.data = (decodePicture x d p none).data ∧
      b'.picture = b.picture ∧ y.slots = refreshSlots p.refresh d.buffer x.slots ∧
      (p.last = false → x.codec ≠ 2 →
        tget t.cmds cid = some { c with aux := auxOf (addPicture (totalsOf c.aux) d (decodePicture x d p none)) }) ∧
      (p.last = true → tget t.cmds cid = some { c with phase := .replied })) ∧
    (∀ (p : PictureDone) (d : Decoding) (n : Nat), tget s.engines en = some d → d.showing = false →
      (d.start + 4 * ceilDiv (10 * (d.set.width * d.set.height)) 108 ≤ s.clk.localTime → ∃ t : State,
        exec (.decodeWatchdog en n p) s = .next t ∧ t.engines = tdel s.engines en) ∧
      (s.clk.localTime < d.start + 4 * ceilDiv (10 * (d.set.width * d.set.height)) 108 →
        exec (.decodeWatchdog en n p) s = .next s))

/-- ENC_OPEN reserves an encode engine and its buffers' pages; ENC_FRAME queues a frame whose source passes its checks, with its
samples and regions, and holds its picture; the access unit of the frame an engine is encoding is written to the output and
answers its bytes, frame number, type and mean QP, or BUSY with DETAIL 9 where it does not fit; ENC_CLOSE closes an encoder,
which is released at once where no frame of it is left. (The number of an encoder's buffers, at most 16, is a free value,
notes/assumptions 30; the index notes/assumptions 12; a mean QP that is no whole number rounds freely, notes/assumptions 122.) -/
def Obligations.Encoders : Prop :=
  ∀ (cid i : Nat) (c : Cmd) (x : Encoder) (s : State),
    (∀ e : Nat, Ready s cid 0x0304 c → c.given = none → videoDenied s (le c.pkt 23 1) = none → tfree s.encs 16 = some i →
      chooseEngine (encodeLoad s) 2
        (videoRate (roundUp (le c.pkt 24 2) 16) (roundUp (le c.pkt 26 2) 16) (le c.pkt 28 4)) = some e →
      encodersFull s (c.tenant.getD 0) = false →
      let units := encoderUnits (le c.pkt 24 2) (le c.pkt 26 2) (le c.pkt 32 1)
      16 * bufferUnits (roundUp (le c.pkt 24 2) 16) (roundUp (le c.pkt 26 2) 16) (le c.pkt 32 1) ≤
        freePages s (le c.pkt 23 1) (c.tenant.getD 0) →
      let t := allocPages (le c.pkt 23 1) (c.tenant.getD 0) (List.replicate units (.encoder i)) s
      exec (.encOpen cid) s = .next (done cid 0 (BitVec.ofNat 64 (i + tgetD s.encGens i 1 * 2 ^ 16 + e * 2 ^ 32))
        { t with encs := tset s.encs i (encoderOf s c i e), encGens := tset s.encGens i (tgetD s.encGens i 1) })) ∧
    (∀ (rois : BitVec 6144) (source g : Nat) (ok : Bool), Ready s cid 0x0305 c → encoderFaults c s = [] →
      findEncoder s (le c.pkt 20 4) = some (i, x) → roiFault rois (le c.pkt 26 1) = none → x.ring = c.ring →
      frameBehind s cid c.ring (le c.pkt 20 4) = false → (le c.pkt 24 1 = 1 → pickedNow s (le c.pkt 28 8) = false) →
      closedEnc s x cid = none → videoDenied s x.half = none → x.frames.length < 4 → frameFault s x c g ok = none →
      ∃ t : State, exec (.encFrame cid rois source g ok) s = .next t ∧
      tget t.encs i = some { x with frames := x.frames ++ [{
        cid := cid, rois := roisOf rois (le c.pkt 26 1),
        samples := frameSamples x
          (if le c.pkt 24 1 = 1 then pictureSample s x (le c.pkt 28 8) else hostSample x (le c.pkt 36 4) source) }] } ∧
      tget t.cmds cid = some { c with
        phase := .begun, since := s.clk.localTime, aux := if le c.pkt 24 1 = 1 then [le c.pkt 28 8] else [] } ∧
      (le c.pkt 24 1 ≠ 1 → t.streams = s.streams) ∧
      { t with encs := s.encs, cmds := s.cmds, streams := s.streams, encoding := s.encoding } = s) ∧
    (∀ (au : AccessUnit) (qp : Int) (f : Frame), Begun s cid 0x0305 c → c.given = none → findEncoder s (le c.pkt 20 4) = some (i, x) →
      x.frames.find? (fun f => f.cid = cid) = some f → encodingNow s x.engine = some cid → videoRuns s = true →
      encodeLooped s x.engine = false → ∃ t : State, exec (.encFrameComplete cid au qp) s = .next t ∧
      tget t.cmds cid = some { c with phase := .replied } ∧
      let n := frameBytes c (unitBytes x (isIdr x c) au).1
      (le c.pkt 48 4 < n → t.encs = s.encs ∧ t.tx = s.tx ∧ ∃ k : Cand,
        t.arb = { s.arb with cands := s.arb.cands ++ [k] } ∧ k.target = .cmd cid ∧ k.status = .busy ∧ k.detail = 9) ∧
      (n ≤ le c.pkt 48 4 →
        t.encs = tset s.encs i { x with
          frameNo := (x.frameNo + 1) % 2 ^ 32, sinceIdr := if isIdr x c then 1 else x.sinceIdr + 1 } ∧
        (c.pkt.getLsbD 201 = false → s.link.busMaster = true → Tx.host (le c.pkt 40 8) (unitBytes x (isIdr x c) au).1
          ((unitBytes x (isIdr x c) au).2 % 2 ^ (8 * (unitBytes x (isIdr x c) au).1)) ∈ t.tx) ∧
        ∃ k : Cand, t.arb = { s.arb with cands := s.arb.cands ++ [k] } ∧ k.target = .cmd cid ∧ k.status = .done ∧ k.detail = n ∧
          k.value = BitVec.ofNat 64 (x.frameNo + bit (!isIdr x c) * 2 ^ 32 +
            (BitVec.ofInt 8 (meanQp (frameQps x f.rois (baseQp x (isIdr x c) qp)))).toNat * 2 ^ 40))) ∧
    (Ready s cid 0x0306 c → findEncoder s (le c.pkt 20 4) = some (i, x) → x.ring = c.ring → x.closing = none →
      ∃ t : State, exec (.encClose cid) s = .next t ∧
      (x.frames = [] → framesBefore s c.ring (le c.pkt 20 4) cid = false → t.encs = tdel s.encs i ∧
        t.encGens = tset s.encGens i (if x.gen = 65535 then 1 else x.gen + 1) ∧
        tget t.cmds cid = some { c with phase := .replied, since := s.clk.localTime, aux := [i] }) ∧
      (x.frames ≠ [] → t.encs = tset s.encs i { x with closing := some cid } ∧
        tget t.cmds cid = some { c with phase := .begun, since := s.clk.localTime, aux := [i] } ∧
        ∀ (f : Frame) (k : Cmd), c.pkt.getLsbD 192 = true → f ∈ x.frames → tget s.cmds f.cid = some k → k.phase = .begun →
          encodingNow (begun cid [i] s) x.engine ≠ some f.cid → tget t.cmds f.cid = some { k with phase := .replied }))

/-! ### Tenants and keys -/

/-- TENANT_CREATE makes an ABSENT tenant ACTIVE with generation 1; TENANT_REMOVE begins its removal, and once no work of it is left it
is ABSENT with nothing of it kept; PARTITION_SET defines the partitions while no tenant exists; the lowest page of a half that is
tagged with the previous key generation comes under the current one, and a later one waits its turn. -/
def Obligations.TenantsAndPartitions : Prop :=
  ∀ (cid : Nat) (c : Cmd) (s : State),
    (Ready s cid 0x0501 c → tenantFaults c s = [] → decommissioned s = false → s.sec.debugOpened = false →
      partDefined s (le c.pkt 20 1 % 8) = true → tenantState s (le c.pkt 20 1 % 8) = .absent →
      exec (.tenantCreate cid) s = .next (done cid 0 (BitVec.ofNat 64 (epochOf s (le c.pkt 20 1 % 8) + 2 ^ 16))
        { s with
          tenants := tset s.tenants (le c.pkt 20 1 % 8)
            { st := .active, epoch := epochOf s (le c.pkt 20 1 % 8),
              cur := some { num := 1, pageKey := s.sec.draws, bufKey := none, outKey := none, nonce := 0 },
              prev := none, next := none, keyless := false, remover := none },
          sec := { s.sec with draws := s.sec.draws + 1 } })) ∧
    (Ready s cid 0x0502 c → tenantState s (le c.pkt 20 1 % 8) = .active → exec (.tenantRemove cid) s =
      .next (beginRemoval (le c.pkt 20 1 % 8) cid
        (begun cid [le c.pkt 20 1 % 8, tenantPages s (le c.pkt 20 1 % 8)] s))) ∧
    (∀ (k : Nat) (x : Tenant), (s.tenants.find? fun e => e.2.st == .removing && e.2.remover == some cid) = some (k, x) →
      tenantQuiet s k cid = true → ∃ t : State, exec (.tenantRemoveComplete cid) s = .next t ∧
      tget t.tenants k = some { x with st := .absent, remover := none } ∧ (∀ e ∈ t.pages, e.2.tenant ≠ k) ∧
      (∀ e ∈ t.fences, e.2.tenant ≠ k) ∧ (∀ e ∈ t.accts, e.2.tenant ≠ k) ∧ (∀ e ∈ t.seqs, e.2.tenant ≠ k)) ∧
    (∀ b : BitVec 2048, Ready s cid 0x0506 c → partitionFaults c s = [] → partFault s b (le c.pkt 21 1) = none →
      (s.tenants.any fun e => e.2.st != .absent) = false → (le c.pkt 21 1 = 0 ∨ isoPolicy s ≠ 0) →
      exec (.partitionSet cid b) s = .next (done cid 0 0
        { s with
          parts := if le c.pkt 21 1 = 0 then none else some ((List.range (le c.pkt 21 1)).map (partEntry b)) })) ∧
    (∀ (h p : Nat) (x : Page) (t : Tenant) (g k : KeyGen), tget s.pages (pageKey h p) = some x →
      tget s.tenants x.tenant = some t → t.prev = some g → t.cur = some k → halfInService s h = true →
      x.parity = g.num % 2 → k.num % 2 ≠ g.num % 2 →
      ((∀ e ∈ s.pages, e.1 / 2 ^ 21 = h → e.1 < pageKey h p → stale s e.2 = false) → ∃ l : Tbl Page,
        exec (.restitchPage h p) s = .next (retireKeys x.tenant { s with pages := l }) ∧
        tget l (pageKey h p) = some { x with parity := k.num % 2, restitching := false } ∧
        ∀ j : Nat, j ≠ pageKey h p → tget l j = tget s.pages j) ∧
      ((∃ e ∈ s.pages, e.1 / 2 ^ 21 = h ∧ e.1 < pageKey h p ∧ stale s e.2 = true) →
        exec (.restitchPage h p) s = .next s))

/-- KEY_INSTALL gives the current generation the BUF_KEY and OUT_KEY its block delivers; KEY_ROTATE makes the next generation ready,
with the block's keys or without, current from its reply; a block that delivers none is refused; ATTEST_QUOTE writes its quote
where the buffer holds it. -/
def Obligations.Keys : Prop :=
  ∀ (cid : Nat) (c : Cmd) (s : State),
    (∀ (b : BitVec 18688) (g : KeyGen), Ready s cid 0x0503 c → c.given = none → keyDenied s = none →
      (tget s.tenants (c.tenant.getD 0)).bind (·.cur) = some g → g.bufKey = none → exec (.keyInstall cid b) s =
        .next (match unwrap s (c.tenant.getD 0) g.num (le c.pkt 32 1) b with
          | .inl (k, o) => done cid 0 (BitVec.ofNat 64 g.num) { s with tenants := tmod s.tenants (c.tenant.getD 0) fun x =>
              { x with cur := some { g with bufKey := some k, outKey := some o, nonce := 0 }, keyless := false } }
          | .inr (st, d) => refuse cid st d s)) ∧
    (∀ (b : BitVec 18688) (x : Tenant), Ready s cid 0x0504 c → c.given = none → keyDenied s = none →
      tget s.tenants (c.tenant.getD 0) = some x → x.prev = none → x.next = none →
      let num := if currentGen s (c.tenant.getD 0) = 65535 then 1 else currentGen s (c.tenant.getD 0) + 1
      let t := fun keys : Option (BitVec 256 × BitVec 256) => finish cid .done 0 (BitVec.ofNat 64 num) 0
        (.keyCurrent (c.tenant.getD 0))
        { s with
          tenants := tset s.tenants (c.tenant.getD 0)
            { x with
              next := some { num := num, pageKey := s.sec.draws, bufKey := keys.map (·.1), outKey := keys.map (·.2),
                             nonce := 0 } },
          sec := { s.sec with draws := s.sec.draws + 1 } }
      (le c.pkt 32 1 = 0 → exec (.keyRotate cid b) s = .next (t none)) ∧
      (le c.pkt 32 1 ≠ 0 → exec (.keyRotate cid b) s =
        .next (match unwrap s (c.tenant.getD 0) num (le c.pkt 32 1) b with
          | .inl k => t (some k)
          | .inr (st, d) => refuse cid st d s))) ∧
    (∀ nonce : BitVec 256, Ready s cid 0x0505 c → decommissioned s = false →
      let scope := if c.ring = 0 then none else c.tenant
      let need := (quotePlan (le c.pkt 20 1) (packLen (quoteList s scope) / 48)).total
      (need ≤ le c.pkt 32 4 → exec (.attestQuote cid nonce) s =
        .next (done cid need 0 (writeFields (le c.pkt 24 8) (quoteBytes s scope nonce (le c.pkt 20 1)) s))) ∧
      (le c.pkt 32 4 < need → exec (.attestQuote cid nonce) s =
        .next (finish cid .badParam 32 (BitVec.ofNat 64 need) 0 .none s)))

/-! ### The pair: its commands -/

/-- PAIR_BIND awaits the partner's quote; an answer that passes every check of R300 makes the pair DEGRADED with the partner's PAIR_ID
and the four keys' directions; one that fails gets its status and leaves the module unbound; after 1 s without one the command
ends with CANCELLED and DETAIL 6. PAIR_STATUS writes its record, and PAIR_UNBIND ends the binding. -/
def Obligations.PairBinding : Prop :=
  ∀ (cid : Nat) (c : Cmd) (s : State),
    (Ready s cid 0x0601 c → bindAllowed s (le c.pkt 20 1) = true → bindBare s (le c.pkt 20 1) = true →
      exec (.pairBind cid) s =
        .next (modPair (fun p => { p with binding := some (cid, s.clk.localTime) }) (begun cid [] s))) ∧
    (∀ q : PartnerQuote, Begun s cid 0x0601 c → s.pair.linkUp = true → looped s 2 0 = false → bindFault s c.pkt q = none →
      (∀ e ∈ s.reqs, e.2.lent = false) → ∃ u : State, exec (.pairBindComplete cid q) s = .next (done cid 0 0 u) ∧ u.pair.mode = .degraded ∧
      u.pair.role = (if le c.pkt 20 1 = 1 then .active else .standby) ∧ u.pair.pairId = q.pairId ∧
      u.pair.serial = BitVec.ofNat 128 (le c.pkt 28 16) ∧ u.pair.commitSeq = s.pair.commitSeq ∧
      u.pair.since = s.clk.localTime ∧ u.pair.binding = none ∧
      { u with pair := s.pair, arb := s.arb, health := s.health } = s) ∧
    (∀ (q : PartnerQuote) (st : Status) (d : Nat), Begun s cid 0x0601 c → s.pair.linkUp = true → looped s 2 0 = false →
      bindFault s c.pkt q = some (st, d) → exec (.pairBindComplete cid q) s =
        .next (refuse cid st d (modPair (fun p => { p with binding := none }) s))) ∧
    (Begun s cid 0x0601 c →
      (c.since + 100000000 ≤ s.clk.localTime → exec (.pairBindTimeout cid) s =
        .next (refuse cid .cancelled 6 (modPair (fun p => { p with binding := none }) s))) ∧
      (s.clk.localTime < c.since + 100000000 → exec (.pairBindTimeout cid) s = .next s)) ∧
    (Ready s cid 0x0602 c → exec (.pairStatus cid) s = .next (done cid 0 (BitVec.ofNat 64 (modeCode s.pair.mode))
      (useSpares 4 (writeFields (le c.pkt 24 8) (pairData s) s)))) ∧
    (Ready s cid 0x0606 c → bound s = true → ∃ u : State, exec (.pairUnbind cid) s = .next (done cid 0 0 u) ∧
      u.pair.mode = .unpaired ∧ u.pair.role = .none ∧ u.pair.pairId = 0 ∧ u.pair.keyA = none ∧ u.pair.keyB = none ∧
      u.pair.unacked = [] ∧ u.dev = s.dev ∧ u.fuses = s.fuses ∧ u.nor = s.nor)

/-- RESILVER_START begins phase 1 with every tenant KEYLESS on the spare; on the active its phases follow each other, and after phase 3
the pair is ACTIVE/STANDBY, RESILVER_START replies, and phase 4 runs on; on the spare phase 2 brings the copied tables. An audit
answers DONE with the objects compared and repaired, or DIVERGED with the divergent ones counted too; PAIR_SWITCHBACK stops running
requests at their boundaries, and once the partner is ACTIVE this module is STANDBY with no entry armed. -/
def Obligations.PairMaintenance : Prop :=
  ∀ (cid : Nat) (c : Cmd) (s : State),
    (Ready s cid 0x0603 c → s.pair.mode = .degraded → s.pair.role = .active → (∀ e ∈ s.reqs, e.2.lent = false) → ∃ t : State,
      exec (.resilverStart cid) s = .next t ∧ t.pair.mode = .resilvering ∧ t.pair.role = .active ∧ t.pair.phase = 1 ∧
      t.pair.resilver = some cid ∧ t.tenants = tmap s.tenants (fun _ x => { x with keyless := true }) ∧
      tget t.cmds cid = some { c with phase := .begun, since := s.clk.localTime, aux := [0] } ∧
      { t with pair := s.pair, tenants := s.tenants, cmds := s.cmds, arb := s.arb, health := s.health } = s) ∧
    (∀ (bytes : Nat) (copy : Option Copied) (descs : Tbl (BitVec 256)), hubOn s = true → s.pair.linkUp = true →
      (s.pair.role = .active → s.pair.phase = 4 → exec (.resilverPhaseComplete bytes copy descs) s =
        .next { s with pair := { s.pair with phase := 0, storeLeft := 0 } }) ∧
      (s.pair.role = .active → s.pair.resilver = some cid → Begun s cid 0x0603 c →
        (s.pair.phase = 1 ∨ s.pair.phase = 2 → ∃ t : State, exec (.resilverPhaseComplete bytes copy descs) s = .next t ∧
          t.pair.phase = s.pair.phase + 1 ∧ t.pair.mode = s.pair.mode ∧ t.pair.resilver = some cid ∧
          tget t.cmds cid = some { c with aux := [c.aux.headD 0 + bytes] } ∧
          (s.pair.phase = 2 → Tx.copied (copyOf s) ∈ t.tx) ∧
          { t with pair := s.pair, cmds := s.cmds, tx := s.tx, free := s.free } = s) ∧
        (s.pair.phase = 3 → ∃ u : State, exec (.resilverPhaseComplete bytes copy descs) s =
            .next (done cid 0 (BitVec.ofNat 64 (c.aux.headD 0 + bytes)) u) ∧
          u.pair.mode = .activeStandby ∧ u.pair.role = .active ∧ u.pair.phase = 4 ∧ u.pair.resilver = none ∧
          { u with pair := s.pair, cmds := s.cmds, tx := s.tx, free := s.free, arb := s.arb, health := s.health } = s)) ∧
      (s.pair.role = .spare → s.pair.phase ≠ 2 → exec (.resilverPhaseComplete bytes copy descs) s =
        .next { s with pair := { s.pair with phase := min 3 (s.pair.phase + 1) } }) ∧
      (∀ k : Copied, s.pair.role = .spare → s.pair.phase = 2 → copy = some k → s.pair.waiting = [] → s.pair.awaiting = [] →
        ∃ t : State, exec (.resilverPhaseComplete bytes copy descs) s = .next t ∧ t.pair.phase = 3 ∧ t.fences = k.fences ∧
        t.accts = k.accts ∧ t.seqs = k.seqs ∧ t.parts = k.parts ∧ t.streams = k.streams ∧ t.apps = k.apps ∧
        t.cfg.live = k.cfg)) ∧
    (∀ (compared : Nat) (sent : List (Nat × Nat)) (taken l : List Record), s.pair.mode = .activeStandby → s.pair.role = .active →
      (Ready s cid 0x0605 c → l = [] → exec (.pairAudit cid compared sent taken l) s =
        .next (finish cid .done (min (sent.length + taken.length) 65535) (BitVec.ofNat 64 compared) 0 .none
          (repair sent taken s))) ∧
      (Ready s cid 0x0605 c → l ≠ [] → exec (.pairAudit cid compared sent taken l) s =
        .next (finish cid .diverged (min (sent.length + taken.length) 65535 + min l.length 65535 * 65536)
          (BitVec.ofNat 64 compared) 0 .none (resolveAll l (repair sent taken s)))) ∧
      (Ready s cid 0x0604 c → s.pair.switching = none → ∃ t : State,
        exec (.pairSwitchback cid compared [] [] []) s = .next t ∧ t.pair.switching = some cid ∧
        ∀ (slot : Nat) (r : Req), tget s.reqs slot = some r → r.st = .running → r.lent = false →
          tget t.reqs slot = some { r with st := .preempted })) ∧
    (Begun s cid 0x0604 c → s.pair.handover = true → s.pair.partnerRole = .active → ∃ u : State,
      exec (.pairSwitchbackComplete cid) s = .next (done cid 0 0 u) ∧ u.pair.mode = .activeStandby ∧ u.pair.role = .standby ∧
      u.pair.switching = none ∧ u.pair.handover = false ∧ ∀ e ∈ u.sent.entries, e.2.armed = false)

/-! ### Firmware -/

/-- FW_WRITE_BLOCK with data that fits its CRC erases the block and begins to write it; once written the block is there and a
TRIAL_FAILED bit of the slot clears; data that does not fit gets FW_CHECK_FAIL with the block's number. FW_VERIFY of
a slot on which another FW_ command acts is BUSY with DETAIL 12 (a reading, log 84); its completion answers the image's FW_VERSION
and marks the slot VERIFIED, or the first check it fails; FW_QUERY writes its record. -/
def Obligations.FirmwareSlots : Prop :=
  ∀ (cid : Nat) (c : Cmd) (s : State),
    (∀ data : Nat, Ready s cid 0x0701 c →
      let i := slotNamed s (le c.pkt 20 1)
      let b := le c.pkt 24 4
      runningSlot s ≠ some i → (b = 0 ∨ (tget (slotOf s i).blocks 0).isSome = true) → (slotOf s i).busy = none →
      (crc32c 65536 data = le c.pkt 36 4 → exec (.fwWriteBlock cid data) s = .next (begun cid [i, b, data % 2 ^ 524288]
        (modSlot i (fun x => { x with blocks := eraseBlock b x.blocks, verified := false, busy := some cid }) s))) ∧
      (crc32c 65536 data ≠ le c.pkt 36 4 → exec (.fwWriteBlock cid data) s = .next (refuse cid .fwCheckFail b
        (modSlot i (fun x => { x with blocks := tdel x.blocks b, verified := false }) s)))) ∧
    (∀ i b data : Nat, Begun s cid 0x0701 c → c.aux = [i, b, data] → i ≤ 1 → ∃ u : State,
      exec (.fwBlockWritten cid) s = .next (done cid 0 (BitVec.ofNat 64 (slotOf u i).blocks.length) u) ∧
      slotOf u i = { slotOf s i with
        blocks := tset (slotOf s i).blocks b (data, BitVec.ofNat 32 (le c.pkt 36 4)), busy := none } ∧
      slotOf u (1 - i) = slotOf s (1 - i) ∧
      (∀ a : ActRecord, u.nor.act = some a → (if i = 0 then a.aFailed else a.bFailed) = false) ∧
      { u with nor := s.nor } = s) ∧
    (Ready s cid 0x0702 c → (slotOf s (slotNamed s (le c.pkt 20 1))).busy = none → exec (.fwVerify cid) s =
      .next (begun cid [slotNamed s (le c.pkt 20 1)]
        (modSlot (slotNamed s (le c.pkt 20 1)) (fun x => { x with busy := some cid }) s))) ∧
    (Ready s cid 0x0702 c → (slotOf s (slotNamed s (le c.pkt 20 1))).busy.isSome = true →
      exec (.fwVerify cid) s = .next (refuse cid .busy 12 s)) ∧
    (∀ i : Nat, Begun s cid 0x0702 c → c.aux = [i] → (slotOf s i).busy = some cid → exec (.fwVerifyComplete cid) s =
      .next (match slotFault s (slotOf s i) with
        | none => done cid 0 (BitVec.ofNat 64 (fwHeader (slotOf s i) 8 8))
            (modSlot i (fun x => { x with busy := none, verified := true }) s)
        | some (st, d) => refuse cid st d (modSlot i (fun x => { x with busy := none, verified := false }) s))) ∧
    (Ready s cid 0x0704 c → exec (.fwQuery cid) s = .next (done cid 0 0
      (useSpares 13 (writeFields (le c.pkt 24 8) (fwQueryData s) s))))

/-- FW_ACTIVATE in KEEP mode names the slot on trial, makes DEVICE_STATE UPDATING and returns requests at work to ADMITTED; within 2 s
the pause ends with the new image in service and the reply, from 2 s on the hub watchdog resets the module with RESET_SOURCE 5.
In FULL mode it replies DONE and the reset follows. A trial of 60 s ends with the slot's trial bit cleared. -/
def Obligations.Activation : Prop :=
  ∀ (cid : Nat) (c : Cmd) (s : State),
    (Ready s cid 0x0703 c → s.dev.update = none →
      let i := slotNamed s (le c.pkt 20 1)
      (fullActivation s c.pkt = false → activateFault s i false = none → ∃ t : State, exec (.fwActivateKeep cid) s = .next t ∧
        t.dev.state = .updating ∧ t.dev.update = some (cid, s.clk.localTime) ∧ t.dev.activeSlot = s.dev.activeSlot ∧
        (∃ a : ActRecord, t.nor.act = some a ∧ a.slot = i ∧ a.trial = true) ∧ t.nor.startFails = 0 ∧
        tget t.cmds cid = some { c with phase := .begun, since := s.clk.localTime, aux := [i] } ∧ t.rings = s.rings ∧
        (∀ k : Nat, (tget t.seqs k).map (·.committed) = (tget s.seqs k).map (·.committed)) ∧ t.pats = s.pats ∧ t.apps = s.apps ∧ t.accts = s.accts) ∧
      (fullActivation s c.pkt = true → activateFault s i true = none → exec (.fwActivateFull cid) s = .next (finish cid .done 0
        (BitVec.ofNat 64 (fwHeader (slotOf s i) 8 8)) 0 (.resetModule 3) (signalDying 8 (nameTrial i s)))) ∧
      (∀ (full : Bool) (st : Status) (d : Nat), fullActivation s c.pkt = full → activateFault s i full = some (st, d) →
        exec (if full then .fwActivateFull cid else .fwActivateKeep cid) s = .next (refuse cid st d s))) ∧
    (∀ (k t0 fmt i : Nat) (x : Cmd) (changed : BitVec 16), s.dev.update = some (k, t0) → tget s.cmds k = some x → x.aux = [i] →
      s.dev.latchDue = false →
      (s.clk.localTime < t0 + 200000000 → ∃ u : State,
        exec (.activationPauseEnd fmt changed) s = .next (done k 0 (BitVec.ofNat 64 (fwHeader (slotOf s i) 8 8)) u) ∧
        u.dev.update = none ∧ u.dev.activeSlot = i ∧ u.dev.format = fmt ∧ u.dev.state = serviceState s ∧ u.reqs = s.reqs ∧
        u.rings = s.rings ∧ u.seqs = s.seqs) ∧
      (t0 + 200000000 ≤ s.clk.localTime → exec (.activationPauseEnd fmt changed) s = .next s)) ∧
    (∀ k t0 : Nat, s.dev.update = some (k, t0) →
      (t0 + 200000000 ≤ s.clk.localTime → exec .activationPauseTimeout s = .next (moduleReset 5 s)) ∧
      (s.clk.localTime < t0 + 200000000 → exec .activationPauseTimeout s = .next s)) ∧
    (∀ (t0 : Tick) (a : ActRecord), s.nor.act = some a → a.trial = true → a.slot = s.dev.activeSlot → serving s = true →
      s.dev.serviceSince = some t0 →
      (t0 + 6000000000 ≤ s.clk.localTime → ∃ t : State, exec .trialComplete s = .next t ∧
        t.nor.act = some { a with trial := false, seqNo := (a.seqNo + 1) % 2 ^ 32 } ∧
        t.fuses = (readShadow (blow (trialBits s (slotOf s s.dev.activeSlot)) s)).fuses ∧
        { t with nor := s.nor, fuses := s.fuses } = s) ∧
      (s.clk.localTime < t0 + 6000000000 → exec .trialComplete s = .next s))

/-! ### Test, trace and health commands -/

/-- LOOPBACK_SET whose conditions hold takes its interface, and after DURATION_MS answers the bytes that mismatched and those compared;
TRACE_CONFIG turns trace on or off, or is denied in partition mode; BOBBIN_READ writes the records it has and answers how many
were ever posted. -/
def Obligations.LoopbacksTraceBobbins : Prop :=
  ∀ (cid : Nat) (c : Cmd) (s : State),
    (Ready s cid 0x0801 c → guarded cid 0x0801 (loopTaken s) s = none →
      (loopFault s c.pkt = none → exec (.loopbackSet cid) s = .next (begun cid [] { s with svc := { s.svc with
        loops := s.svc.loops ++ [{ cid := cid, iface := le c.pkt 20 1, depth := le c.pkt 21 1, target := le c.pkt 24 2,
                                   until_ := s.clk.localTime + le c.pkt 28 4 * 100000 }] } })) ∧
      (∀ (st : Status) (d : Nat), loopFault s c.pkt = some (st, d) →
        exec (.loopbackSet cid) s = .next (refuse cid st d s))) ∧
    (∀ (l : Loop) (m n : Nat), Begun s cid 0x0801 c → s.svc.loops.find? (fun l => l.cid = cid) = some l →
      (l.until_ ≤ s.clk.localTime → exec (.loopbackEnd cid m n) s = .next (done cid (min m 0xFFFFFFFF) (BitVec.ofNat 64 n)
        { s with svc := { s.svc with loops := s.svc.loops.filter fun x => x.cid != cid } })) ∧
      (s.clk.localTime < l.until_ → exec (.loopbackEnd cid m n) s = .next s)) ∧
    (Ready s cid 0x0802 c →
      (partitioned s = true → exec (.traceConfig cid) s = .next (refuse cid .accessDenied 5 s)) ∧
      (partitioned s = false → le c.pkt 20 1 = 0 → exec (.traceConfig cid) s =
        .next (done cid 0 0 { s with svc := { s.svc with trace := Trace.off } })) ∧
      (partitioned s = false → le c.pkt 20 1 = 1 → exec (.traceConfig cid) s = .next (done cid 0 0
        { s with
          svc := { s.svc with
            trace := { on := true, flags := le c.pkt 21 1, mask := le c.pkt 24 4, period := le c.pkt 28 4, sent := 0,
                       dropped := 0, nextSync := s.clk.localTime + 100000,
                       nextSample := s.clk.localTime + le c.pkt 28 4 } } }))) ∧
    (Ready s cid 0x0803 c → exec (.bobbinRead cid) s =
      .next (let l := bobRecords s (le c.pkt 20 1) (le c.pkt 22 2) (le c.pkt 24 2)
        finish cid .done l.length (BitVec.ofNat 64 (bobOf s (le c.pkt 20 1)).posted) (coarsened s) .none
          (writeFields (le c.pkt 32 8) l s)))

/-- COUNTER_READ reads a group's counters, or arms or disarms the profiling counters; MARGIN_SCAN reports its record, at once or
after new measurements; SELFTEST_RUN of a core halts it, and at its end the core serves again, or after a mismatch stays halted. -/
def Obligations.CountersMarginsTests : Prop :=
  ∀ (cid : Nat) (c : Cmd) (s : State),
    (Ready s cid 0x0804 c → le c.pkt 20 1 = 0 → exec (.counterRead cid) s =
      .next (finish cid .done (readable16 s (le c.pkt 21 1) c.tenant).length (BitVec.ofNat 64 (counterAt s)) (coarsened s)
        .none (useSpares (readable16 s (le c.pkt 21 1) c.tenant).length
          (writeFields (le c.pkt 24 8) (counterEntries s (le c.pkt 21 1) c.tenant) s)))) ∧
    (∀ (op : Nat) (i : Instr) (p : Option (Tbl Nat)), (op = 1 ∧ i = .counterArm cid ∧ p = some []) ∨
        (op = 2 ∧ i = .counterDisarm cid ∧ p = none) → Ready s cid 0x0804 c → le c.pkt 20 1 = op →
      (c.ring = 0 → le c.pkt 21 1 = 1 → exec i s = .next (done cid 0 0
        { s with
          svc := { s.svc with prof := p, window := s.svc.window.filter fun e => decide (e.1 < 0x0100 * 65536) } })) ∧
      (c.ring ≠ 0 → exec i s = .next (refuse cid .accessDenied 1 s))) ∧
    (Ready s cid 0x0805 c →
      (le c.pkt 20 1 = 1 → exec (.marginScan cid) s = .next (begun cid [] s)) ∧
      (le c.pkt 20 1 = 0 → exec (.marginScan cid) s = .next (finish cid .done (packLen (marginReport s)) 0 (coarsened s) .none
        (writeFields (le c.pkt 24 8) (marginReport s) s)))) ∧
    (∀ (tx rx : List Int) (eyes : List (Nat × Nat)), Begun s cid 0x0805 c → ∃ u : State,
      exec (.marginScanComplete cid tx rx eyes) s = .next (replyMargins cid c u) ∧
      (opticsOn s = true → u.health.margins.tx = tx ∧ u.health.margins.rx = rx) ∧
      (∀ k ∈ servingChannels s, ∀ e : Nat × Nat, eyes[k]? = some e →
        ∃ ch : Channel, tget u.mem.channels k = some ch ∧ ch.eyeW = e.1 ∧ ch.eyeH = e.2) ∧ u.cmds = s.cmds) ∧
    (Ready s cid 0x0806 c → guarded cid 0x0806 testTaken s = none →
      (0x10 ≤ le c.pkt 20 1 → exec (.selftestRun cid) s = .next (begun cid [] s)) ∧
      (le c.pkt 20 1 < 0x10 → (coreOf s (le c.pkt 21 1)).halted = none → heldUnbound s = false →
        exec (.selftestRun cid) s = .next (begun cid [] (haltCore (le c.pkt 21 1) (.test cid) s)))) ∧
    (∀ n first : Nat, Begun s cid 0x0806 c → s.cores.length = 8 → le c.pkt 21 1 < 8 →
      (le c.pkt 20 1 = 0 → ∃ u : State, exec (.selftestEnd cid n first) s =
          .next (done cid (min n 0xFFFFFFFF) (BitVec.ofNat 64 (if n = 0 then 0xFFFFFFFF else first)) u) ∧
        ((coreOf s (le c.pkt 21 1)).halted = some (.test cid) → (coreOf u (le c.pkt 21 1)).halted =
          if n = 0 then none else some .failed) ∧ (coreOf u (le c.pkt 21 1)).store = []) ∧
      (le c.pkt 20 1 = 0x10 → exec (.selftestEnd cid n first) s =
        .next (done cid (fuseMismatches s.fuses) (BitVec.ofNat 64 (weakCells s.fuses)) s)))

/-! ### Starts -/

/-- POWER_ON of a module that is off, with its thermal trip not latched, starts LOCAL_TIME at 0 in BOOTING, with the fuse cells, boot
NOR, stored patterns and pins as they were; START takes up a start that is due; START_COMPLETE makes DEVICE_STATE what the
module's parts give; a failure counts and waits, or at the third becomes HALF_MAST; retries, overruns and 60 s of service come at
their ticks. (A start runs its rows as one step, notes/assumptions 32.) -/
def Obligations.Starts : Prop :=
  ∀ s : State,
    (s.dev.on = false → s.clk.sclk = false → s.thermal.tripped = none → ∃ t : State, exec .powerOn s = .next t ∧
      t.clk.localTime = 0 ∧ t.clk.sclk = true ∧ t.dev.on = true ∧ t.dev.state = .booting ∧ t.dev.startDue = true ∧
      t.sec.debugOpened = false ∧ t.fuses = { s.fuses with shadow := 0 } ∧ t.nor.act = s.nor.act ∧
      t.nor.startFails = s.nor.startFails ∧ t.nor.copies = s.nor.copies ∧ t.link.slotId = s.link.slotPins ∧
      t.pats = tmap s.pats (fun _ p => unstage p) ∧ t.rings = [] ∧ t.tenants = [] ∧ t.reqs = []) ∧
    (∀ (env : StartEnv) (fmt : Nat) (changed : BitVec 16),
      (startRuns s = true → ∃ (t : State) (r : StartRun), exec (.start env fmt changed) s = .next t ∧ t.dev.start = some r ∧
        r.t1 = s.clk.localTime ∧ t.dev.startDue = false ∧ t.dev.retryAt = none ∧ t.dev.state = s.dev.state ∧
        (env.overrun = some 1 → r.overrun = some 1 ∧ r.fail = none) ∧
        (env.overrun = none → r.overrun = none) ∧
        (env.overrun = none → fuseFault (readShadow s) = true → r.fail = some .fuseError)) ∧
      (startRuns s = false → exec (.start env fmt changed) s = .next s)) ∧
    (∀ r : StartRun, s.dev.start = some r →
      (r.fail = none → r.overrun = none → s.dev.latchDue = false → ∃ t : State, exec .startComplete s = .next t ∧
        t.dev.state = serviceState s ∧ t.dev.start = none ∧ t.pair.lastAdvance = s.clk.localTime ∧ t.pair.marks = [] ∧
        t.rings = s.rings ∧ t.queues = s.queues ∧ t.bar = s.bar) ∧
      (∀ x : Reason, r.fail = some x → s.nor.startFails < 3 → ∃ t : State, exec .startFailure s = .next t ∧
        t.nor.lastReason = x ∧ t.dev.start = none ∧
        (immediate x = true ∨ s.nor.startFails = 2 → t.nor.startFails = 3 ∧ t.dev.state = .halfMast ∧ t.dev.retryAt = none) ∧
        (immediate x = false → s.nor.startFails < 2 → t.nor.startFails = s.nor.startFails + 1 ∧ t.dev.state = s.dev.state ∧
          t.dev.retryAt = some (s.clk.localTime + (if x = .thermal ∨ x = .powerFeed then 1000000000 else 1000000)))) ∧
      (∀ row : Nat, r.fail = none → r.overrun = some row →
        (r.t1 + 2 * rowBound s row * 100000 ≤ s.clk.localTime →
          exec (.startStageTimeout row) s = .next (failStart .watchdog s)) ∧
        (s.clk.localTime < r.t1 + 2 * rowBound s row * 100000 → exec (.startStageTimeout row) s = .next s))) ∧
    (∀ t0 : Tick, s.dev.retryAt = some t0 →
      (t0 ≤ s.clk.localTime → exec .startRetry s = .next { s with dev := { s.dev with retryAt := none, startDue := true } }) ∧
      (s.clk.localTime < t0 → exec .startRetry s = .next s)) ∧
    (∀ t0 : Tick, s.dev.serviceSince = some t0 → serving s = true →
      (t0 + 6000000000 ≤ s.clk.localTime →
        exec .startFailsClear s = .next { s with nor := { s.nor with startFails := 0, lastReason := .none } }) ∧
      (s.clk.localTime < t0 + 6000000000 → exec .startFailsClear s = .next s))

/-! ### The link, the latch, the clocks -/

/-- PERST# asserted, a Hot Reset, Link Disable and a Function Level Reset reset the module, and the link stays up in the last alone;
Bus Master Enable returns to 0; RESET_SOURCE is 1, and 6 for a Function Level Reset. PERST# released samples SLOT_ID; a link
comes up at a speed and width it has. -/
def Obligations.LinkResets : Prop :=
  ∀ s : State,
    (∀ (i : Instr) (up disabled : Bool) (source : Nat),
      (i = .hotReset ∧ up = false ∧ disabled = false ∧ source = 1) ∨
      (i = .linkDisable ∧ up = false ∧ disabled = true ∧ source = 1) ∨
      (i = .functionLevelReset ∧ up = true ∧ disabled = false ∧ source = 6) →
      (hubOn s = true → s.link.up = true → exec i s = .next { moduleReset source s with
        link := { (moduleReset source s).link with
          up := up, busMaster := false, disabled := disabled || s.link.disabled },
        dev := { (moduleReset source s).dev with on := true } }) ∧
      (hubOn s = false ∨ s.link.up = false → exec i s = .next s)) ∧
    (s.link.perst = false → s.clk.sclk = true → ∃ t : State, exec .perstAssert s = .next t ∧ t.link.perst = true ∧
      t.link.up = false ∧ t.link.busMaster = false ∧ t.dev.resetSource = 1 ∧ t.dev.state = .booting ∧ t.dev.startDue = true ∧
      t.rings = [] ∧ t.reqs = [] ∧ t.clk.localTime = s.clk.localTime ∧ t.pending = s.pending) ∧
    (s.link.perst = false → s.clk.sclk = false →
      exec .perstAssert s = .next { s with link := { s.link with perst := true, up := false } }) ∧
    (s.link.perst = true → exec .perstAssert s = .next s ∧ exec .perstDeassert s = .next { s with link :=
      { s.link with perst := false, slotId := if s.clk.sclk then s.link.slotPins else s.link.slotId } }) ∧
    (∀ speed width : Nat,
      (hubOn s = true → s.link.perst = false → s.link.up = false → 1 ≤ speed → speed ≤ 5 →
        width = 1 ∨ width = 2 ∨ width = 4 ∨ width = 8 → exec (.linkUp speed width) s = .next { s with link :=
          { s.link with up := true, disabled := false, speed := speed, width := width } }) ∧
      (speed = 0 ∨ 5 < speed ∨ s.link.perst = true → exec (.linkUp speed width) s = .next s))

/-- Entry to D3hot of a serving module acts as SHUTDOWN with MODE ABORT; it is taken once nothing is outstanding, or 10 ms later, with
nothing left; leaving it is a Function Level Reset. Bus Master Enable at 0 stops memory requests; at 1 the pending messages with
unmasked vectors go out. -/
def Obligations.PowerStates : Prop :=
  ∀ s : State, hubOn s = true →
    (s.link.up = true → s.link.dstate = .d0 →
      (serving s = true → s.dev.stopping = none → exec .d3hotEntry s = .next (beginStop .d3hot true
        { s with link := { s.link with dstate := .entering s.clk.localTime } })) ∧
      (s.dev.state = .booting ∨ s.dev.state = .shutdown ∨ s.dev.stopping.isSome = true → exec .d3hotEntry s =
        .next { s with link := { s.link with dstate := .entering s.clk.localTime } })) ∧
    (∀ t0 : Tick, s.link.dstate = .entering t0 →
      (stopQuiet s 0 = true ∨ t0 + 1000000 ≤ s.clk.localTime → ∃ t : State, exec .d3hotTaken s = .next t ∧
        t.link.dstate = .d3hot ∧ t.cmds = [] ∧ t.reqs = [] ∧ t.reads = [] ∧ t.arb.cands = [] ∧ t.dev.stopping = none ∧
        (s.dev.state ≠ .booting → t.dev.state = .shutdown) ∧ replyLog t = replyLog s) ∧
      (stopQuiet s 0 = false → s.clk.localTime < t0 + 1000000 → exec .d3hotTaken s = .next s)) ∧
    (s.link.up = true → s.link.dstate ≠ .d0 → ∃ t : State, exec .d3hotExit s = .next t ∧ t.link.dstate = .d0 ∧
      t.link.up = true ∧ t.link.busMaster = false ∧ t.dev.resetSource = 6 ∧ t.dev.state = .booting) ∧
    (s.link.up = true →
      exec .busMasterDisable s = .next { s with link := { s.link with busMaster := false } } ∧
      exec .busMasterEnable s = .next
        { s with
          link := { s.link with busMaster := true, pba := s.link.pba.filter fun v => vectorMasked s v },
          tx := s.tx ++ (s.link.pba.filter fun v => !vectorMasked s v).map .msix })

/-- The latch opened on a serving module acts as SHUTDOWN with MODE ABORT, in BOOTING and UPDATING later, in HALF_MAST and SHUTDOWN not
at all; closing it undoes nothing. Slot pins that change are recorded and SLOT_ID stays. The loss of SYSPLL's lock begins a sweep
with DEADLINE_FALLBACK and cause 2 and then a reset; the loss of REFCLK stops SCLK and LOCAL_TIME. -/
def Obligations.LatchPinsClocks : Prop :=
  ∀ s : State,
    (s.link.latchOpen = false → hubOn s = true →
      let t : State := { s with link := { s.link with latchOpen := true }, health := { s.health with alert := true } }
      (serving s = true → s.dev.stopping = none → exec .latchOpen s = .next (beginStop .latch true t)) ∧
      (s.dev.state = .updating ∨ s.dev.state = .booting →
        exec .latchOpen s = .next { t with dev := { s.dev with latchDue := true } }) ∧
      (s.dev.state = .halfMast ∨ s.dev.state = .shutdown → exec .latchOpen s = .next t)) ∧
    (s.link.latchOpen = true → exec .latchClose s = .next { s with
      link := { s.link with latchOpen := false }, health := { s.health with alert := s.health.alert || s.clk.sclk } }) ∧
    (∀ pins : BitVec 4, pins ≠ s.link.slotPins → hubOn s = true → ∃ t : State, exec (.slotIdChange pins) s = .next t ∧
      t.link = { s.link with slotPins := pins } ∧ { t with link := s.link, bob := s.bob } = s) ∧
    (hubOn s = true → s.clk.syspll = true → exec .syspllLockLoss s = .next (sweep .deadlineFallback 2 (.resetModule 4)
      (signalDying 4 { s with clk := { s.clk with syspll := false } }))) ∧
    (s.clk.sclk = true → exec .refclkFail s = .next { s with
      clk := { s.clk with sclk := false, syspll := false }, sent := { s.sent with alive := false } })

/-- PROGRESS advances when all five processors have posted; a bound module without an advance for 1,200 ticks is wedged and DYING; an
unbound one in service without an advance for 100 ms begins a sweep with CANCELLED and DETAIL 4 and then a reset. -/
def Obligations.Liveness : Prop :=
  ∀ s : State, hubOn s = true →
    (∀ k : Nat, s.clk.syspll = true → k ≤ 4 → s.pair.marks.contains k = false →
      (s.pair.marks.length = 4 → exec (.livenessMark k) s = .next { s with pair :=
        { s.pair with progress := s.pair.progress + 1, marks := [], lastAdvance := s.clk.localTime } }) ∧
      (s.pair.marks.length < 4 → exec (.livenessMark k) s = .next { s with pair :=
        { s.pair with marks := s.pair.marks ++ [k] } })) ∧
    (bound s = true → s.pair.wedged = false →
      (s.pair.lastAdvance + 1200 ≤ s.clk.localTime → exec .wedge s = .next (signalDying 5 (bobPost 0x16 0x001A (stalled s)
        { s with pair := { s.pair with wedged := true } }))) ∧
      (s.clk.localTime < s.pair.lastAdvance + 1200 → exec .wedge s = .next s)) ∧
    (bound s = false → serving s = true → s.sent.sweep = none →
      (s.pair.lastAdvance + 10000000 ≤ s.clk.localTime →
        exec .watchdogReset s = .next (sweep .cancelled 4 (.resetModule 5) s)) ∧
      (s.clk.localTime < s.pair.lastAdvance + 10000000 → exec .watchdogReset s = .next s))

/-! ### Halyards and records -/

/-- HEARTBEAT_SEND sends a frame on each halyard every 400 ticks while bound; a valid frame of either halyard is heard with its
PROGRESS and the sender's ROLE, and DYING is recorded with its cause; a frame with a wrong CRC changes nothing; a standby whose
partner is lost takes over, is ACTIVE in SOLO, and arms the mirrored entries that are not final. -/
def Obligations.Halyards : Prop :=
  ∀ s : State,
    (s.clk.sclk = true → bound s = true → s.pair.nextBeat ≤ s.clk.localTime → s.pair.awaiting = [] → ∃ t : State,
      exec .heartbeatSend s = .next t ∧ t.pair = { s.pair with nextBeat := s.pair.nextBeat + 400 } ∧
      t.tx = s.tx ++ (if s.pair.linkUp && opticsOn s then [.halyardA (frameA s)] else []) ++ [.halyardB (frameB s) false] ∧
      { t with pair := s.pair, tx := s.tx } = s) ∧
    (∀ f : BitVec 256, hubOn s = true → bound s = true → s.pair.linkUp = true →
      (crc32c 28 (f.toNat % 2 ^ 224) ≠ bytesAt f 0x1C 4 → exec (.halyardAFrameRx f) s = .next s) ∧
      (crc32c 28 (f.toNat % 2 ^ 224) = bytesAt f 0x1C 4 → bytesAt f 4 4 = s.pair.pairId.toNat →
        s.pair.role = .active → bytesAt f 3 1 ≠ 0 → (bytesAt f 1 1).testBit 0 = true → s.pair.partnerDying = false →
        ∃ t : State, exec (.halyardAFrameRx f) s = .next t ∧ t.pair.partnerDying = true ∧ t.pair.lastCause = bytesAt f 2 1 ∧
        t.pair.partnerRole = roleOf (bitsOf (bytesAt f 1 1) 3 2) ∧
        t.pair.heardA.head? = some (s.clk.localTime, bytesAt f 0x10 8) ∧ t.pair.heardB = s.pair.heardB ∧
        { t with pair := s.pair, bob := s.bob, free := s.free } = s)) ∧
    (∀ (n : Nat) (l : List (Bool × Byte)) (f : BitVec 128), frameOf n l = some f → hubOn s = true → bound s = true →
      (crc32c 12 (f.toNat % 2 ^ 96) ≠ bytesAt f 0xC 4 → exec (.halyardBFrameRx n l) s = .next s) ∧
      (crc32c 12 (f.toNat % 2 ^ 96) = bytesAt f 0xC 4 → bytesAt f 2 2 = s.pair.pairId.toNat % 2 ^ 16 →
        (bytesAt f 0 1).testBit 1 = false → (bytesAt f 0 1).testBit 0 = false →
        exec (.halyardBFrameRx n l) s = .next { s with pair := { s.pair with
          heardB := (s.clk.localTime, bytesAt f 4 4) :: s.pair.heardB.filter (fun e => decide (s.clk.localTime ≤ e.1 + 1200)),
          partnerRole := roleOf (bitsOf (bytesAt f 0 1) 3 2) } })) ∧
    (hubOn s = true → partnerGone s = true → s.pair.dyingSent = none → s.pair.mode = .activeStandby →
      (s.pair.role = .standby → ∃ t : State, exec .partnerLost s = .next t ∧ t.pair.role = .active ∧ t.pair.mode = .solo ∧
        t.pair.lastTakeover = s.clk.localTime ∧ t.pair.results = [] ∧ t.pair.setups = [] ∧
        (∀ (slot : Nat) (e : SEntry), tget s.sent.entries slot = some e → e.mirror = true → e.final = false → s.pair.awaiting = [] →
          ∃ x : SEntry, tget t.sent.entries slot = some x ∧ x.armed = true ∧ x.fallback = e.fallback.map (convertTick s))) ∧
      (s.pair.role = .active → ∃ t : State, exec .partnerLost s = .next t ∧ t.pair.role = .active ∧ t.pair.mode = .solo ∧
        t.pair.resilver = none ∧ t.pair.switching = none ∧ t.pair.unacked = []))

/-- A BUDGET record later than the copy held is applied and acknowledged; of any kind, one equal to the copy is acknowledged again, an
earlier one and one with a wrong tag or CRC ignored, and one for an object that a phase of RESILVERING still to come copies waits;
an acknowledgement takes its record off those waited for, and 12 µs without one make the pair DEGRADED; the
report of an applied SETUP record lets the reply go that waits for it. The mirror link lost, with progress on Halyard B, makes an
ACTIVE/STANDBY pair DEGRADED; it comes up where its transceiver is powered. A half's recovery window closes with its pricking
stores rebuilt. -/
def Obligations.Records : Prop :=
  ∀ s : State,
    (∀ (r : Record) (n : Nat) (k : BitVec 32),
      (r.tagOk = false ∨ r.crcOk = false ∨ intakeOpen s = false → exec (.mirrorRecordRx r) s = .next s) ∧
      (r.tagOk = true → r.crcOk = true → burgeeFits s r.burgee = true → intakeOpen s = true → s.pair.awaiting = [] →
        waitsForPhase s r = true → exec (.mirrorRecordRx r) s =
          .next { s with pair := { s.pair with waiting := s.pair.waiting ++ [r] } }) ∧
      (r.tagOk = true → r.crcOk = true → burgeeFits s r.burgee = true → intakeOpen s = true → s.pair.awaiting = [] →
        waitsForPhase s r = false → tget s.pair.held (objKey (recKind r.body) r.key) = some (n, k) →
        (r.commitSeq < n → exec (.mirrorRecordRx r) s = .next s) ∧
        (r.commitSeq = n → k = r.crc → exec (.mirrorRecordRx r) s = .next { s with tx := s.tx ++ [.ack n] }) ∧
        (n < r.commitSeq → ∀ (b : Int) (w : Nat), r.body = .budget b w → exec (.mirrorRecordRx r) s = .next { s with
          tx := s.tx ++ [.ack r.commitSeq],
          pair := { s.pair with held := tset s.pair.held (objKey 7 r.key) (r.commitSeq, r.crc),
                                commitSeq := max s.pair.commitSeq r.commitSeq },
          accts := tmod s.accts r.key (fun a => { a with balance := b, window := w }) }))) ∧
    (∀ (n : Nat) (u : Unacked), s.pair.unacked.find? (fun u => u.commitSeq = n) = some u → u.onAck = none → u.fence = none →
      s.pair.switching = none → exec (.recordAckRx n) s =
        .next { s with pair := { s.pair with unacked := s.pair.unacked.filter fun x => x.commitSeq != n } }) ∧
    (s.pair.mode = .activeStandby → s.pair.role = .active →
      ((∃ u ∈ s.pair.unacked, u.tick + 1200 ≤ s.clk.localTime) → ∃ t : State, exec .recordAckTimeout s = .next t ∧
        t.pair.mode = .degraded ∧ t.pair.role = .active ∧ t.pair.unacked = []) ∧
      ((∀ u ∈ s.pair.unacked, s.clk.localTime < u.tick + 1200) → exec .recordAckTimeout s = .next s)) ∧
    (∀ (cid : Nat) (c : Cmd) (k : Cand), s.pair.awaiting.find? (fun w => w.1 = cid) = some (cid, k) → k.target = .cmd cid →
      tget s.cmds cid = some c → holdsCopy s = false → s.pair.switching = none →
      exec (.setupAppliedReport cid true) s = .next { s with
        pair := { s.pair with awaiting := s.pair.awaiting.filter fun x => x.1 != cid },
        arb := { s.arb with cands := s.arb.cands ++ [{ k with tick := arrival s k.queue }] } }) ∧
    (s.pair.mode = .activeStandby → s.pair.role = .standby → progressing s.pair.heardB s.clk.localTime = true →
      (∀ e ∈ s.reqs, e.2.lent = false) → ∃ t : State, exec .mirrorLinkLost s = .next t ∧ t.pair.mode = .degraded ∧ t.pair.linkUp = false ∧
      { t with pair := s.pair, arb := s.arb, health := s.health } = s) ∧
    (s.pair.mode ≠ .activeStandby → exec .mirrorLinkLost s = .next { s with pair := { s.pair with linkUp := false } }) ∧
    (hubOn s = true → opticsOn s = true → exec .mirrorLinkUp s = .next { s with pair := { s.pair with linkUp := true } }) ∧
    (opticsOn s = false → exec .mirrorLinkUp s = .next s) ∧
    (∀ h : Nat, (halfOf s h).window = true → exec (.recoveryWindowClose h) s =
      .next { s with halves := s.halves.set h (stockPricks s h { halfOf s h with window := false, diagonal := diagonalTile }) })

/-! ### Power -/

/-- A feed that comes back clears its summary bit; one of two that is lost sets its own; the loss of the second begins hold-up, ends
DEBUG_OPENED, zeroes the keys of a bound module and sweeps with POWER_ABORT; hold-up ends after 2 ms in a start, or with the module off. Above 1,450 W every core
steps down; the controller lowers the core of the highest power, one each 100 µs until the mean is below the cap, and raises the most throttled one after 10 ms below the cap. -/
def Obligations.Power : Prop :=
  ∀ s : State,
    (∀ (b : Bool) (mv : Nat), (feedOf s b).present = false → 48000 ≤ mv → mv ≤ 58000 → ∃ t : State,
      exec (.feedPresent b mv) s = .next t ∧ feedOf t b = { present := true, mv := mv } ∧ feedOf t (!b) = feedOf s (!b) ∧
      (s.clk.sclk = true → t.health.bits.getLsbD (bit b) = false) ∧
      { t with power := s.power, arb := s.arb, health := s.health } = s) ∧
    (∀ (b : Bool) (mv : Nat), (feedOf s b).present = true →
      ((feedOf s !b).present = true → ∃ t : State, exec (.feedLost b mv) s = .next t ∧
        feedOf t b = { present := false, mv := 0 } ∧ feedOf t (!b) = { present := true, mv := mv } ∧
        (s.clk.sclk = true → t.health.bits.getLsbD (bit b) = true) ∧ t.power.holdUp = s.power.holdUp ∧
        { t with power := s.power, arb := s.arb, health := s.health } = s) ∧
      ((feedOf s !b).present = false → s.power.holdUp = none → hubOn s = true → ∃ u : State,
        exec (.feedLost b mv) s = .next (sweep .powerAbort 0 .nothing (if bound s then zeroAllKeys (signalDying 1 u) else u)) ∧
        u.power.holdUp = some s.clk.localTime ∧ u.sec.debugOpened = false ∧ u.sec.jtagOpen = false ∧
        { u with power := s.power, sec := s.sec, arb := s.arb, health := s.health } = s)) ∧
    (∀ t0 : Tick, s.power.holdUp = some t0 →
      (s.clk.sclk = true → s.clk.localTime < t0 + 200000 → exec .holdUpEnd s = .next s) ∧
      (s.clk.sclk = true → t0 + 200000 ≤ s.clk.localTime → s.power.feedA.present = true ∨ s.power.feedB.present = true →
        ∃ t : State, exec .holdUpEnd s = .next t ∧ t.power.holdUp = none ∧ t.dev.on = true ∧ t.dev.resetSource = 0 ∧
        t.dev.startDue = true ∧ t.dev.state = .booting ∧ t.clk.localTime = s.clk.localTime) ∧
      (t0 + 200000 ≤ s.clk.localTime → s.power.feedA.present = false → s.power.feedB.present = false → ∃ t : State,
        exec .holdUpEnd s = .next t ∧ t.dev.on = false ∧ t.clk.sclk = false ∧ t.link.up = false ∧ t.fuses = s.fuses)) ∧
    (∀ (mw : Nat) (coreW blockW : List Nat) (mv : Nat × Nat), hubOn s = true → s.cores.length = 8 → ∃ t : State,
      exec (.powerWindow false mw coreW blockW mv) s = .next t ∧ t.power.pFast = mw ∧ t.power.coreW = coreW ∧
      ∀ k : Nat, k < 8 → (coreOf t k).ceiling = (coreOf s k).ceiling ∧ (coreOf t k).powerDiv =
        if 1450000 < mw then slower (divider (coreOf s k)) else (coreOf s k).powerDiv) ∧
    (∀ (mw : Nat) (coreW blockW : List Nat) (mv : Nat × Nat), hubOn s = true → ∃ t : State,
      exec (.powerWindow true mw coreW blockW mv) s = .next t ∧ t.power.pSlow = mw ∧
      t.power.overs = (if s.power.capMw < mw then s.power.overs + 1 else 0) ∧
      (7 ≤ t.power.overs → t.power.stepping = true) ∧ (mw + 50000 < s.power.capMw ↔ t.power.underSince.isSome = true) ∧
      { t with power := s.power } = s) ∧
    (∀ mean : Nat, hubOn s = true → s.power.stepping = true →
      (mean < s.power.capMw → exec (.powerStepDown mean) s =
        .next { s with power := { s.power with stepping := false, steppedAt := none, overs := 0 } }) ∧
      (∀ t0 : Tick, s.power.capMw ≤ mean → s.power.steppedAt = some t0 → s.clk.localTime < t0 + 10000 →
        exec (.powerStepDown mean) s = .next s) ∧
      (∀ k : Nat, s.power.capMw ≤ mean → (∀ t0 : Tick, s.power.steppedAt = some t0 → t0 + 10000 ≤ s.clk.localTime) →
        hungriest s = some k → exec (.powerStepDown mean) s = .next (refreshThrottled (stepDown k
          { s with power := { s.power with steppedAt := some s.clk.localTime } })) ∧ k < 8 ∧ divider (coreOf s k) ≠ 8 ∧
        ∀ j : Nat, j < 8 → divider (coreOf s j) ≠ 8 → s.power.coreW.getD j 0 ≤ s.power.coreW.getD k 0)) ∧
    (∀ t0 : Tick, s.power.underSince = some t0 → hubOn s = true →
      (s.clk.localTime < t0 + 1000000 → exec .powerStepUp s = .next s) ∧
      (∀ k : Nat, t0 + 1000000 ≤ s.clk.localTime → mostThrottled s = some k → exec .powerStepUp s = .next (refreshThrottled
          (stepUp k { s with power := { s.power with underSince := some s.clk.localTime } })) ∧
        k < 8 ∧ 4 < (coreOf s k).powerDiv ∧
        ∀ j : Nat, j < 8 → 4 < (coreOf s j).powerDiv → divider (coreOf s j) ≤ divider (coreOf s k)))

/-! ### Thermal control -/

/-- A die sensor at or above 115 °C trips the module; otherwise each core's ceiling follows its Tj and never rises here, and a core at
or above 110 °C halts. It comes back by its release, one step or from a halt at ÷6. Flow that stops within 50 ms is a coolant
stop; the power cap follows the mean flow, and below 1.2 L/min an orderly shutdown begins. -/
def Obligations.ThermalControl : Prop :=
  ∀ s : State,
    (∀ raw : List (Option Int), s.clk.sclk = true → s.thermal.tripped = none →
      (∀ i : Nat, tripSensor (takeReadings raw s) = some i → s.dev.on = true → (∀ e ∈ s.reqs, e.2.lent = false) → ∃ t : State,
        exec (.sensorSample raw) s = .next t ∧ t.thermal.tripped = some i ∧ t.sent.sweep = some .cutHub ∧
        t.cores = s.cores) ∧
      (tripSensor (takeReadings raw s) = none → s.dev.state = .halfMast ∨ s.dev.state = .shutdown →
        exec (.sensorSample raw) s = .next (takeReadings raw s)) ∧
      (tripSensor (takeReadings raw s) = none → s.dev.on = true → serving s = true → s.cores.length = 8 → ∃ t : State,
        exec (.sensorSample raw) s = .next t ∧ t.thermal.sensors = (takeReadings raw s).thermal.sensors ∧
        ∀ k : Nat, k < 8 → (coreOf t k).ceiling = max (coreOf s k).ceiling (ceilingFor (coreOf t k).tj) ∧
          (coreOf t k).powerDiv = (coreOf s k).powerDiv ∧ (7040 ≤ (coreOf t k).tj → (coreOf t k).halted.isSome = true))) ∧
    (∀ (k : Nat) (t0 : Tick), k < 8 → s.cores.length = 8 → (coreOf s k).below = some t0 →
      ((coreOf s k).halted = some .tj → t0 + 10000000 ≤ s.clk.localTime → ∃ t : State,
        exec (.throttleRelease k) s = .next t ∧ (coreOf t k).halted = none ∧ (coreOf t k).ceiling = 6) ∧
      ((coreOf s k).halted ≠ some .tj → t0 + 1000000 ≤ s.clk.localTime → ∃ t : State,
        exec (.throttleRelease k) s = .next t ∧ (coreOf t k).ceiling = faster (coreOf s k).ceiling ∧
        (coreOf t k).halted = (coreOf s k).halted) ∧
      (s.clk.localTime < t0 + 1000000 → exec (.throttleRelease k) s = .next s)) ∧
    (∀ pi : Nat, hubOn s = true → exec (.migrationReturn pi) s = .next { s with
      pats := tmod s.pats pi (fun p => { p with migrated := p.migrated.filter fun e => !canReturn s pi e.1 e.2 }) }) ∧
    (∀ f : Nat, hubOn s = true → f ≤ 6000 →
      (flowStops s f = false → exec (.flowSample (some f)) s = .next { s with thermal := { s.thermal with
        sensors := s.thermal.sensors.set 0x32 (some (f : Int)),
        flows := ((s.clk.localTime, f) :: s.thermal.flows).filter fun e => decide (s.clk.localTime ≤ e.1 + 5000000) } }) ∧
      (flowStops s f = true → flowGoverned s = true → s.thermal.hold = none → ∃ t : State,
        exec (.flowSample (some f)) s = .next t ∧ t.thermal.drain = none ∧
        t.thermal.hold = some { t0 := s.clk.localTime, bound := bound s, okSince := none })) ∧
    (∀ f : Nat, hubOn s = true → serving s = true →
      (1200 ≤ f → ∃ t : State, exec (.flowCapUpdate f) s = .next t ∧
        t.power = { s.power with capMw := if 2000 ≤ f then 1300000 else 600000 + (f - 1200) * 875 } ∧
        t.health.bits.getLsbD 2 = decide (f < 2000) ∧ t.cores = s.cores ∧ t.reqs = s.reqs) ∧
      (f < 1200 → s.thermal.hold = none → s.thermal.drain = none → s.thermal.tripped = none → ∃ t : State,
        exec (.flowCapUpdate f) s = .next t ∧ t.thermal.drain = some s.clk.localTime ∧
        t.dev.stopping = some (s.dev.stopping.getD .flow)))

/-- The drain of an orderly shutdown ends in DEVICE_STATE SHUTDOWN; a coolant hold ends where the mean flow has stayed for 1 s within
10 s, and at 10 s becomes an orderly shutdown. A droop stretches its core's clock for 32 cycles; a 1 s window keeps each core's
supply and slack and sets MARGIN_WARN and MARGIN_ACT where a value lies below its threshold; optical samples are kept. -/
def Obligations.CoolantAndMargins : Prop :=
  ∀ s : State,
    (∀ t0 : Tick, s.thermal.drain = some t0 → hubOn s = true →
      (drainOver s t0 = true → ∃ t : State, exec .orderlyShutdownDrainEnd s = .next t ∧ t.dev.state = .shutdown ∧
        t.thermal.drain = none ∧ t.thermal.hold = none) ∧
      (drainOver s t0 = false → exec .orderlyShutdownDrainEnd s = .next s)) ∧
    (∀ (h : Hold) (t0 : Tick), s.thermal.hold = some h → hubOn s = true →
      (h.okSince = some t0 → s.thermal.drain = none → t0 + 100000000 ≤ s.clk.localTime →
        s.clk.localTime ≤ h.t0 + 1000000000 → ∃ t : State, exec .coolantHoldEnd s = .next t ∧ t.thermal.hold = none ∧
        t.reqs = s.reqs ∧ (serving s = true → t.dev.state = serviceState s)) ∧
      (h.okSince = none → exec .coolantHoldEnd s = .next s) ∧
      (h.t0 + 1000000000 ≤ s.clk.localTime → exec .coolantHoldTimeout s = .next (orderlyShutdown s)) ∧
      (s.clk.localTime < h.t0 + 1000000000 → exec .coolantHoldTimeout s = .next s)) ∧
    (∀ k : Nat, hubOn s = true → (coreOf s k).halted = none → exec (.droopStretch k) s = .next { s with
      cores := s.cores.set k { coreOf s k with stretches := (coreOf s k).stretches + 1, stretchCycles := 32 } }) ∧
    (∀ supply slack : List Nat, hubOn s = true → s.cores.length = 8 → supply.length = 8 → slack.length = 8 → ∃ t : State,
      exec (.marginWindowEnd supply slack) s = .next t ∧
      (∀ k : Nat, k < 8 → (coreOf t k).supplyMv = supply.getD k 0 ∧ (coreOf t k).slackPs = slack.getD k 0 ∧
        (coreOf t k).stretchLast = (coreOf s k).stretches ∧ (coreOf t k).stretches = 0) ∧
      ((∃ v ∈ supply, v < 705) ∨ (∃ v ∈ slack, v < 25) → t.health.bits.getLsbD 7 = true) ∧
      ((∃ v ∈ supply, v < 690) ∨ (∃ v ∈ slack, v < 10) → t.health.bits.getLsbD 8 = true) ∧
      { t with cores := s.cores, health := s.health, arb := s.arb } = s) ∧
    (∀ tx rx : List Int, hubOn s = true → opticsOn s = true → ∃ t : State, exec (.opticalSample tx rx) s = .next t ∧
      t.health.margins.tx = tx ∧ t.health.margins.rx = rx ∧ t.health.bits = s.health.bits ∧ { t with health := s.health } = s)

/-! ### Memory -/

/-- LPDDR4X channels: refresh leaves contents alone; a retraining during it that is good ends the count of failures, a second failure in
succession and a PHY fault take the channel out of service, with a half fault where fewer than 56 are left; a half serves again once its map is rebuilt; the 3,600 s window's end clears the
counts, and ECC_WARN where the window stayed below its bound. -/
def Obligations.Channels : Prop :=
  ∀ (ch : Nat) (s : State),
    (s.clk.sclk = true → s.mem.inService.getLsbD ch = true → exec (.lpddrRefresh ch) s =
      .next (modChannel ch (fun c => { c with refreshAt := s.clk.localTime }) s)) ∧
    (s.mem.inService.getLsbD ch = false → exec (.lpddrRefresh ch) s = .next s) ∧
    (refreshing s ch = false → ∀ (ok : Bool) (eye : Option (Nat × Nat)), exec (.retraining ch ok eye) s = .next s) ∧
    (channelRuns s ch = true → refreshing s ch = true →
      exec (.retraining ch true none) s = .next (modChannel ch (fun c => { c with retrainFails := 0 }) s) ∧
      ((chanOf s ch).retrainFails = 0 → exec (.retraining ch false none) s =
        .next (modChannel ch (fun c => { c with retrainFails := 1 }) s))) ∧
    (∀ i : Instr, channelRuns s ch = true →
      (i = .retraining ch false none ∧ 1 ≤ (chanOf s ch).retrainFails ∧ refreshing s ch = true) ∨ i = .channelPhyFault ch →
      ∃ t : State, exec i s = .next t ∧ t.mem.inService.getLsbD ch = false ∧
        (56 < channelsIn s (ch / 64) → t.mem.inService = s.mem.inService &&& ~~~ BitVec.twoPow 128 ch) ∧
        (channelsIn s (ch / 64) ≤ 56 → s.halves.length = 2 → (halfOf t (ch / 64)).faulted = true) ∧
        (∀ (k : Nat) (q : Sequence), tget s.seqs k = some q → 0 < seqPages s k (ch / 64) → q.st ≠ .closing →
          (tget t.seqs k).map (·.st) = some .broken)) ∧
    (channelRuns s ch = false → exec (.channelPhyFault ch) s = .next s) ∧
    (∀ h : Nat, (halfOf s h).rebuilding = true → h < 2 → s.halves.length = 2 → ∃ t : State,
      exec (.halfMapRebuilt h) s = .next t ∧ (halfOf t h).rebuilding = false ∧
      (halfOf t (1 - h)).rebuilding = (halfOf s (1 - h)).rebuilding ∧ (∀ k : Nat, k < 2 → (halfOf t k).faulted = (halfOf s k).faulted ∧
        (halfOf t k).heldBy = (halfOf s k).heldBy ∧ (halfOf t k).window = (halfOf s k).window) ∧ t.mem = s.mem) ∧
    (hubOn s = true →
      (s.mem.eccWindow + 360000000000 ≤ s.clk.localTime → ∃ t : State, exec .eccWindowEnd s = .next t ∧
        (∀ c : Channel, tget t.mem.channels ch = some c → c.corrected = 0 ∧ c.uncorrectable = 0) ∧
        t.mem.eccWindow = windowStart s.clk.localTime ∧ t.mem.eccClean = true ∧ t.mem.badLines = s.mem.badLines ∧
        (s.mem.eccClean = true → t.health.bits.getLsbD 9 = false)) ∧
      (s.clk.localTime < s.mem.eccWindow + 360000000000 → exec .eccWindowEnd s = .next s))

/-- Errors: a clean result changes nothing; a corrected one, of one symbol in LPDDR4X, is counted; an uncorrectable one, of two or three
symbols, of another line or of a line that is bad already, is recorded, and damages the pattern, the sentinel entry or the committed
sequence it strikes; a repair takes a line of a staged pattern off those that are bad; an access that meets an error ends the command
concerned; a fault of a die link or half takes the half out of service with what it held, and the bridge's leaves the module
DEGRADED. -/
def Obligations.Errors : Prop :=
  ∀ s : State,
    (∀ ch line : Nat, channelRuns s ch = true → looped s 1 ch = false →
      ((ch, line) ∉ s.mem.badLines → exec (.lpddrScrub ch line { symbols := 0, wrongLine := false }) s = .next s) ∧
      ((ch, line) ∉ s.mem.badLines → (chanOf s ch).corrected < 64 →
        exec (.lpddrScrub ch line { symbols := 1, wrongLine := false }) s = .next (tally 0x0030 ch 1
          (modChannel ch (fun c => { c with corrected := c.corrected + 1 }) s))) ∧
      ((ch, line) ∉ s.mem.badLines → (chanOf s ch).corrected = 64 → ∃ t : State,
        exec (.lpddrScrub ch line { symbols := 1, wrongLine := false }) s = .next t ∧
        t.health.bits.getLsbD 9 = true ∧ t.mem.eccClean = false) ∧
      (∀ r : LineRead, r.symbols = 2 ∨ r.symbols = 3 ∨ r.wrongLine = true ∨ (ch, line) ∈ s.mem.badLines →
        (chanOf s ch).uncorrectable < 16 → ∃ t : State, exec (.lpddrScrub ch line r) s = .next t ∧
        (chanOf t ch).uncorrectable = (chanOf s ch).uncorrectable + 1 ∧ (ch, line) ∈ t.mem.badLines ∧
        t.mem.inService = s.mem.inService)) ∧
    (∀ unit word : Nat, hubOn s = true →
      exec (.sramScrub unit word .clean none) s = .next s ∧
      exec (.sramScrub unit word .corrected none) s = .next (tally 0x0031 unit 1 s) ∧
      exec (.sramScrub unit word .uncorrectable none) s = .next (bobPost unit 0x0010 word s) ∧
      (∀ (slot : Nat) (e : SEntry), tget s.sent.entries slot = some e → ∃ t : State,
        exec (.sramScrub unit word .uncorrectable (some slot)) s = .next t ∧
        tget t.sent.entries slot = some { e with lost := true } ∧ { t with sent := s.sent, bob := s.bob } = s)) ∧
    (∀ (pi block : Nat) (p : Pattern) (heavy : Bool), tget s.pats pi = some p → diesOn s = true →
      looped s 5 (flashOf pi block) = false →
      exec (.flashPatrol pi block .clean heavy) s = .next s ∧
      exec (.flashPatrol pi block .corrected heavy) s = .next (tally 0x0032 (flashOf pi block) 1 s) ∧
      exec (.flashPatrol pi block .uncorrectable heavy) s = .next (bobPost 0x19 0x0010 block
        { s with pats := tset s.pats pi { p with damaged := some (ldpcEnd pi block) } })) ∧
    (∀ half unit arg : Nat,
      (repairable s (64 * half + unit) arg = true → exec (.eccRepairComplete half unit arg) s = .next { s with
        mem := { s.mem with badLines := s.mem.badLines.filter fun e => e != (64 * half + unit, arg) } }) ∧
      (repairable s (64 * half + unit) arg = false → exec (.eccRepairComplete half unit arg) s = .next s)) ∧
    (∀ (ch line i pos : Nat) (r : LineRead) (q : Sequence), hubOn s = true → r.symbols = 2 ∨ r.symbols = 3 ∨ r.wrongLine = true →
      tget s.seqs i = some q → pos < q.committed → q.st ≠ .closing → (chanOf s ch).uncorrectable < 16 → ∃ t : State,
      exec (.memoryErrorOnAccess none (.lpddr ch line r (.kv i pos))) s = .next t ∧
        (tget t.seqs i).map (·.st) = some .broken ∧ (ch, line) ∈ t.mem.badLines) ∧
    (∀ (cid : Nat) (c : Cmd), hubOn s = true → tget s.cmds cid = some c → c.phase ≠ .replied →
      (∀ unit : Nat, exec (.memoryErrorOnAccess none (.sramCorrected unit)) s = .next (tally 0x0031 unit 1 s)) ∧
      (∀ half page : Nat, exec (.memoryErrorOnAccess (some (.cmd cid)) (.pageOwner half page)) s =
        .next (bobPost (0x0A + half) 0x0014 page (refuse cid .accessDenied 3 (dropWork cid s)))) ∧
      (∀ half unit arg : Nat, exec (.memoryErrorOnAccess (some (.cmd cid)) (.uncorrectable 2 half unit arg .other)) s =
        .next (bobPost unit 0x0010 arg (refuse cid .dataError (2 * 2 ^ 28 + half % 16 * 2 ^ 24 + unit % 256 * 2 ^ 16)
          (dropWork cid s))))) ∧
    (∀ (h : Nat) (i : Instr), i = .halfFault h ∨ i = .dieLinkFault (.memory h) ∨ i = .dieLinkFault (.hub h) →
      diesOn s = true → h < 2 → s.halves.length = 2 → (halfOf s h).faulted = false → ∃ t : State,
      exec i s = .next t ∧ (halfOf t h).faulted = true ∧ (halfOf t h).store = [] ∧ (halfOf t (1 - h)).faulted = (halfOf s (1 - h)).faulted ∧
      (∀ e ∈ t.pages, e.1 / 2 ^ 21 ≠ h) ∧ (∀ e ∈ t.mem.data, e.1 / 2 ^ 37 ≠ h) ∧
      t.health.bits.getLsbD (5 + h) = true ∧ (serving s = true → t.dev.state = .degraded)) ∧
    (diesOn s = true → ∃ t : State, exec (.dieLinkFault .bridge) s = .next t ∧ t.health.bits.getLsbD 10 = true ∧
      (serving s = true → t.dev.state = .degraded) ∧ t.halves = s.halves)

/-! ### Halo rows -/

/-- A row that is due is written, header and payload, into the tail slot while the producer holds a credit, and waited for where it
holds none; the head row that is awaited is read and its credit goes back; another header is a fault that is recorded and flushes
the stage; an empty head is waited for; a frame's end makes every slot of its half EMPTY, and once every half of the stage has
flushed the next frame has the next number. (The numbering of paths is notes/assumptions 36.) -/
def Obligations.HaloRows : Prop :=
  ∀ s : State,
    (∀ (path frame row layer bytes data : Nat) (q : HaloPath), q = haloOf s path layer →
      runningFrame s (pathPattern path) (pathHalf path) = some frame → inOrder q row = true → rowDue s path row layer = true →
      (0 < q.credits → exec (.haloRowWrite path frame row layer bytes (pathDown path) data) s =
        .next (stopWait (pathPattern path) (producer s path) { s with
          halo := tset s.halo (haloKey path layer)
            { q with
              full := q.full ++ [{
                frame := frame, row := row, layer := layer, bytes := bytes, down := pathDown path,
                data := data % 2 ^ (8 * bytes) }],
              credits := q.credits - 1, last := some row } })) ∧
      (q.credits = 0 → exec (.haloRowWrite path frame row layer bytes (pathDown path) data) s =
        .next (waitOn (pathPattern path) (producer s path) s))) ∧
    (∀ (path frame row layer : Nat) (q : HaloPath), q = haloOf s path layer → patBusy s (pathPattern path) = true →
      coresClocked s = true → (coreOf s (consumer s path)).halted = none →
      (q.full = [] → runningFrame s (pathPattern path) (halfOfCore (consumer s path)) = some frame →
        exec (.haloRowRead path frame row layer) s = .next (waitOn (pathPattern path) (consumer s path) s)) ∧
      (∀ (r : HaloRow) (rest : List HaloRow), q.full = r :: rest → r.frame = frame → r.row = row → r.layer = layer →
        exec (.haloRowRead path frame row layer) s = .next (stopWait (pathPattern path) (consumer s path) { s with
          halo := tset s.halo (haloKey path layer) { q with full := rest, credits := q.credits + 1 } })) ∧
      (∀ (r : HaloRow) (rest : List HaloRow), q.full = r :: rest → r.frame ≠ frame ∨ r.row ≠ row ∨ r.layer ≠ layer →
        ∃ u : State, exec (.haloRowRead path frame row layer) s =
          .next (bobPost (consumer s path) 0x0013 (row % 2 ^ 16 + layer % 2 ^ 8 * 2 ^ 16) u) ∧
        (∀ e ∈ u.halo, pathPattern (e.1 / 256) = pathPattern path → pathHalf (e.1 / 256) ≠ 0 ∧ pathHalf (e.1 / 256) ≠ 1) ∧
        { u with reqs := s.reqs, arb := s.arb, svc := s.svc, halo := s.halo } = s)) ∧
    (∀ (pi h : Nat) (spent : List Nat) (lastRow : Bool) (g : Stage) (p : Pattern), tget s.stages (stageKey pi h) = some g →
      tget s.pats pi = some p →
      (g.flushed = false → g.began.isSome = true → frameOver s pi lastRow = true →
        exec (.frameEnd pi h spent lastRow) s = .next (nextFrame pi (flushHalf pi h { s with
          stages := tset s.stages (stageKey pi h) { g with heights := movedHeights p.plan h g spent lastRow, flushed := true } }))) ∧
      (g.flushed = true ∨ g.began = none ∨ frameOver s pi lastRow = false → exec (.frameEnd pi h spent lastRow) s = .next s) ∧
      (lastRow = false → movedHeights p.plan h g spent lastRow = g.heights) ∧
      ((∀ e ∈ s.stages, e.1 / 2 = pi → e.2.flushed = true) → stageKey pi h / 2 = pi → ∃ x : Stage,
        tget (nextFrame pi s).stages (stageKey pi h) = some x ∧ x.frame = (g.frame + 1) % 2 ^ 32 ∧ x.began = none ∧
        x.flushed = false))

/-! ### Service ports and trace -/

/-- The answer to an SMBus read: FLAGS, the fields, and the PEC of the whole transfer. -/
def smbAnswer (s : State) (code : Nat) (args : List Nat) (l : List (Nat × Nat)) : Tx :=
  .smbus (packLen l + 1) (pack l + pec (smbAddr s false :: code :: (if args.isEmpty then [] else args.length :: args) ++
    smbAddr s true :: packLen l :: bytesOf (packLen l) (pack l)) * 2 ^ (8 * packLen l))

/-- Each SMBus read answers its fields and changes nothing, but that STATE and a response to SMB_ALERT# release the alert; one whose
argument is out of range is refused. JTAG: a challenge, an unlock whose token verifies or an open port set DEBUG_OPENED; a failed
token bars challenges for 1 s; a fuse operation blows bits. Trace: samples and SYNC records come at their periods. -/
def Obligations.ServicePorts : Prop :=
  ∀ s : State,
    (s.clk.sclk = true →
      exec .smbusIdentity s = .next { s with tx := s.tx ++ [smbAnswer s 0x01 [] [(1, 0), (1, s.link.slotId.toNat),
        (1, lifecycleCode s), (1, bit s.link.latchOpen), (16, partNumber), (16, moduleSerial s), (8, fwVersion s)]] } ∧
      exec .smbusState s = .next { s with
        tx := s.tx ++ [smbAnswer s 0x02 [] [(1, 0), (8, (regRead 0x10 s).toNat), (8, (regRead 0x18 s).toNat),
          (8, (regRead 0x50 s).toNat), (8, (regRead 0x48 s).toNat), (8, (regRead 0x40 s).toNat)]],
        health := { s.health with alert := false } } ∧
      exec .smbusTime s = .next { s with tx := s.tx ++ [smbAnswer s 0x03 [] [(1, 0), (8, s.clk.localTime)]] } ∧
      (∀ first count : Nat, (first ≤ 0x33 → 1 ≤ count → count ≤ 64 → exec (.smbusSensors first count) s = .next { s with
          tx := s.tx ++ [smbAnswer s 0x10 [first, count] ((1, bit (partitioned s)) :: (List.range count).map fun i =>
            (2, if first + i ≤ 0x33 then sensorWord s (first + i) else 0x8000))] }) ∧
        (0x33 < first ∨ count = 0 ∨ 64 < count → exec (.smbusSensors first count) s =
          .next { s with tx := s.tx ++ [.smbusNak] })) ∧
      exec .smbusPower s = .next { s with tx := s.tx ++ [smbAnswer s 0x11 [] ([(1, bit (partitioned s)), (2, totalW s),
        (2, feedWord s s.power.feedA), (2, feedWord s s.power.feedB)] ++ (List.range 8).map fun k => (2, coreWatts s k))] } ∧
      (∀ unit start count : Nat, unit ≤ 0x1D → start ≤ 255 → 1 ≤ count → count ≤ 15 →
        exec (.smbusBobbin unit start count) s = .next { s with tx := s.tx ++ [smbAnswer s 0x20 [unit, start, count]
          ((1, bit (partitioned s)) :: bobRecords s unit start count)] }) ∧
      (s.health.alert = true → exec .smbusAlertResponse s = .next { s with
        tx := s.tx ++ [.smbus 2 (smbAddr s false + pec [0x19, smbAddr s false] * 256)],
        health := { s.health with alert := false } }) ∧
      (s.health.alert = false → exec .smbusAlertResponse s = .next s)) ∧
    (jtagRuns s = true →
      (authPolicy s = true → s.sec.challengeAt ≤ s.clk.localTime → exec .jtagChallenge s = .next { s with
        tx := s.tx ++ [.jtag ((Config.drbg s.sec.draws).setWidth 256)],
        sec := { s.sec with draws := s.sec.draws + 1, challenge := some ((Config.drbg s.sec.draws).setWidth 256) } }) ∧
      (∀ (root key sig : Nat) (ch : BitVec 256), authPolicy s = true → s.sec.challenge = some ch →
        ∃ t : State, exec (.jtagUnlock root key sig) s = .next t ∧ t.sec.challenge = none ∧
          (tokenGood s root (key % 2 ^ 15616) (sig % 2 ^ 26472) ch = true → t.sec.debugOpened = true ∧ t.sec.jtagOpen = true ∧
            t.sec.kem = none ∧
            ∀ (k : Nat) (x : Tenant), tget t.tenants k = some x → x.cur = none ∧ x.prev = none ∧ x.st ≠ .active) ∧
          (tokenGood s root (key % 2 ^ 15616) (sig % 2 ^ 26472) ch = false → t = { s with
            tx := s.tx ++ [.jtagStatus s.sec.jtagOpen],
            sec := { s.sec with challenge := none, challengeAt := s.clk.localTime + 100000000 } })) ∧
      (debugPolicy s = 0 → s.sec.jtagOpen = false → ∃ t : State, exec .jtagOpen s = .next t ∧ t.sec.debugOpened = true ∧
        t.sec.jtagOpen = true ∧ t.sec.kem = none) ∧
      (∀ field value : Nat, s.sec.jtagOpen = true → exec (.jtagFuseProgram field value) s = .next { s with fuses := { s.fuses with
        cellA := s.fuses.cellA ||| jtagBits s field value, cellB := s.fuses.cellB ||| jtagBits s field value,
        cellC := s.fuses.cellC ||| jtagBits s field value } })) ∧
    (hubOn s = true → s.svc.trace.on = true →
      (s.svc.trace.flags.testBit 1 = true → s.svc.prof.isSome = true → s.svc.trace.nextSample ≤ s.clk.localTime →
        ∃ t : State, exec .traceCounterSample s = .next t ∧
        t.svc.trace.nextSample = s.svc.trace.nextSample + s.svc.trace.period ∧
        t.svc.trace.sent + t.svc.trace.dropped = s.svc.trace.sent + s.svc.trace.dropped + (instances 1).length ∧
        { t with svc := s.svc, tx := s.tx, free := s.free } = s) ∧
      (s.svc.trace.nextSync ≤ s.clk.localTime → ∃ t : State, exec .traceSync s = .next t ∧
        t.svc.trace.nextSync = s.svc.trace.nextSync + 100000 ∧
        (t.svc.trace.sent = s.svc.trace.sent + 1 ∧ t.svc.trace.dropped = 0 ∨
          t.svc.trace.sent = s.svc.trace.sent ∧ t.svc.trace.dropped = 1) ∧
        { t with svc := s.svc, tx := s.tx, free := s.free } = s) ∧
      (s.clk.localTime < s.svc.trace.nextSync → exec .traceSync s = .next s))

/-! ### What holds of every command -/

/-- The rows whose parameters alone decide whether their own meaning begins, with their opcodes. -/
def checkedRows (cid : Nat) : List (Nat × Instr) :=
  [(0x0001, .nop cid), (0x0002, .identify cid), (0x0003, .getHealth cid), (0x0004, .setConfig cid), (0x0005, .configCommit cid),
   (0x0007, .ringDestroy cid), (0x0204, .reqCommit cid), (0x0205, .reqCancel cid), (0x0206, .reqQuery cid),
   (0x0207, .seqClose cid), (0x0301, .streamOpen cid), (0x0304, .encOpen cid), (0x0401, .fenceAlloc cid),
   (0x0502, .tenantRemove cid), (0x0602, .pairStatus cid), (0x0603, .resilverStart cid), (0x0606, .pairUnbind cid),
   (0x0702, .fwVerify cid), (0x0704, .fwQuery cid), (0x0802, .traceConfig cid), (0x0803, .bobbinRead cid),
   (0x0805, .marginScan cid)]

/-- A command with a field out of range or a reserved field that is not 0 gets BAD_PARAM with the offset of the field at fault, and
nothing else of it is done. -/
def Obligations.BadParameters : Prop :=
  ∀ (cid d : Nat) (c : Cmd) (s : State), ∀ e ∈ checkedRows cid, begins s cid e.1 = some c → badField c.pkt false = some d →
    exec e.2 s = .next (finish cid .badParam d 0 0 .none s)

/-- A Hot Reset, a Function Level Reset, PERST# and the end of a pause that lasted too long leave every register of BAR0 but
BOOT_REASON and LOCAL_TIME at the value its table gives after reset, which is 0, and LOCAL_TIME as it was. -/
def Obligations.ResetRegisters : Prop :=
  ∀ (c : Instr) (s t : State),
    (c = .hotReset ∨ c = .functionLevelReset) ∧ hubOn s = true ∧ s.link.up = true ∨
      c = .perstAssert ∧ s.link.perst = false ∧ s.clk.sclk = true ∨
      c = .activationPauseTimeout ∧ (∃ k t0 : Nat, s.dev.update = some (k, t0) ∧ t0 + 200000000 ≤ s.clk.localTime) →
    exec c s = .next t →
    (∀ off ∈ [0x08, 0x10, 0x20, 0x28, 0x30, 0x40, 0x48, 0x50, 0x60], regValue off t = 0) ∧
      regValue 0x58 t = regValue 0x58 s

/-- No command but POWER_ON sets LOCAL_TIME: only a tick changes it. -/
def Obligations.LocalTimeUnset : Prop :=
  ∀ (c : Instr) (s t : State), c ≠ .powerOn → exec c s = .next t → t.clk.localTime = s.clk.localTime

/-- DEBUG_OPENED, once set, stays set until the supply is lost: only POWER_ON and the loss of a feed can clear it, and the latter only
where the other feed is absent. -/
def Obligations.DebugOpenedStays : Prop :=
  ∀ (c : Instr) (s t : State), exec c s = .next t → s.sec.debugOpened = true →
    t.sec.debugOpened = true ∨ c = .powerOn ∨ ∃ (b : Bool) (mv : Nat), c = .feedLost b mv ∧ (feedOf s !b).present = false

/-- Fuse bits only ever go from 0 to 1, in each of the three cells. -/
def Obligations.FusesOnlyBlown : Prop :=
  ∀ (c : Instr) (s t : State), exec c s = .next t →
    onlyBlown s.fuses.cellA t.fuses.cellA ∧ onlyBlown s.fuses.cellB t.fuses.cellB ∧ onlyBlown s.fuses.cellC t.fuses.cellC

/-- Only the arbiter's acceptance writes replies and tail words. -/
def Obligations.OnlyAcceptanceWrites : Prop :=
  ∀ (c : Instr) (s t : State), (∀ q : Nat, c ≠ .replyAccept q) → exec c s = .next t → replyLog t = replyLog s

/-- Every step keeps eight cores, each with divider settings of ÷4, ÷5, ÷6 or ÷8. -/
def Obligations.DividersStayLegal : Prop :=
  ∀ s t : State, legalCores s → step s = .next t → legalCores t

/-- The state after reset has eight cores at ÷4. -/
def Obligations.ResetDividersLegal : Prop :=
  legalCores State.reset ∧ ∀ d ∈ dividers State.reset, d = (4, 4)
end

