-- ==== Sys2Proof/Laws/State.lean ====
section
/-! SUPPORT. Sparse tables: what a read gives after a write, and that every table operation keeps the canonical form; the frame of
each update of one entry or one part of the state. -/
namespace Sys2Proof.Machine

/-! ### Sparse tables -/

@[simp] theorem tget_nil {α : Type} (k : Nat) : tget ([] : Tbl α) k = none := rfl

@[simp] theorem tget_tset_same {α : Type} (t : Tbl α) (k : Nat) (v : α) : tget (tset t k v) k = some v := by
  induction t with
  | nil => simp [tset, tget]
  | cons e t ih =>
    obtain ⟨j, w⟩ := e
    unfold tset; split
    · simp [tget]
    · split
      · simp [tget]
      · rename_i h; simp [tget, Ne.symm h, ih]

@[simp] theorem tget_tset_other {α : Type} (t : Tbl α) (k i : Nat) (v : α) (h : i ≠ k) :
    tget (tset t k v) i = tget t i := by
  induction t with
  | nil => simp [tset, tget, Ne.symm h]
  | cons e t ih =>
    obtain ⟨j, w⟩ := e
    unfold tset; split
    · simp [tget, Ne.symm h]
    · split
      · rename_i hj; subst hj; simp [tget, Ne.symm h]
      · simp [tget, ih]

@[simp] theorem tget_tdel_same {α : Type} (t : Tbl α) (k : Nat) : tget (tdel t k) k = none := by
  induction t with
  | nil => rfl
  | cons e t ih =>
    obtain ⟨j, w⟩ := e
    by_cases h : j = k <;> simp_all [tdel, tget]

@[simp] theorem tget_tdel_other {α : Type} (t : Tbl α) (k i : Nat) (h : i ≠ k) : tget (tdel t k) i = tget t i := by
  induction t with
  | nil => rfl
  | cons e t ih =>
    obtain ⟨j, w⟩ := e
    by_cases hj : j = k
    · subst hj; simp_all [tdel, tget, Ne.symm h]
    · simp_all [tdel, tget]

theorem tmod_some {α : Type} {t : Tbl α} {k : Nat} {v : α} (f : α → α) (h : tget t k = some v) :
    tmod t k f = tset t k (f v) := by simp [tmod, h]

theorem tmod_none {α : Type} {t : Tbl α} {k : Nat} (f : α → α) (h : tget t k = none) : tmod t k f = t := by
  simp [tmod, h]

@[simp] theorem tget_tmod_same {α : Type} (t : Tbl α) (k : Nat) (f : α → α) : tget (tmod t k f) k = (tget t k).map f := by
  unfold tmod; split <;> simp_all

@[simp] theorem tget_tmod_other {α : Type} (t : Tbl α) (k i : Nat) (f : α → α) (h : i ≠ k) :
    tget (tmod t k f) i = tget t i := by
  unfold tmod; split <;> simp_all

@[simp] theorem tget_tmap {α : Type} (t : Tbl α) (f : Nat → α → α) (k : Nat) :
    tget (tmap t f) k = (tget t k).map (f k) := by
  induction t with
  | nil => rfl
  | cons e t ih =>
    obtain ⟨j, w⟩ := e
    by_cases h : j = k
    · subst h; simp [tmap, tget]
    · simp_all [tmap, tget]

/-! ### The canonical form is kept -/

@[simp] theorem twf_nil {α : Type} : twf ([] : Tbl α) = true := rfl

theorem mem_tset {α : Type} {t : Tbl α} {k : Nat} {v : α} {e : Nat × α} (h : e ∈ tset t k v) : e = (k, v) ∨ e ∈ t := by
  induction t with
  | nil => simp_all [tset]
  | cons a t ih =>
    obtain ⟨j, w⟩ := a
    unfold tset at h; split at h
    · simp_all
    · split at h
      · simp at h; rcases h with h | h <;> simp [h]
      · simp at h; rcases h with h | h
        · simp [h]
        · rcases ih h with h | h <;> simp [h]

theorem twf_tset {α : Type} (t : Tbl α) (k : Nat) (v : α) (h : twf t = true) : twf (tset t k v) = true := by
  induction t with
  | nil => simp [tset, twf]
  | cons a t ih =>
    obtain ⟨j, w⟩ := a
    simp only [twf, decide_eq_true_eq, List.pairwise_cons] at h ih ⊢
    unfold tset; split
    · rename_i hk
      simp only [List.pairwise_cons, List.mem_cons]
      refine ⟨fun e he => ?_, h.1, h.2⟩
      rcases he with rfl | he
      · exact hk
      · exact Nat.lt_trans hk (h.1 e he)
    · split
      · rename_i hj; subst hj; simpa using h
      · rename_i h1 h2
        simp only [List.pairwise_cons]
        refine ⟨fun e he => ?_, ih h.2⟩
        rcases mem_tset he with rfl | he
        · show j < k; omega
        · exact h.1 e he

theorem twf_filter {α : Type} (t : Tbl α) (p : Nat × α → Bool) (h : twf t = true) : twf (t.filter p) = true := by
  simp only [twf, decide_eq_true_eq] at *; exact h.filter p

theorem twf_tdel {α : Type} (t : Tbl α) (k : Nat) (h : twf t = true) : twf (tdel t k) = true := twf_filter _ _ h

theorem twf_tmod {α : Type} (t : Tbl α) (k : Nat) (f : α → α) (h : twf t = true) : twf (tmod t k f) = true := by
  unfold tmod; split
  · exact twf_tset _ _ _ h
  · exact h

theorem twf_tmap {α : Type} (t : Tbl α) (f : Nat → α → α) (h : twf t = true) : twf (tmap t f) = true := by
  simp only [twf, tmap, decide_eq_true_eq, List.pairwise_map] at *; exact h

/-! ### Updates of one part of the state -/

@[simp] theorem emit_tx (x : Tx) (s : State) : (emit x s).tx = s.tx ++ [x] := rfl
theorem emit_frame (x : Tx) (s : State) : { emit x s with tx := s.tx } = s := rfl
@[simp] theorem stepFree_free (s : State) : (stepFree s).free = s.free + 1 := rfl
theorem stepFree_frame (s : State) : { stepFree s with free := s.free } = s := rfl
theorem modCore_frame (k : Nat) (f : Core → Core) (s : State) : { modCore k f s with cores := s.cores } = s := rfl
theorem modHalf_frame (h : Nat) (f : Half → Half) (s : State) : { modHalf h f s with halves := s.halves } = s := rfl
@[simp] theorem modReq_reqs (k : Nat) (f : Req → Req) (s : State) : (modReq k f s).reqs = tmod s.reqs k f := rfl
theorem modReq_frame (k : Nat) (f : Req → Req) (s : State) : { modReq k f s with reqs := s.reqs } = s := rfl
@[simp] theorem modCmd_cmds (k : Nat) (f : Cmd → Cmd) (s : State) : (modCmd k f s).cmds = tmod s.cmds k f := rfl
theorem modCmd_frame (k : Nat) (f : Cmd → Cmd) (s : State) : { modCmd k f s with cmds := s.cmds } = s := rfl
theorem modRing_frame (k : Nat) (f : Ring → Ring) (s : State) : { modRing k f s with rings := s.rings } = s := rfl
theorem modEntry_frame (k : Nat) (f : SEntry → SEntry) (s : State) : { modEntry k f s with sent := s.sent } = s := rfl
theorem modSeq_frame (k : Nat) (f : Sequence → Sequence) (s : State) : { modSeq k f s with seqs := s.seqs } = s := rfl
theorem modPat_frame (k : Nat) (f : Pattern → Pattern) (s : State) : { modPat k f s with pats := s.pats } = s := rfl
theorem modApp_frame (k : Nat) (f : Applique → Applique) (s : State) : { modApp k f s with apps := s.apps } = s := rfl
theorem modStream_frame (k : Nat) (f : Stream → Stream) (s : State) : { modStream k f s with streams := s.streams } = s := rfl
@[simp] theorem modPair_pair (f : Pair → Pair) (s : State) : (modPair f s).pair = f s.pair := rfl
theorem modPair_frame (f : Pair → Pair) (s : State) : { modPair f s with pair := s.pair } = s := rfl
theorem modNor_frame (f : Nor → Nor) (s : State) : { modNor f s with nor := s.nor } = s := rfl
theorem modStage_frame (k : Nat) (f : Stage → Stage) (s : State) : { modStage k f s with stages := s.stages } = s := rfl
theorem modChannel_frame (k : Nat) (f : Channel → Channel) (s : State) : { modChannel k f s with mem := s.mem } = s := rfl
@[simp] theorem useSpares_free (n : Nat) (s : State) : (useSpares n s).free = s.free + n := rfl
theorem useSpares_frame (n : Nat) (s : State) : { useSpares n s with free := s.free } = s := rfl
theorem setReg_frame (k lane reg : Nat) (v : BitVec 32) (s : State) : { setReg k lane reg v s with cores := s.cores } = s := rfl
theorem clearEdge_frame (k first n : Nat) (s : State) : { clearEdge k first n s with cores := s.cores } = s := rfl
@[simp] theorem runUnits_nil (slot : Nat) (s : State) : runUnits slot [] s = s := rfl
@[simp] theorem modDev_dev (f : Dev → Dev) (s : State) : (modDev f s).dev = f s.dev := rfl
theorem modDev_frame (f : Dev → Dev) (s : State) : { modDev f s with dev := s.dev } = s := rfl

/-! ### What the shared operations may change -/

theorem bobPost_frame (u c a : Nat) (s : State) : { bobPost u c a s with bob := s.bob } = s := rfl
theorem writeHost_frame (a n d : Nat) (s : State) : { writeHost a n d s with tx := s.tx } = s := by
  unfold writeHost; split <;> rfl
theorem tally_frame (i x n : Nat) (s : State) : { tally i x n s with svc := s.svc } = s := rfl
theorem profile_frame (i x n : Nat) (s : State) : { profile i x n s with svc := s.svc } = s := by
  unfold profile; split <;> rfl
theorem postLost_frame (s : State) : { postLost s with arb := s.arb } = s := by
  unfold postLost; (repeat' split) <;> rfl
theorem holdEvent_frame (e : Event) (s : State) : { holdEvent e s with arb := s.arb } = s := by
  unfold holdEvent; (repeat' split) <;> rfl
theorem putEvent_frame (e : Event) (s : State) : { putEvent e s with arb := s.arb } = s := by
  have h : { holdEvent e (postLost s) with arb := s.arb } = { postLost s with arb := s.arb } :=
    congrArg (fun x : State => { x with arb := s.arb }) (holdEvent_frame e (postLost s))
  exact h.trans (postLost_frame s)
theorem putUnmasked_frame (e : Event) (s : State) : { putUnmasked e s with arb := s.arb } = s := by
  unfold putUnmasked; split
  · rfl
  · exact putEvent_frame e s
theorem setBitOnly_frame (i : Nat) (v : Bool) (s : State) :
    { setBitOnly i v s with arb := s.arb, health := s.health } = s := by
  unfold setBitOnly; split
  · rfl
  · exact congrArg (fun x : State => { x with health := s.health }) (putUnmasked_frame _ _)
theorem sendRecord_frame (b : RecBody) (k n : Nat) (t : Option Nat) (a : Option Cand) (f : Option (Nat × Nat × BitVec 64))
    (c : Option Nat) (s : State) :
    { sendRecord b k n t a f c s with pair := s.pair, tx := s.tx, free := s.free } = s := rfl
theorem tell_frame (b : RecBody) (k n : Nat) (t : Option Nat) (s : State) :
    { tell b k n t s with pair := s.pair, tx := s.tx, free := s.free } = s := by
  unfold tell; split <;> rfl
theorem tellReq_frame (k : Nat) (s : State) :
    { tellReq k s with pair := s.pair, tx := s.tx, free := s.free } = s := by
  unfold tellReq; split
  · rfl
  · exact tell_frame ..
theorem tellSeq_frame (k : Nat) (s : State) :
    { tellSeq k s with pair := s.pair, tx := s.tx, free := s.free } = s := by
  unfold tellSeq; split
  · split
    · exact tell_frame ..
    · rfl
  · rfl
theorem tellFence_frame (k : Nat) (s : State) :
    { tellFence k s with pair := s.pair, tx := s.tx, free := s.free } = s := by
  unfold tellFence; split <;> exact tell_frame ..

/-- A candidate is put to the arbiter or discarded; a discarded result is counted. -/
theorem submit_frame (c : Cand) (s : State) : { submit c s with arb := s.arb, svc := s.svc } = s := by
  unfold submit; (repeat' split) <;> rfl
theorem submit_cands (c : Cand) (s : State) :
    (submit c s).arb = s.arb ∨ (submit c s).arb = { s.arb with cands := s.arb.cands ++ [c] } := by
  unfold submit; (repeat' split) <;> first | exact .inl rfl | exact .inr rfl
theorem endReq_frame (k : Nat) (st : Status) (d : Nat) (s : State) :
    { endReq k st d s with arb := s.arb, svc := s.svc } = s := by
  unfold endReq; split
  · rfl
  · exact submit_frame ..

/-- Where the command is known, is not applied for a partner and is not mirrored, its final reply becomes the arbiter's last
candidate. -/
theorem finish_plain (cid : Nat) (st : Status) (d : Nat) (v : BitVec 64) (fl : BitVec 16) (a : OnAccept) (s : State) (c : Cmd)
    (h : tget s.cmds cid = some c) (hg : c.given = none) (hm : (mirroring s && pairApplied (opcodeOf c.pkt)) = false) :
    finish cid st d v fl a s = { s with
      cmds := tset s.cmds cid { c with phase := .replied },
      arb := { s.arb with cands := s.arb.cands ++ [cmdCand s cid c st d v fl a] } } := by
  have hm' : ∀ x : Tbl Cmd, mirroring { s with cmds := x } = mirroring s := fun _ => rfl
  simp [finish, h, hg, modCmd, tmod_some _ h, hm', submit, cmdCand] at hm ⊢
  intro h1; simp [hm h1]
theorem finish_frame (cid : Nat) (st : Status) (d : Nat) (v : BitVec 64) (fl : BitVec 16) (a : OnAccept) (s : State) :
    { finish cid st d v fl a s with cmds := s.cmds, arb := s.arb, pair := s.pair, tx := s.tx, free := s.free } = s := by
  unfold finish; split
  · rfl
  · simp only []; (repeat' split) <;> first | rfl | (unfold submit; simp only [cmdCand]; split <;> rfl)

end Sys2Proof.Machine
end

