-- ==== Sys2Proof/Laws/Bytes.lean ====
section
/-! SUPPORT. Byte tables: what a byte reads after a write, and that every operation keeps the canonical form. -/
namespace Sys2Proof.Machine

/-! ### The canonical form -/

theorem bytesWf_filter (t : Tbl Byte) (p : Nat × Byte → Bool) (h : bytesWf t = true) : bytesWf (t.filter p) = true := by
  simp only [bytesWf, Bool.and_eq_true, twf, decide_eq_true_eq, List.all_eq_true] at *
  exact ⟨h.1.filter p, fun e he => h.2 e (List.mem_filter.1 he).1⟩

theorem mem_byteCells {a n data : Nat} {e : Nat × Byte} (h : e ∈ byteCells a n data) :
    a ≤ e.1 ∧ e.1 < a + n ∧ e.2 ≠ 0 := by
  simp only [byteCells, List.mem_filterMap, List.mem_range] at h
  obtain ⟨i, hi, h⟩ := h
  split at h
  · cases h
  · rename_i hb; cases h; exact ⟨by simp, by simpa using hi, hb⟩

theorem pairwise_byteCells (a n data : Nat) : (byteCells a n data).Pairwise fun x y => x.1 < y.1 := by
  refine List.Pairwise.filterMap _ (R := (· < ·)) ?_ List.pairwise_lt_range
  intro i j hij x hx y hy
  simp only [] at hx hy
  split at hx
  · cases hx
  · split at hy
    · cases hy
    · cases hx; cases hy; simpa using hij

theorem bytesWf_writeBytes (t : Tbl Byte) (a n data : Nat) (h : bytesWf t = true) : bytesWf (writeBytes t a n data) = true := by
  have lo := bytesWf_filter t (fun e => decide (e.1 < a)) h
  have hi := bytesWf_filter t (fun e => decide (a + n ≤ e.1)) h
  simp only [bytesWf, Bool.and_eq_true, twf, decide_eq_true_eq, List.all_eq_true, bne_iff_ne] at *
  refine ⟨?_, ?_⟩
  · refine List.pairwise_append.2 ⟨List.pairwise_append.2 ⟨lo.1, pairwise_byteCells .., ?_⟩, hi.1, ?_⟩
    · intro x hx y hy
      have := (List.mem_filter.1 hx).2; have := (mem_byteCells hy).1; simp at *; omega
    · intro x hx y hy
      have h2 := (List.mem_filter.1 hy).2
      rcases List.mem_append.1 hx with hx | hx
      · have := (List.mem_filter.1 hx).2; simp at *; omega
      · have := (mem_byteCells hx).2.1; simp at *; omega
  · intro e he
    rcases List.mem_append.1 he with he | he
    · rcases List.mem_append.1 he with he | he
      · exact lo.2 e he
      · exact (mem_byteCells he).2.2
    · exact hi.2 e he

/-! ### Reads after a write -/

theorem tget_filter_key {α : Type} (t : Tbl α) (p : Nat → Bool) (k : Nat) :
    tget (t.filter fun e => p e.1) k = if p k then tget t k else none := by
  induction t with
  | nil => simp
  | cons e t ih =>
    obtain ⟨j, w⟩ := e
    by_cases hj : j = k
    · subst hj; by_cases hp : p j <;> simp_all [tget]
    · by_cases hp : p j <;> simp_all [tget]

theorem tget_append {α : Type} (t u : Tbl α) (k : Nat) : tget (t ++ u) k = (tget t k).or (tget u k) := by
  induction t with
  | nil => simp
  | cons e t ih =>
    obtain ⟨j, w⟩ := e
    by_cases hj : j = k
    · subst hj; simp [tget]
    · simp_all [tget]

theorem tget_byteCells (a n data j : Nat) : tget (byteCells a n data) j =
    if a ≤ j ∧ j < a + n ∧ BitVec.ofNat 8 (data >>> (8 * (j - a))) ≠ 0 then some (BitVec.ofNat 8 (data >>> (8 * (j - a)))) else none := by
  induction n with
  | zero => simp [byteCells]; omega
  | succ n ih =>
    have e : byteCells a (n + 1) data = byteCells a n data ++
        (if BitVec.ofNat 8 (data >>> (8 * n)) = 0 then [] else [(a + n, BitVec.ofNat 8 (data >>> (8 * n)))]) := by
      simp only [byteCells, List.range_succ, List.filterMap_append]
      congr 1
      split <;> simp_all
    rw [e, tget_append, ih]
    by_cases hj : j = a + n
    · subst hj; by_cases hb : BitVec.ofNat 8 (data >>> (8 * n)) = 0 <;> simp_all [tget]
    · have h1 : ∀ v : Byte, tget [(a + n, v)] j = none := fun v => by simp [tget, Ne.symm hj]
      have h2 : tget (if BitVec.ofNat 8 (data >>> (8 * n)) = 0 then ([] : Tbl Byte) else [(a + n, BitVec.ofNat 8 (data >>> (8 * n)))]) j = none := by
        split <;> simp [h1]
      rw [h2]
      have h3 : (j < a + (n + 1)) = (j < a + n) := by simp; omega
      simp [h3]

/-- A byte after a write: one of those written, or as before. -/
theorem byteAt_writeBytes (t : Tbl Byte) (a n data j : Nat) : byteAt (writeBytes t a n data) j =
    if a ≤ j ∧ j < a + n then BitVec.ofNat 8 (data >>> (8 * (j - a))) else byteAt t j := by
  have lo := tget_filter_key t (fun k => decide (k < a)) j
  have hi := tget_filter_key t (fun k => decide (a + n ≤ k)) j
  simp only [byteAt, tgetD, writeBytes, tget_append, lo, hi, tget_byteCells, decide_eq_true_eq]
  by_cases h1 : j < a
  · have h2 : ¬a ≤ j := by omega
    have h3 : ¬a + n ≤ j := by omega
    simp [h1, h2, h3]
  · by_cases h3 : a + n ≤ j
    · have h4 : ¬j < a + n := by omega
      simp [h1, h3, h4]
    · have h5 : a ≤ j ∧ j < a + n := by omega
      simp only [h1, h3, h5, if_false, if_true, true_and]
      split <;> simp_all

/-! ### LPDDR4X -/

theorem reset_mem_wf : State.reset.mem.wf = true := by decide

end Sys2Proof.Machine
end

