-- ==== Sys2Proof/Laws/Dividers.lean ====
section
/-! SUPPORT. The divider settings of the cores across every operation: one lemma per operation, those that set dividers excepted, for which legal settings stay legal. -/
namespace Sys2Proof.Machine
set_option maxRecDepth 4000
set_option linter.all false
@[simp] theorem dividers_upd0 (t : State) x_clk x_link x_bar x_dev x_rings x_served x_reads x_queues x_arb x_cmds x_nextCid x_reqs x_reqGens x_nextReq x_sent x_fences x_fenceGens x_accts x_cfg x_pats x_patGens x_sliceAt x_apps x_appGens x_seqs x_seqGens x_pages x_streams x_streamGens x_engines x_encs x_encGens x_encoding x_fuses x_sec x_tenants x_parts x_pair x_nor x_power x_thermal x_mem x_halves x_halo x_stages x_health x_bob x_svc x_tx x_free x_pending : dividers ⟨x_clk, x_link, x_bar, x_dev, x_rings, x_served, x_reads, x_queues, x_arb, x_cmds, x_nextCid, x_reqs, x_reqGens, x_nextReq, x_sent, x_fences, x_fenceGens, x_accts, x_cfg, x_pats, x_patGens, x_sliceAt, x_apps, x_appGens, x_seqs, x_seqGens, x_pages, x_streams, x_streamGens, x_engines, x_encs, x_encGens, x_encoding, x_fuses, x_sec, x_tenants, x_parts, x_pair, x_nor, x_power, t.cores, x_thermal, x_mem, x_halves, x_halo, x_stages, x_health, x_bob, x_svc, x_tx, x_free, x_pending⟩ = dividers t := rfl
@[simp] theorem dividers_foldl {α : Type} (f : State → α → State) (h : ∀ s x, dividers (f s x) = dividers s) (l : List α) (s : State) : dividers (l.foldl f s) = dividers s := by
  induction l generalizing s with
  | nil => rfl
  | cons x l ih => rw [List.foldl_cons, ih, h]
@[simp] theorem emit_dividers a1 (s : State) : dividers (emit a1 s) = dividers s := by
  unfold emit; simp
@[simp] theorem writeHost_dividers a1 a2 a3 (s : State) : dividers (writeHost a1 a2 a3 s) = dividers s := by
  unfold writeHost; (repeat' split) <;> simp
@[simp] theorem stepFree_dividers  (s : State) : dividers (stepFree  s) = dividers s := by
  unfold stepFree; simp
@[simp] theorem useSpares_dividers a1 (s : State) : dividers (useSpares a1 s) = dividers s := by
  unfold useSpares; simp
@[simp] theorem modCore_dividers (k : Nat) (f : Core → Core) (s : State)
    (h : ∀ c, (f c).ceiling = c.ceiling ∧ (f c).powerDiv = c.powerDiv) :
    dividers (modCore k f s) = dividers s := by
  simp only [dividers, modCore, List.map_set, (h _).1, (h _).2, coreOf]
  by_cases hk : k < s.cores.length
  · apply List.ext_getElem <;> simp [List.getElem_set]
    intro i h1 h2; subst h2; simp_all
  · rw [List.set_eq_of_length_le]; simp; omega
@[simp] theorem modHalf_dividers a1 a2 (s : State) : dividers (modHalf a1 a2 s) = dividers s := by
  unfold modHalf; simp
@[simp] theorem modReq_dividers a1 a2 (s : State) : dividers (modReq a1 a2 s) = dividers s := by
  unfold modReq; simp
@[simp] theorem modCmd_dividers a1 a2 (s : State) : dividers (modCmd a1 a2 s) = dividers s := by
  unfold modCmd; simp
@[simp] theorem modRing_dividers a1 a2 (s : State) : dividers (modRing a1 a2 s) = dividers s := by
  unfold modRing; simp
@[simp] theorem modEntry_dividers a1 a2 (s : State) : dividers (modEntry a1 a2 s) = dividers s := by
  unfold modEntry; simp
@[simp] theorem modSeq_dividers a1 a2 (s : State) : dividers (modSeq a1 a2 s) = dividers s := by
  unfold modSeq; simp
@[simp] theorem modPat_dividers a1 a2 (s : State) : dividers (modPat a1 a2 s) = dividers s := by
  unfold modPat; simp
@[simp] theorem modApp_dividers a1 a2 (s : State) : dividers (modApp a1 a2 s) = dividers s := by
  unfold modApp; simp
@[simp] theorem modStream_dividers a1 a2 (s : State) : dividers (modStream a1 a2 s) = dividers s := by
  unfold modStream; simp
@[simp] theorem modPair_dividers a1 (s : State) : dividers (modPair a1 s) = dividers s := by
  unfold modPair; simp
@[simp] theorem modNor_dividers a1 (s : State) : dividers (modNor a1 s) = dividers s := by
  unfold modNor; simp
@[simp] theorem modDev_dividers a1 (s : State) : dividers (modDev a1 s) = dividers s := by
  unfold modDev; simp
@[simp] theorem bobPost_dividers a1 a2 a3 (s : State) : dividers (bobPost a1 a2 a3 s) = dividers s := by
  unfold bobPost; simp
@[simp] theorem tally_dividers a1 a2 a3 (s : State) : dividers (tally a1 a2 a3 s) = dividers s := by
  unfold tally; simp
@[simp] theorem profile_dividers a1 a2 a3 (s : State) : dividers (profile a1 a2 a3 s) = dividers s := by
  unfold profile; (repeat' split) <;> simp
@[simp] theorem postLost_dividers  (s : State) : dividers (postLost  s) = dividers s := by
  unfold postLost; (repeat' split) <;> simp
@[simp] theorem holdEvent_dividers a1 (s : State) : dividers (holdEvent a1 s) = dividers s := by
  unfold holdEvent; (repeat' split) <;> simp
@[simp] theorem putEvent_dividers a1 (s : State) : dividers (putEvent a1 s) = dividers s := by
  unfold putEvent; (repeat' split) <;> simp
@[simp] theorem putUnmasked_dividers a1 (s : State) : dividers (putUnmasked a1 s) = dividers s := by
  unfold putUnmasked; (repeat' split) <;> simp
@[simp] theorem setBitOnly_dividers a1 a2 (s : State) : dividers (setBitOnly a1 a2 s) = dividers s := by
  unfold setBitOnly; (repeat' split) <;> simp
@[simp] theorem followBacklog_dividers  (s : State) : dividers (followBacklog  s) = dividers s := by
  unfold followBacklog; simp
@[simp] theorem refreshBacklog_dividers  (s : State) : dividers (refreshBacklog  s) = dividers s := by
  unfold refreshBacklog; simp
@[simp] theorem postEvent_dividers a1 a2 a3 a4 a5 (s : State) : dividers (postEvent a1 a2 a3 a4 a5 s) = dividers s := by
  unfold postEvent; simp
@[simp] theorem setHealth_dividers a1 a2 (s : State) : dividers (setHealth a1 a2 s) = dividers s := by
  unfold setHealth; simp
@[simp] theorem refreshThrottled_dividers  (s : State) : dividers (refreshThrottled  s) = dividers s := by
  unfold refreshThrottled; simp
@[simp] theorem measureHealth_dividers  (s : State) : dividers (measureHealth  s) = dividers s := by
  unfold measureHealth; simp
@[simp] theorem setDevState_dividers a1 (s : State) : dividers (setDevState a1 s) = dividers s := by
  unfold setDevState; (repeat' split) <;> simp
@[simp] theorem refreshService_dividers  (s : State) : dividers (refreshService  s) = dividers s := by
  unfold refreshService; (repeat' split) <;> simp
@[simp] theorem submit_dividers a1 (s : State) : dividers (submit a1 s) = dividers s := by
  unfold submit; (repeat' split) <;> simp
@[simp] theorem endReq_dividers a1 a2 a3 (s : State) : dividers (endReq a1 a2 a3 s) = dividers s := by
  unfold endReq; (repeat' split) <;> simp
@[simp] theorem endReqs_dividers a1 a2 a3 (s : State) : dividers (endReqs a1 a2 a3 s) = dividers s := by
  unfold endReqs; simp
@[simp] theorem stopReqs_dividers a1 a2 a3 (s : State) : dividers (stopReqs a1 a2 a3 s) = dividers s := by
  unfold stopReqs; simp
@[simp] theorem sendRecord_dividers a1 a2 a3 a4 a5 a6 a7 (s : State) : dividers (sendRecord a1 a2 a3 a4 a5 a6 a7 s) = dividers s := by
  unfold sendRecord; simp
@[simp] theorem tell_dividers a1 a2 a3 a4 (s : State) : dividers (tell a1 a2 a3 a4 s) = dividers s := by
  unfold tell; (repeat' split) <;> simp
@[simp] theorem tellFence_dividers a1 (s : State) : dividers (tellFence a1 s) = dividers s := by
  unfold tellFence; (repeat' split) <;> simp
@[simp] theorem tellSeq_dividers a1 (s : State) : dividers (tellSeq a1 s) = dividers s := by
  unfold tellSeq; (repeat' split) <;> simp
@[simp] theorem tellReq_dividers a1 (s : State) : dividers (tellReq a1 s) = dividers s := by
  unfold tellReq; (repeat' split) <;> simp
@[simp] theorem finish_dividers a1 a2 a3 a4 a5 a6 (s : State) : dividers (finish a1 a2 a3 a4 a5 a6 s) = dividers s := by
  unfold finish; (repeat' (first | rfl | split | (simp; done) | (simp; split)))
@[simp] theorem done_dividers a1 a2 a3 (s : State) : dividers (done a1 a2 a3 s) = dividers s := by
  unfold done; simp
@[simp] theorem refuse_dividers a1 a2 a3 (s : State) : dividers (refuse a1 a2 a3 s) = dividers s := by
  unfold refuse; simp
@[simp] theorem refuseAll_dividers a1 a2 a3 (s : State) : dividers (refuseAll a1 a2 a3 s) = dividers s := by
  unfold refuseAll; simp
@[simp] theorem sweep_dividers a1 a2 a3 (s : State) : dividers (sweep a1 a2 a3 s) = dividers s := by
  unfold sweep; simp
@[simp] theorem allocPages_dividers a1 a2 a3 (s : State) : dividers (allocPages a1 a2 a3 s) = dividers s := by
  unfold allocPages; simp
@[simp] theorem zeroPages_dividers a1 (s : State) : dividers (zeroPages a1 s) = dividers s := by
  unfold zeroPages; simp
@[simp] theorem retireKeys_dividers a1 (s : State) : dividers (retireKeys a1 s) = dividers s := by
  unfold retireKeys; (repeat' split) <;> simp
@[simp] theorem retireAll_dividers  (s : State) : dividers (retireAll  s) = dividers s := by
  unfold retireAll; simp
@[simp] theorem restitchPages_dividers a1 a2 (s : State) : dividers (restitchPages a1 a2 s) = dividers s := by
  unfold restitchPages; (repeat' split) <;> simp
@[simp] theorem freePagesOf_dividers a1 (s : State) : dividers (freePagesOf a1 s) = dividers s := by
  unfold freePagesOf; simp
@[simp] theorem releasePagesOf_dividers a1 (s : State) : dividers (releasePagesOf a1 s) = dividers s := by
  unfold releasePagesOf; simp
@[simp] theorem dropStages_dividers a1 (s : State) : dividers (dropStages a1 s) = dividers s := by
  unfold dropStages; simp
@[simp] theorem zeroAllKeys_dividers  (s : State) : dividers (zeroAllKeys  s) = dividers s := by
  unfold zeroAllKeys; simp
@[simp] theorem useNonce_dividers a1 a2 (s : State) : dividers (useNonce a1 a2 s) = dividers s := by
  unfold useNonce; simp
@[simp] theorem writeSealed_dividers a1 a2 a3 a4 a5 a6 a7 a8 (s : State) : dividers (writeSealed a1 a2 a3 a4 a5 a6 a7 a8 s) = dividers s := by
  unfold writeSealed; simp
@[simp] theorem migratePart_dividers a1 a2 (s : State) : dividers (migratePart a1 a2 s) = dividers s := by
  unfold migratePart; (repeat' split) <;> simp
@[simp] theorem migrateParts_dividers  (s : State) : dividers (migrateParts  s) = dividers s := by
  unfold migrateParts; simp
@[simp] theorem stockHalves_dividers  (s : State) : dividers (stockHalves  s) = dividers s := by
  unfold stockHalves; simp
@[simp] theorem loadWanted_dividers (s : State) : dividers (loadWanted s) = dividers s := by
  simp only [loadWanted, migrateParts_dividers, stockHalves_dividers]
  refine dividers_foldl _ (fun s x => ?_) _ _; split <;> simp
@[simp] theorem startSlice_dividers  (s : State) : dividers (startSlice  s) = dividers s := by
  unfold startSlice; simp
@[simp] theorem rotate_dividers  (s : State) : dividers (rotate  s) = dividers s := by
  unfold rotate; (repeat' split) <;> simp
@[simp] theorem sliceStart_dividers  (s : State) : dividers (sliceStart  s) = dividers s := by
  unfold sliceStart; (repeat' split) <;> simp
@[simp] theorem sramRelease_dividers a1 (s : State) : dividers (sramRelease a1 s) = dividers s := by
  unfold sramRelease; (repeat' split) <;> simp
@[simp] theorem holdPicture_dividers a1 a2 (s : State) : dividers (holdPicture a1 a2 s) = dividers s := by
  unfold holdPicture; (repeat' split) <;> simp
@[simp] theorem namePicture_dividers a1 (s : State) : dividers (namePicture a1 s) = dividers s := by
  unfold namePicture; simp
@[simp] theorem admitWith_dividers a1 a2 a3 a4 a5 a6 a7 (s : State) : dividers (admitWith a1 a2 a3 a4 a5 a6 a7 s) = dividers s := by
  unfold admitWith; (repeat' (first | rfl | split | (simp; done) | (simp; split)))
@[simp] theorem budgetRefill_dividers a1 (s : State) : dividers (budgetRefill a1 s) = dividers s := by
  unfold budgetRefill; (repeat' split) <;> simp
@[simp] theorem admitRequest_dividers a1 a2 (s : State) : dividers (admitRequest a1 a2 s) = dividers s := by
  unfold admitRequest; (repeat' (first | rfl | split | (simp; done) | (simp; split)))
@[simp] theorem storeLists_dividers (a1) (s : State) : dividers (storeLists a1 s) = dividers s := by
  simp only [storeLists]
  exact (dividers_foldl _ (fun s x => by simp) _ _).trans (dividers_foldl _ (fun s x => by simp) _ _)
@[simp] theorem trimSeq_dividers a1 a2 (s : State) : dividers (trimSeq a1 a2 s) = dividers s := by
  unfold trimSeq; (repeat' split) <;> simp
@[simp] theorem putEntry_dividers a1 a2 a3 (s : State) : dividers (putEntry a1 a2 a3 s) = dividers s := by
  unfold putEntry; (repeat' split) <;> simp
@[simp] theorem flushHot_dividers a1 (s : State) : dividers (flushHot a1 s) = dividers s := by
  unfold flushHot; simp
@[simp] theorem coolPages_dividers a1 (s : State) : dividers (coolPages a1 s) = dividers s := by
  unfold coolPages; simp
@[simp] theorem heatPages_dividers a1 a2 a3 (s : State) : dividers (heatPages a1 a2 a3 s) = dividers s := by
  unfold heatPages; simp
@[simp] theorem settlePages_dividers a1 a2 (s : State) : dividers (settlePages a1 a2 s) = dividers s := by
  unfold settlePages; (repeat' split) <;> simp
@[simp] theorem commitSeq_dividers a1 a2 (s : State) : dividers (commitSeq a1 a2 s) = dividers s := by
  unfold commitSeq; simp
@[simp] theorem copySlot_dividers (a1 a2) (s : State) (a4) : dividers (copySlot a1 a2 s a4) = dividers s := by
  refine dividers_foldl _ (fun s x => ?_) _ _; split <;> simp
@[simp] theorem moveEntries_dividers (a1 a2 a3) (s : State) : dividers (moveEntries a1 a2 a3 s) = dividers s := by
  unfold moveEntries; split
  · rfl
  · exact dividers_foldl _ (fun s x => by simp) _ _
@[simp] theorem takePages_dividers a1 a2 a3 (s : State) : dividers (takePages a1 a2 a3 s) = dividers s := by
  unfold takePages; simp
@[simp] theorem takeBuffers_dividers a1 a2 a3 (s : State) : dividers (takeBuffers a1 a2 a3 s) = dividers s := by
  unfold takeBuffers; simp
@[simp] theorem drainPrevious_dividers a1 (s : State) : dividers (drainPrevious a1 s) = dividers s := by
  unfold drainPrevious; (repeat' split) <;> simp
@[simp] theorem freeRetired_dividers a1 (s : State) : dividers (freeRetired a1 s) = dividers s := by
  unfold freeRetired; (repeat' split) <;> simp
@[simp] theorem drainApplique_dividers a1 (s : State) : dividers (drainApplique a1 s) = dividers s := by
  unfold drainApplique; (repeat' (first | rfl | split | (simp; done) | (simp; split)))
@[simp] theorem newVersion_dividers a1 a2 a3 (s : State) : dividers (newVersion a1 a2 a3 s) = dividers s := by
  unfold newVersion; simp
@[simp] theorem replaceCurrent_dividers a1 (s : State) : dividers (replaceCurrent a1 s) = dividers s := by
  unfold replaceCurrent; (repeat' split) <;> simp
@[simp] theorem adaptDone_dividers a1 a2 a3 (s : State) : dividers (adaptDone a1 a2 a3 s) = dividers s := by
  unfold adaptDone; (repeat' split) <;> simp
@[simp] theorem releasePlace_dividers a1 a2 (s : State) : dividers (releasePlace a1 a2 s) = dividers s := by
  unfold releasePlace; (repeat' split) <;> simp
@[simp] theorem dropLoad_dividers a1 (s : State) : dividers (dropLoad a1 s) = dividers s := by
  unfold dropLoad; (repeat' split) <;> simp
@[simp] theorem dropWork_dividers a1 (s : State) : dividers (dropWork a1 s) = dividers s := by
  unfold dropWork; simp
@[simp] theorem setFence_dividers a1 a2 (s : State) : dividers (setFence a1 a2 s) = dividers s := by
  unfold setFence; simp
@[simp] theorem updateFence_dividers a1 a2 a3 (s : State) : dividers (updateFence a1 a2 a3 s) = dividers s := by
  unfold updateFence; (repeat' (first | rfl | split | (simp; done) | (simp; split)))
@[simp] theorem countCancel_dividers a1 (s : State) : dividers (countCancel a1 s) = dividers s := by
  unfold countCancel; (repeat' split) <;> simp
@[simp] theorem settleCancels_dividers  (s : State) : dividers (settleCancels  s) = dividers s := by
  unfold settleCancels; simp
@[simp] theorem traceRec_dividers a1 a2 a3 (s : State) : dividers (traceRec a1 a2 a3 s) = dividers s := by
  unfold traceRec; (repeat' (first | rfl | split | (simp; done) | (simp; split)))
@[simp] theorem traceAny_dividers a1 a2 (s : State) : dividers (traceAny a1 a2 s) = dividers s := by
  unfold traceAny; simp
@[simp] theorem traceReq_dividers a1 a2 (s : State) : dividers (traceReq a1 a2 s) = dividers s := by
  unfold traceReq; (repeat' split) <;> simp
@[simp] theorem dropDoorbell_dividers a1 a2 (s : State) : dividers (dropDoorbell a1 a2 s) = dividers s := by
  unfold dropDoorbell; simp
@[simp] theorem latchDoorbell_dividers a1 a2 a3 (s : State) : dividers (latchDoorbell a1 a2 a3 s) = dividers s := by
  unfold latchDoorbell; (repeat' (first | rfl | split | (simp; done) | (simp; split)))
@[simp] theorem doorbell_dividers a1 a2 (s : State) : dividers (doorbell a1 a2 s) = dividers s := by
  unfold doorbell; (repeat' (first | rfl | split | (simp; done) | (simp; split)))
@[simp] theorem replyDoorbell_dividers a1 a2 (s : State) : dividers (replyDoorbell a1 a2 s) = dividers s := by
  unfold replyDoorbell; (repeat' (first | rfl | split | (simp; done) | (simp; split)))
theorem bindQueue_dividers (q : Nat) (d : BitVec 256) (s t : State) (h : bindQueue q d s = some t) :
    dividers t = dividers s := by
  unfold bindQueue at h; split at h
  · cases h; rfl
  · split at h <;> cases h; rfl
@[simp] theorem enableAdmin_dividers (a1 a2) (s : State) : dividers (enableAdmin a1 a2 s) = dividers s := by
  unfold enableAdmin; simp only []; split
  · rfl
  · split
    · simp
    · split
      · simp
      · rename_i t h; have := bindQueue_dividers _ _ _ _ h; simp_all
@[simp] theorem releaseReads_dividers a1 (s : State) : dividers (releaseReads a1 s) = dividers s := by
  unfold releaseReads; simp
@[simp] theorem disableAdmin_dividers a1 (s : State) : dividers (disableAdmin a1 s) = dividers s := by
  unfold disableAdmin; (repeat' (first | rfl | split | (simp; done) | (simp; split)))
@[simp] theorem sendMsix_dividers a1 (s : State) : dividers (sendMsix a1 s) = dividers s := by
  unfold sendMsix; (repeat' split) <;> simp
@[simp] theorem sendPending_dividers  (s : State) : dividers (sendPending  s) = dividers s := by
  unfold sendPending; (repeat' (first | rfl | split | (simp; done) | (simp; split)))
@[simp] theorem writeReg_dividers a1 a2 a3 (s : State) : dividers (writeReg a1 a2 a3 s) = dividers s := by
  unfold writeReg; (repeat' split) <;> simp
@[simp] theorem readTime_dividers a1 a2 (s : State) : dividers (readTime a1 a2 s) = dividers s := by
  unfold readTime; (repeat' split) <;> simp
@[simp] theorem fetchVisit_dividers a1 (s : State) : dividers (fetchVisit a1 s) = dividers s := by
  unfold fetchVisit; (repeat' split) <;> simp
@[simp] theorem writeHead_dividers a1 (s : State) : dividers (writeHead a1 s) = dividers s := by
  unfold writeHead; (repeat' split) <;> simp
@[simp] theorem tellFetch_dividers a1 a2 a3 a4 (s : State) : dividers (tellFetch a1 a2 a3 a4 s) = dividers s := by
  unfold tellFetch; (repeat' split) <;> simp
@[simp] theorem releaseAtFetch_dividers a1 a2 (s : State) : dividers (releaseAtFetch a1 a2 s) = dividers s := by
  unfold releaseAtFetch; (repeat' split) <;> simp
@[simp] theorem takePlace_dividers a1 a2 a3 (s : State) : dividers (takePlace a1 a2 a3 s) = dividers s := by
  unfold takePlace; (repeat' split) <;> simp
@[simp] theorem commandFetched_dividers a1 a2 a3 a4 (s : State) : dividers (commandFetched a1 a2 a3 a4 s) = dividers s := by
  unfold commandFetched; (repeat' (first | rfl | split | (simp; done) | (simp; split)))
@[simp] theorem fetchFailed_dividers a1 (s : State) : dividers (fetchFailed a1 s) = dividers s := by
  unfold fetchFailed; (repeat' split) <;> simp
@[simp] theorem readError_dividers a1 (s : State) : dividers (readError a1 s) = dividers s := by
  unfold readError; (repeat' split) <;> simp
@[simp] theorem orderedRelease_dividers a1 (s : State) : dividers (orderedRelease a1 s) = dividers s := by
  unfold orderedRelease; (repeat' split) <;> simp
@[simp] theorem runCmdWith_dividers (cid op : Nat) (more : Cmd → State → List Nat) (f : Cmd → State → State) (s : State)
    (h : ∀ c, dividers (f c s) = dividers s) : dividers (runCmdWith cid op more f s) = dividers s := by
  unfold runCmdWith; split <;> first | rfl | (split <;> simp [h])
@[simp] theorem runCmd_dividers (cid op : Nat) (f : Cmd → State → State) (s : State)
    (h : ∀ c, dividers (f c s) = dividers s) : dividers (runCmd cid op f s) = dividers s := by
  unfold runCmd; split <;> first | rfl | (split <;> simp [h])
@[simp] theorem begun_dividers a1 a2 (s : State) : dividers (begun a1 a2 s) = dividers s := by
  unfold begun; simp
@[simp] theorem writeAt_dividers a1 a2 a3 (s : State) : dividers (writeAt a1 a2 a3 s) = dividers s := by
  unfold writeAt; (repeat' split) <;> simp
@[simp] theorem stuck_dividers a1 a2 a3 (s : State) : dividers (stuck a1 a2 a3 s) = dividers s := by
  unfold stuck; simp
@[simp] theorem denied_dividers a1 a2 (s : State) : dividers (denied a1 a2 s) = dividers s := by
  unfold denied; simp
@[simp] theorem transfer_dividers (a1 a2 a3) (f : State → State) (s : State) (h : ∀ s, dividers (f s) = dividers s) :
    dividers (transfer a1 a2 a3 f s) = dividers s := by
  unfold transfer; split
  · rfl
  · split
    · simp
    · exact h s
@[simp] theorem unitReads_dividers (a1 a2 a3) (f : State → State) (s : State) (h : ∀ s, dividers (f s) = dividers s) :
    dividers (unitReads a1 a2 a3 f s) = dividers s := by
  refine transfer_dividers _ _ _ _ _ (fun s => ?_); split <;> simp [h]
@[simp] theorem unitWrite_dividers (a1 a2 a3 a4 a5) (s : State) : dividers (unitWrite a1 a2 a3 a4 a5 s) = dividers s := by
  unfold unitWrite; split
  · split <;> simp
  · refine transfer_dividers _ _ _ _ _ (fun s => ?_); split <;> simp
  · exact transfer_dividers _ _ _ _ _ (fun s => by simp)
@[simp] theorem loadTile_dividers a1 a2 a3 a4 a5 (s : State) : dividers (loadTile a1 a2 a3 a4 a5 s) = dividers s := by
  unfold loadTile; (repeat' split) <;> simp
@[simp] theorem swapTile_dividers a1 a2 (s : State) : dividers (swapTile a1 a2 s) = dividers s := by
  unfold swapTile; (repeat' split) <;> simp
@[simp] theorem arrayPass_dividers a1 a2 a3 a4 (s : State) : dividers (arrayPass a1 a2 a3 a4 s) = dividers s := by
  unfold arrayPass; (repeat' split) <;> simp
@[simp] theorem clearEdge_dividers a1 a2 a3 (s : State) : dividers (clearEdge a1 a2 a3 s) = dividers s := by
  unfold clearEdge; simp
@[simp] theorem setReg_dividers a1 a2 a3 a4 (s : State) : dividers (setReg a1 a2 a3 a4 s) = dividers s := by
  unfold setReg; simp
@[simp] theorem setLanes_dividers a1 a2 a3 a4 a5 (s : State) : dividers (setLanes a1 a2 a3 a4 a5 s) = dividers s := by
  unfold setLanes; simp
@[simp] theorem putRow_dividers a1 a2 a3 (s : State) : dividers (putRow a1 a2 a3 s) = dividers s := by
  unfold putRow; simp
@[simp] theorem smxRow_dividers a1 a2 a3 a4 a5 a6 (s : State) : dividers (smxRow a1 a2 a3 a4 a5 a6 s) = dividers s := by
  unfold smxRow; simp
@[simp] theorem atomicOp_dividers (a1 a2 a3 a4 a5 a6) (s : State) : dividers (atomicOp a1 a2 a3 a4 a5 a6 s) = dividers s := by
  unfold atomicOp; simp only []; split
  · split
    · exact transfer_dividers _ _ _ _ _ (fun s => by simp)
    · rfl
  · split
    · refine transfer_dividers _ _ _ _ _ (fun s => ?_); split <;> simp
    · rfl
  · rfl
@[simp] theorem kvWrite_dividers a1 a2 a3 a4 a5 a6 a7 (s : State) : dividers (kvWrite a1 a2 a3 a4 a5 a6 a7 s) = dividers s := by
  unfold kvWrite; (repeat' split) <;> simp
@[simp] theorem attend_dividers a1 a2 a3 a4 a5 a6 a7 a8 a9 a10 a11 (s : State) : dividers (attend a1 a2 a3 a4 a5 a6 a7 a8 a9 a10 a11 s) = dividers s := by
  unfold attend; (repeat' split) <;> simp
@[simp] theorem backward_dividers a1 a2 a3 a4 a5 a6 a7 a8 a9 a10 a11 (s : State) : dividers (backward a1 a2 a3 a4 a5 a6 a7 a8 a9 a10 a11 s) = dividers s := by
  unfold backward; (repeat' split) <;> simp
@[simp] theorem convRow_dividers a1 a2 a3 a4 a5 a6 a7 a8 a9 a10 (s : State) : dividers (convRow a1 a2 a3 a4 a5 a6 a7 a8 a9 a10 s) = dividers s := by
  unfold convRow; (repeat' (first | rfl | split | (simp; done) | (simp; split)))
@[simp] theorem picotRow_dividers a1 a2 a3 a4 a5 a6 a7 a8 a9 a10 a11 (s : State) : dividers (picotRow a1 a2 a3 a4 a5 a6 a7 a8 a9 a10 a11 s) = dividers s := by
  unfold picotRow; (repeat' (first | rfl | split | (simp; done) | (simp; split)))
@[simp] theorem planarCopy_dividers a1 a2 a3 a4 a5 a6 (s : State) : dividers (planarCopy a1 a2 a3 a4 a5 a6 s) = dividers s := by
  unfold planarCopy; (repeat' split) <;> simp
@[simp] theorem argmaxOp_dividers a1 a2 a3 a4 a5 a6 (s : State) : dividers (argmaxOp a1 a2 a3 a4 a5 a6 s) = dividers s := by
  unfold argmaxOp; (repeat' split) <;> simp
@[simp] theorem loadTestBias_dividers  (s : State) : dividers (loadTestBias  s) = dividers s := by
  unfold loadTestBias; simp
@[simp] theorem runOp_dividers a1 a2 a3 (s : State) : dividers (runOp a1 a2 a3 s) = dividers s := by
  unfold runOp; (repeat' (first | rfl | split | (simp; done) | (simp; split)))
@[simp] theorem runUnit_dividers a1 a2 (s : State) : dividers (runUnit a1 a2 s) = dividers s := by
  unfold runUnit; (repeat' split) <;> simp
@[simp] theorem countActive_dividers a1 a2 (s : State) : dividers (countActive a1 a2 s) = dividers s := by
  unfold countActive; (repeat' split) <;> simp
@[simp] theorem runCycle_dividers a1 a2 (s : State) : dividers (runCycle a1 a2 s) = dividers s := by
  unfold runCycle; simp
@[simp] theorem runUnits_dividers a1 a2 (s : State) : dividers (runUnits a1 a2 s) = dividers s := by
  unfold runUnits; simp
@[simp] theorem setReqState_dividers a1 a2 (s : State) : dividers (setReqState a1 a2 s) = dividers s := by
  unfold setReqState; simp
@[simp] theorem preemptOne_dividers a1 a2 (s : State) : dividers (preemptOne a1 a2 s) = dividers s := by
  unfold preemptOne; split <;> simp

@[simp] theorem preemptAll_dividers a1 (s : State) : dividers (preemptAll a1 s) = dividers s := by
  unfold preemptAll; simp
@[simp] theorem requestReady_dividers a1 (s : State) : dividers (requestReady a1 s) = dividers s := by
  unfold requestReady; (repeat' (first | rfl | split | (simp; done) | (simp; split)))
@[simp] theorem armCores_dividers a1 a2 (s : State) : dividers (armCores a1 a2 s) = dividers s := by
  unfold armCores; simp
@[simp] theorem takePricks_dividers a1 a2 a3 a4 (s : State) : dividers (takePricks a1 a2 a3 a4 s) = dividers s := by
  unfold takePricks; (repeat' (first | rfl | split | (simp; done) | (simp; split)))
@[simp] theorem dropHeld_dividers (a1) (s : State) : dividers (dropHeld a1 s) = dividers s := by
  simp [dividers, dropHeld, Function.comp_def]
@[simp] theorem beginFrame_dividers a1 (s : State) : dividers (beginFrame a1 s) = dividers s := by
  unfold beginFrame; simp
@[simp] theorem lendOut_dividers a1 a2 a3 (s : State) : dividers (lendOut a1 a2 a3 s) = dividers s := by
  unfold lendOut; (repeat' split) <;> simp
@[simp] theorem hostLent_dividers a1 a2 a3 a4 (s : State) : dividers (hostLent a1 a2 a3 a4 s) = dividers s := by
  unfold hostLent; (repeat' split) <;> simp
@[simp] theorem requestDispatch_dividers a1 a2 a3 (s : State) : dividers (requestDispatch a1 a2 a3 s) = dividers s := by
  unfold requestDispatch; (repeat' split) <;> simp
@[simp] theorem requestResume_dividers a1 (s : State) : dividers (requestResume a1 s) = dividers s := by
  unfold requestResume; (repeat' (first | rfl | split | (simp; done) | (simp; split)))
@[simp] theorem hemComplete_dividers a1 a2 a3 (s : State) : dividers (hemComplete a1 a2 a3 s) = dividers s := by
  unfold hemComplete; (repeat' (first | rfl | split | (simp; done) | (simp; split)))
@[simp] theorem verifyPass_dividers a1 a2 a3 (s : State) : dividers (verifyPass a1 a2 a3 s) = dividers s := by
  unfold verifyPass; (repeat' (first | rfl | split | (simp; done) | (simp; split)))
@[simp] theorem writeOutput_dividers a1 a2 a3 a4 (s : State) : dividers (writeOutput a1 a2 a3 a4 s) = dividers s := by
  unfold writeOutput; (repeat' split) <;> simp
@[simp] theorem tellKv_dividers a1 (s : State) : dividers (tellKv a1 s) = dividers s := by
  unfold tellKv; (repeat' split) <;> simp
@[simp] theorem submitResult_dividers a1 (s : State) : dividers (submitResult a1 s) = dividers s := by
  unfold submitResult; (repeat' split) <;> simp
@[simp] theorem workComplete_dividers a1 a2 (s : State) : dividers (workComplete a1 a2 s) = dividers s := by
  unfold workComplete; (repeat' (first | rfl | split | (simp; done) | (simp; split)))
@[simp] theorem inCrcCheck_dividers a1 a2 a3 a4 (s : State) : dividers (inCrcCheck a1 a2 a3 a4 s) = dividers s := by
  unfold inCrcCheck; (repeat' split) <;> simp
@[simp] theorem fallbackTick_dividers a1 (s : State) : dividers (fallbackTick a1 s) = dividers s := by
  unfold fallbackTick; (repeat' split) <;> simp
@[simp] theorem hemCutoff_dividers a1 a2 (s : State) : dividers (hemCutoff a1 a2 s) = dividers s := by
  unfold hemCutoff; (repeat' (first | rfl | split | (simp; done) | (simp; split)))
@[simp] theorem cutPower_dividers  (s : State) : dividers (cutPower  s) = dividers s := by
  unfold cutPower; simp
@[simp] theorem unitsStopped_dividers a1 a2 (s : State) : dividers (unitsStopped a1 a2 s) = dividers s := by
  unfold unitsStopped; (repeat' split) <;> simp
@[simp] theorem releasePages_dividers a1 a2 (s : State) : dividers (releasePages a1 a2 s) = dividers s := by
  unfold releasePages; (repeat' (first | rfl | split | (simp; done) | (simp; split)))
@[simp] theorem requestRetired_dividers a1 (s : State) : dividers (requestRetired a1 s) = dividers s := by
  unfold requestRetired; (repeat' split) <;> simp
@[simp] theorem backToAdmitted_dividers a1 (s : State) : dividers (backToAdmitted a1 s) = dividers s := by
  unfold backToAdmitted; (repeat' split) <;> simp
@[simp] theorem writeFields_dividers a1 a2 (s : State) : dividers (writeFields a1 a2 s) = dividers s := by
  unfold writeFields; simp
@[simp] theorem feedAccepted_dividers a1 a2 (s : State) : dividers (feedAccepted a1 a2 s) = dividers s := by
  unfold feedAccepted; (repeat' split) <;> simp
@[simp] theorem encodeNext_dividers a1 (s : State) : dividers (encodeNext a1 s) = dividers s := by
  unfold encodeNext; (repeat' split) <;> simp
@[simp] theorem finishEncoder_dividers a1 (s : State) : dividers (finishEncoder a1 s) = dividers s := by
  unfold finishEncoder; (repeat' split) <;> simp
@[simp] theorem frameAccepted_dividers a1 a2 (s : State) : dividers (frameAccepted a1 a2 s) = dividers s := by
  unfold frameAccepted; (repeat' (first | rfl | split | (simp; done) | (simp; split)))
@[simp] theorem videoAccepted_dividers a1 a2 (s : State) : dividers (videoAccepted a1 a2 s) = dividers s := by
  unfold videoAccepted; (repeat' split) <;> simp
@[simp] theorem sendFrames_dividers a1 (s : State) : dividers (sendFrames a1 s) = dividers s := by
  unfold sendFrames; (repeat' (first | rfl | split | (simp; done) | (simp; split)))
@[simp] theorem shedOne_dividers a1 (s : State) : dividers (shedOne a1 s) = dividers s := by
  unfold shedOne; split <;> simp

@[simp] theorem shedLent_dividers  (s : State) : dividers (shedLent  s) = dividers s := by
  unfold shedLent; simp
@[simp] theorem setMode_dividers a1 a2 (s : State) : dividers (setMode a1 a2 s) = dividers s := by
  unfold setMode; (repeat' split) <;> simp
@[simp] theorem leaveMirrored_dividers  (s : State) : dividers (leaveMirrored  s) = dividers s := by
  unfold leaveMirrored; simp
@[simp] theorem signalNow_dividers a1 a2 a3 (s : State) : dividers (signalNow a1 a2 a3 s) = dividers s := by
  unfold signalNow; (repeat' split) <;> simp
@[simp] theorem releaseAck_dividers a1 (s : State) : dividers (releaseAck a1 s) = dividers s := by
  unfold releaseAck; (repeat' split) <;> simp
@[simp] theorem releaseWaits_dividers  (s : State) : dividers (releaseWaits  s) = dividers s := by
  unfold releaseWaits; simp
@[simp] theorem signalDying_dividers a1 (s : State) : dividers (signalDying a1 s) = dividers s := by
  unfold signalDying; (repeat' (first | rfl | split | (simp; done) | (simp; split)))
@[simp] theorem replanIdle_dividers  (s : State) : dividers (replanIdle  s) = dividers s := by
  unfold replanIdle; simp
@[simp] theorem haltCore_dividers (a1 a2) (s : State) : dividers (haltCore a1 a2 s) = dividers s := by
  simp only [haltCore, refreshThrottled_dividers, replanIdle_dividers, migrateParts_dividers]
  refine (dividers_foldl _ (fun s x => ?_) _ _).trans (modCore_dividers _ _ _ (fun _ => ⟨rfl, rfl⟩))
  split
  · split <;> simp
  · rfl
@[simp] theorem serveCore_dividers a1 (s : State) : dividers (serveCore a1 s) = dividers s := by
  unfold serveCore; simp
@[simp] theorem endHalfCmds_dividers a1 a2 a3 a4 (s : State) : dividers (endHalfCmds a1 a2 a3 a4 s) = dividers s := by
  unfold endHalfCmds; simp
@[simp] theorem endHalfVideo_dividers a1 a2 a3 (s : State) : dividers (endHalfVideo a1 a2 a3 s) = dividers s := by
  unfold endHalfVideo; simp
@[simp] theorem resetHalf_dividers a1 a2 (s : State) : dividers (resetHalf a1 a2 s) = dividers s := by
  unfold resetHalf; simp
@[simp] theorem closeStream_dividers a1 a2 a3 (s : State) : dividers (closeStream a1 a2 a3 s) = dividers s := by
  unfold closeStream; (repeat' split) <;> simp
@[simp] theorem closeEncoder_dividers a1 a2 a3 (s : State) : dividers (closeEncoder a1 a2 a3 s) = dividers s := by
  unfold closeEncoder; (repeat' split) <;> simp
@[simp] theorem lostApplique_dividers a1 (s : State) : dividers (lostApplique a1 s) = dividers s := by
  unfold lostApplique; (repeat' split) <;> simp
@[simp] theorem lostPattern_dividers a1 (s : State) : dividers (lostPattern a1 s) = dividers s := by
  unfold lostPattern; simp
@[simp] theorem breakSeq_dividers a1 (s : State) : dividers (breakSeq a1 s) = dividers s := by
  unfold breakSeq; (repeat' split) <;> simp
@[simp] theorem loseHalf_dividers (a1) (s : State) : dividers (loseHalf a1 s) = dividers s := by
  have hw : ∀ (k : Nat) (s : State), dividers (modCore k Core.wiped s) = dividers s := fun k s => modCore_dividers _ _ _ (fun _ => ⟨rfl, rfl⟩)
  simp only [loseHalf, dividers_upd0, modHalf_dividers]
  refine (dividers_foldl _ (fun s x => hw _ _) _ _).trans ?_
  refine (dividers_foldl _ (fun s x => by simp) _ _).trans ?_
  refine (dividers_foldl _ (fun s x => by simp) _ _).trans ?_
  refine (dividers_foldl _ (fun s x => by simp) _ _).trans ?_
  exact dividers_foldl _ (fun s x => by simp) _ _
@[simp] theorem halfFault_dividers a1 (s : State) : dividers (halfFault a1 s) = dividers s := by
  unfold halfFault; (repeat' split) <;> simp
@[simp] theorem channelLeaves_dividers (a1) (s : State) : dividers (channelLeaves a1 s) = dividers s := by
  unfold channelLeaves; split
  · rfl
  · extract_lets h d t1 m t3 t4 t5 g gone t7 t8 t9 t10
    have e3 : dividers t3 = dividers s := by simp [t3, t1]
    have e5 : dividers t5 = dividers s := by simp [t5, t4, e3]
    have e7 : dividers t7 = dividers s := by simp [t7, g, e5]
    have e10 : dividers t10 = dividers s := by simp [t10, t9, t8, e7]
    split <;> simp [e10]
@[simp] theorem nop_dividers a1 (s : State) : dividers (nop a1 s) = dividers s := by
  unfold nop; simp
@[simp] theorem identify_dividers a1 (s : State) : dividers (identify a1 s) = dividers s := by
  unfold identify; simp
@[simp] theorem getHealth_dividers a1 (s : State) : dividers (getHealth a1 s) = dividers s := by
  unfold getHealth; simp
@[simp] theorem setConfig_dividers a1 (s : State) : dividers (setConfig a1 s) = dividers s := by
  unfold setConfig; simp
@[simp] theorem configCommit_dividers a1 (s : State) : dividers (configCommit a1 s) = dividers s := by
  unfold configCommit; simp
@[simp] theorem ringCreate_dividers (a1 a2) (s : State) : dividers (ringCreate a1 a2 s) = dividers s := by
  refine runCmdWith_dividers _ _ _ _ _ (fun c => ?_); simp only []
  split
  · simp
  · split
    · simp
    · split
      · simp
      · split
        · simp
        · rename_i t h; have := bindQueue_dividers _ _ _ _ h; simp_all
@[simp] theorem ringDestroy_dividers a1 (s : State) : dividers (ringDestroy a1 s) = dividers s := by
  refine runCmd_dividers _ _ _ _ (fun c => ?_); try simp only []
  (repeat' (first | rfl | split | (simp; done) | (simp; split)))
@[simp] theorem freeRing_dividers a1 (s : State) : dividers (freeRing a1 s) = dividers s := by
  unfold freeRing; (repeat' split) <;> simp
@[simp] theorem ringDestroyed_dividers a1 (s : State) : dividers (ringDestroyed a1 s) = dividers s := by
  unfold ringDestroyed; (repeat' split) <;> simp
@[simp] theorem accountSet_dividers a1 (s : State) : dividers (accountSet a1 s) = dividers s := by
  refine runCmdWith_dividers _ _ _ _ _ (fun c => ?_); try simp only []
  (repeat' (first | rfl | split | (simp; done) | (simp; split)))
theorem runReset_dividers (a1 a2) (f : Cmd → State → State) (s : State) (h : ∀ c, dividers (f c s) = dividers s) :
    dividers (runReset a1 a2 f s) = dividers s := by
  have := runCmd_dividers a1 0x0009 f s h
  unfold runReset; (repeat' split) <;> first | rfl | exact this | simp
@[simp] theorem halfMastReset_dividers  (s : State) : dividers (halfMastReset  s) = dividers s := by
  unfold halfMastReset; (repeat' split) <;> simp
@[simp] theorem resetModuleCmd_dividers a1 (s : State) : dividers (resetModuleCmd a1 s) = dividers s := by
  refine runReset_dividers _ _ _ _  (fun _  => ?_); try simp only []
  (repeat' (first | rfl | split | (simp; done) | (simp; split)))
@[simp] theorem resetHalfCmd_dividers a1 (s : State) : dividers (resetHalfCmd a1 s) = dividers s := by
  refine runReset_dividers _ _ _ _  (fun _  => ?_); try simp only []
  (repeat' (first | rfl | split | (simp; done) | (simp; split)))
@[simp] theorem resetCoreCmd_dividers a1 (s : State) : dividers (resetCoreCmd a1 s) = dividers s := by
  refine runReset_dividers _ _ _ _  (fun _  => ?_); try simp only []
  (repeat' (first | rfl | split | (simp; done) | (simp; split)))
@[simp] theorem releaseHalf_dividers a1 a2 (s : State) : dividers (releaseHalf a1 a2 s) = dividers s := by
  unfold releaseHalf; (repeat' split) <;> simp
@[simp] theorem resetDone_dividers a1 (s : State) : dividers (resetDone a1 s) = dividers s := by
  unfold resetDone; (repeat' (first | rfl | split | (simp; done) | (simp; split)))
@[simp] theorem beginStop_dividers a1 a2 (s : State) : dividers (beginStop a1 a2 s) = dividers s := by
  unfold beginStop; (repeat' split) <;> simp
@[simp] theorem shutdownCmd_dividers a1 (s : State) : dividers (shutdownCmd a1 s) = dividers s := by
  unfold shutdownCmd; (repeat' split) <;> simp
@[simp] theorem shutdownDone_dividers  (s : State) : dividers (shutdownDone  s) = dividers s := by
  unfold shutdownDone; (repeat' split) <;> simp
@[simp] theorem writeReply_dividers a1 a2 a3 (s : State) : dividers (writeReply a1 a2 a3 s) = dividers s := by
  unfold writeReply; (repeat' (first | rfl | split | (simp; done) | (simp; split)))
@[simp] theorem discardReply_dividers a1 a2 (s : State) : dividers (discardReply a1 a2 s) = dividers s := by
  unfold discardReply; simp
@[simp] theorem countReply_dividers a1 a2 a3 (s : State) : dividers (countReply a1 a2 a3 s) = dividers s := by
  unfold countReply; (repeat' split) <;> simp
@[simp] theorem countSentinel_dividers a1 (s : State) : dividers (countSentinel a1 s) = dividers s := by
  unfold countSentinel; (repeat' split) <;> simp
@[simp] theorem discardClosing_dividers a1 (s : State) : dividers (discardClosing a1 s) = dividers s := by
  unfold discardClosing; (repeat' split) <;> simp
@[simp] theorem commitDone_dividers a1 a2 (s : State) : dividers (commitDone a1 a2 s) = dividers s := by
  unfold commitDone; (repeat' split) <;> simp
@[simp] theorem requestEffects_dividers a1 a2 a3 (s : State) : dividers (requestEffects a1 a2 a3 s) = dividers s := by
  unfold requestEffects; (repeat' split) <;> simp
@[simp] theorem replyFence_dividers a1 a2 a3 (s : State) : dividers (replyFence a1 a2 a3 s) = dividers s := by
  unfold replyFence; (repeat' split) <;> simp
@[simp] theorem finalRequest_dividers a1 a2 a3 a4 (s : State) : dividers (finalRequest a1 a2 a3 a4 s) = dividers s := by
  unfold finalRequest; (repeat' split) <;> simp
@[simp] theorem applyConfig_dividers  (s : State) : dividers (applyConfig  s) = dividers s := by
  unfold applyConfig; (repeat' split) <;> simp
@[simp] theorem keyCurrent_dividers a1 (s : State) : dividers (keyCurrent a1 s) = dividers s := by
  unfold keyCurrent; simp
@[simp] theorem cancelUnadmitted_dividers  (s : State) : dividers (cancelUnadmitted  s) = dividers s := by
  unfold cancelUnadmitted; simp
@[simp] theorem onAccept_dividers a1 (s : State) : dividers (onAccept a1 s) = dividers s := by
  unfold onAccept; (repeat' split) <;> simp
@[simp] theorem placeAccepted_dividers a1 a2 (s : State) : dividers (placeAccepted a1 a2 s) = dividers s := by
  unfold placeAccepted; (repeat' split) <;> simp
@[simp] theorem finalCommand_dividers a1 a2 a3 a4 (s : State) : dividers (finalCommand a1 a2 a3 a4 s) = dividers s := by
  unfold finalCommand; (repeat' split) <;> simp
@[simp] theorem acceptCand_dividers a1 (s : State) : dividers (acceptCand a1 s) = dividers s := by
  unfold acceptCand; (repeat' (first | rfl | split | (simp; done) | (simp; split)))
@[simp] theorem acceptEvent_dividers  (s : State) : dividers (acceptEvent  s) = dividers s := by
  unfold acceptEvent; (repeat' (first | rfl | split | (simp; done) | (simp; split)))
@[simp] theorem replyAccept_dividers a1 (s : State) : dividers (replyAccept a1 s) = dividers s := by
  unfold replyAccept; (repeat' split) <;> simp
@[simp] theorem drainEvents_dividers (a1) (s : State) : dividers (drainEvents a1 s) = dividers s := by
  induction a1 generalizing s with
  | zero => rfl
  | succ n ih =>
    unfold drainEvents; split
    · rfl
    · split <;> simp [ih]
@[simp] theorem backlogDrain_dividers  (s : State) : dividers (backlogDrain  s) = dividers s := by
  unfold backlogDrain; (repeat' (first | rfl | split | (simp; done) | (simp; split)))
@[simp] theorem modSlot_dividers a1 a2 (s : State) : dividers (modSlot a1 a2 s) = dividers s := by
  unfold modSlot; simp
@[simp] theorem writeRecord_dividers a1 (s : State) : dividers (writeRecord a1 s) = dividers s := by
  unfold writeRecord; simp
@[simp] theorem fwWriteBlock_dividers a1 a2 (s : State) : dividers (fwWriteBlock a1 a2 s) = dividers s := by
  refine runCmd_dividers _ _ _ _ (fun c => ?_); try simp only []
  (repeat' (first | rfl | split | (simp; done) | (simp; split)))
@[simp] theorem fwBlockWritten_dividers a1 (s : State) : dividers (fwBlockWritten a1 s) = dividers s := by
  unfold fwBlockWritten; (repeat' (first | rfl | split | (simp; done) | (simp; split)))
@[simp] theorem fwVerify_dividers a1 (s : State) : dividers (fwVerify a1 s) = dividers s := by
  refine runCmd_dividers _ _ _ _ (fun c => ?_); try simp only []
  (repeat' (first | rfl | split | (simp; done) | (simp; split)))
@[simp] theorem fwVerified_dividers a1 (s : State) : dividers (fwVerified a1 s) = dividers s := by
  unfold fwVerified; (repeat' (first | rfl | split | (simp; done) | (simp; split)))
@[simp] theorem nameTrial_dividers a1 (s : State) : dividers (nameTrial a1 s) = dividers s := by
  unfold nameTrial; simp
theorem runActivate_dividers (a1 a2) (f : Cmd → Nat → State → State) (s : State)
    (h : ∀ c i s, dividers (f c i s) = dividers s) : dividers (runActivate a1 a2 f s) = dividers s := by
  have := runCmd_dividers a1 0x0703 (fun c s =>
        let i := slotNamed s (le c.pkt 20 1)
        if s.dev.update.isSome then s
        else
          match activateFault s i a2 with
          | some (st, d) => refuse a1 st d s
          | none => f c i (nameTrial i s)) s (fun c => by simp only []; (repeat' split) <;> simp [h])
  unfold runActivate; split
  · rfl
  · split
    · rfl
    · exact this
@[simp] theorem pauseRequests_dividers  (s : State) : dividers (pauseRequests  s) = dividers s := by
  unfold pauseRequests; simp
@[simp] theorem fwActivateKeep_dividers a1 (s : State) : dividers (fwActivateKeep a1 s) = dividers s := by
  refine runActivate_dividers _ _ _ _  (fun _ _ _  => ?_); try simp only []
  (repeat' (first | rfl | split | (simp; done) | (simp; split)))
@[simp] theorem fwActivateFull_dividers a1 (s : State) : dividers (fwActivateFull a1 s) = dividers s := by
  refine runActivate_dividers _ _ _ _  (fun _ _ _  => ?_); try simp only []
  (repeat' (first | rfl | split | (simp; done) | (simp; split)))
@[simp] theorem postMigrated_dividers a1 a2 a3 (s : State) : dividers (postMigrated a1 a2 a3 s) = dividers s := by
  unfold postMigrated; simp
@[simp] theorem migrate_dividers a1 a2 (s : State) : dividers (migrate a1 a2 s) = dividers s := by
  unfold migrate; (repeat' split) <;> simp
@[simp] theorem lateLatch_dividers  (s : State) : dividers (lateLatch  s) = dividers s := by
  unfold lateLatch; (repeat' split) <;> simp
@[simp] theorem pauseEnd_dividers a1 a2 (s : State) : dividers (pauseEnd a1 a2 s) = dividers s := by
  unfold pauseEnd; (repeat' split) <;> simp
@[simp] theorem fwQuery_dividers a1 (s : State) : dividers (fwQuery a1 s) = dividers s := by
  unfold fwQuery; simp
@[simp] theorem blow_dividers a1 (s : State) : dividers (blow a1 s) = dividers s := by
  unfold blow; simp
@[simp] theorem readShadow_dividers  (s : State) : dividers (readShadow  s) = dividers s := by
  unfold readShadow; simp
@[simp] theorem trialComplete_dividers  (s : State) : dividers (trialComplete  s) = dividers s := by
  unfold trialComplete; (repeat' split) <;> simp
@[simp] theorem revertTrial_dividers  (s : State) : dividers (revertTrial  s) = dividers s := by
  unfold revertTrial; (repeat' split) <;> simp
@[simp] theorem rewriteCopies_dividers a1 (s : State) : dividers (rewriteCopies a1 s) = dividers s := by
  unfold rewriteCopies; simp
@[simp] theorem reachRow_dividers a1 (s : State) : dividers (reachRow a1 s) = dividers s := by
  unfold reachRow; simp
@[simp] theorem noteStart_dividers a1 a2 (s : State) : dividers (noteStart a1 a2 s) = dividers s := by
  unfold noteStart; simp
theorem stageOf_dividers (a1 a2 a3 a4) (s : State) : dividers (stageOf a1 a2 a3 a4 s).1 = dividers s := by
  unfold stageOf; split <;> simp [stageRom, stageFuses, stageRecords, stageSlot, stagePower, stageTraining, stageZero, stageArray, stageAttn, stageConfig] <;> (repeat' split) <;> first | (simp; done) | (simp; simp [dividers, Function.comp_def]; done) | simp [dividers, Function.comp_def, Core.wiped]
@[simp] theorem runStages_dividers (a1 a2 a3 a4) (s : State) : dividers (runStages a1 a2 a3 a4 s) = dividers s := by
  induction a4 generalizing s with
  | nil => simp [runStages]
  | cons row rest ih =>
    unfold runStages; simp only []; split
    · simp
    · split
      · rename_i h; have := stageOf_dividers a1 a2 a3 row (reachRow row s); rw [h] at this; simp_all
      · rename_i h; have := stageOf_dividers a1 a2 a3 row (reachRow row s); rw [h] at this; simp_all
@[simp] theorem start_dividers a1 a2 a3 (s : State) : dividers (start a1 a2 a3 s) = dividers s := by
  unfold start; (repeat' split) <;> simp
@[simp] theorem startComplete_dividers  (s : State) : dividers (startComplete  s) = dividers s := by
  unfold startComplete; (repeat' split) <;> simp
@[simp] theorem enterHalfMast_dividers  (s : State) : dividers (enterHalfMast  s) = dividers s := by
  unfold enterHalfMast; simp
@[simp] theorem failStart_dividers (a1) (s : State) : dividers (failStart a1 s) = dividers s := by
  simp only [failStart]; split <;> simp
@[simp] theorem startFailure_dividers  (s : State) : dividers (startFailure  s) = dividers s := by
  unfold startFailure; (repeat' split) <;> simp
@[simp] theorem startRetry_dividers  (s : State) : dividers (startRetry  s) = dividers s := by
  unfold startRetry; (repeat' split) <;> simp
@[simp] theorem stageTimeout_dividers a1 (s : State) : dividers (stageTimeout a1 s) = dividers s := by
  unfold stageTimeout; (repeat' split) <;> simp
@[simp] theorem failsClear_dividers  (s : State) : dividers (failsClear  s) = dividers s := by
  unfold failsClear; (repeat' split) <;> simp
@[simp] theorem fenceAlloc_dividers a1 (s : State) : dividers (fenceAlloc a1 s) = dividers s := by
  refine runCmd_dividers _ _ _ _ (fun c => ?_); try simp only []
  (repeat' (first | rfl | split | (simp; done) | (simp; split)))
theorem runFence_dividers (a1 a2) (f : Cmd → State → State) (s : State) (h : ∀ c, dividers (f c s) = dividers s) :
    dividers (runFence a1 a2 f s) = dividers s := by
  refine runCmdWith_dividers _ _ _ _ _ (fun c => ?_); split <;> simp [h]
@[simp] theorem fenceFree_dividers a1 (s : State) : dividers (fenceFree a1 s) = dividers s := by
  refine runCmdWith_dividers _ _ _ _ _ (fun c => ?_); try simp only []
  (repeat' (first | rfl | split | (simp; done) | (simp; split)))
@[simp] theorem fenceFreeDone_dividers a1 (s : State) : dividers (fenceFreeDone a1 s) = dividers s := by
  unfold fenceFreeDone; (repeat' split) <;> simp
@[simp] theorem fenceSignal_dividers a1 (s : State) : dividers (fenceSignal a1 s) = dividers s := by
  refine runCmdWith_dividers _ _ _ _ _ (fun c => ?_); try simp only []
  (repeat' (first | rfl | split | (simp; done) | (simp; split)))
@[simp] theorem fenceWait_dividers a1 (s : State) : dividers (fenceWait a1 s) = dividers s := by
  refine runCmdWith_dividers _ _ _ _ _ (fun c => ?_); try simp only []
  (repeat' (first | rfl | split | (simp; done) | (simp; split)))
@[simp] theorem waitDone_dividers a1 (s : State) : dividers (waitDone a1 s) = dividers s := by
  unfold waitDone; (repeat' split) <;> simp
@[simp] theorem waitLimit_dividers a1 (s : State) : dividers (waitLimit a1 s) = dividers s := by
  unfold waitLimit; (repeat' split) <;> simp
@[simp] theorem perstDeassert_dividers  (s : State) : dividers (perstDeassert  s) = dividers s := by
  unfold perstDeassert; (repeat' split) <;> simp
@[simp] theorem linkUp_dividers a1 a2 (s : State) : dividers (linkUp a1 a2 s) = dividers s := by
  unfold linkUp; (repeat' split) <;> simp
@[simp] theorem d3hotEntry_dividers  (s : State) : dividers (d3hotEntry  s) = dividers s := by
  unfold d3hotEntry; (repeat' (first | rfl | split | (simp; done) | (simp; split)))
@[simp] theorem dropOutstanding_dividers  (s : State) : dividers (dropOutstanding  s) = dividers s := by
  unfold dropOutstanding; simp
@[simp] theorem d3hotTaken_dividers  (s : State) : dividers (d3hotTaken  s) = dividers s := by
  unfold d3hotTaken; (repeat' (first | rfl | split | (simp; done) | (simp; split)))
@[simp] theorem busMasterDisable_dividers  (s : State) : dividers (busMasterDisable  s) = dividers s := by
  unfold busMasterDisable; (repeat' split) <;> simp
@[simp] theorem busMasterEnable_dividers  (s : State) : dividers (busMasterEnable  s) = dividers s := by
  unfold busMasterEnable; (repeat' split) <;> simp
@[simp] theorem setLatch_dividers a1 (s : State) : dividers (setLatch a1 s) = dividers s := by
  unfold setLatch; simp
@[simp] theorem latchOpen_dividers  (s : State) : dividers (latchOpen  s) = dividers s := by
  unfold latchOpen; (repeat' (first | rfl | split | (simp; done) | (simp; split)))
@[simp] theorem latchClose_dividers  (s : State) : dividers (latchClose  s) = dividers s := by
  unfold latchClose; (repeat' split) <;> simp
@[simp] theorem slotIdChange_dividers a1 (s : State) : dividers (slotIdChange a1 s) = dividers s := by
  unfold slotIdChange; (repeat' (first | rfl | split | (simp; done) | (simp; split)))
@[simp] theorem syspllLoss_dividers  (s : State) : dividers (syspllLoss  s) = dividers s := by
  unfold syspllLoss; (repeat' split) <;> simp
@[simp] theorem refclkFail_dividers  (s : State) : dividers (refclkFail  s) = dividers s := by
  unfold refclkFail; (repeat' split) <;> simp
@[simp] theorem modFeed_dividers a1 a2 (s : State) : dividers (modFeed a1 a2 s) = dividers s := by
  unfold modFeed; simp
@[simp] theorem postFeed_dividers a1 a2 (s : State) : dividers (postFeed a1 a2 s) = dividers s := by
  unfold postFeed; simp
@[simp] theorem feedTurns_dividers a1 a2 (s : State) : dividers (feedTurns a1 a2 s) = dividers s := by
  unfold feedTurns; (repeat' split) <;> simp
@[simp] theorem feedPresent_dividers a1 a2 (s : State) : dividers (feedPresent a1 a2 s) = dividers s := by
  unfold feedPresent; (repeat' split) <;> simp
@[simp] theorem bothLost_dividers  (s : State) : dividers (bothLost  s) = dividers s := by
  unfold bothLost; (repeat' (first | rfl | split | (simp; done) | (simp; split)))
@[simp] theorem feedLost_dividers a1 a2 (s : State) : dividers (feedLost a1 a2 s) = dividers s := by
  unfold feedLost; (repeat' (first | rfl | split | (simp; done) | (simp; split)))
@[simp] theorem measure_dividers a1 a2 a3 (s : State) : dividers (measure a1 a2 a3 s) = dividers s := by
  unfold measure; simp
@[simp] theorem slowWindow_dividers a1 (s : State) : dividers (slowWindow a1 s) = dividers s := by
  unfold slowWindow; simp
@[simp] theorem droop_dividers a1 (s : State) : dividers (droop a1 s) = dividers s := by
  unfold droop; (repeat' split) <;> simp
@[simp] theorem markMargin_dividers a1 (s : State) : dividers (markMargin a1 s) = dividers s := by
  unfold markMargin; (repeat' split) <;> simp
@[simp] theorem closeHour_dividers  (s : State) : dividers (closeHour  s) = dividers s := by
  unfold closeHour; (repeat' (first | rfl | split | (simp; done) | (simp; split)))
@[simp] theorem marginWindow_dividers a1 a2 (s : State) : dividers (marginWindow a1 a2 s) = dividers s := by
  unfold marginWindow; (repeat' split) <;> simp
@[simp] theorem takeOptical_dividers a1 a2 (s : State) : dividers (takeOptical a1 a2 s) = dividers s := by
  unfold takeOptical; simp
@[simp] theorem opticalSample_dividers a1 a2 (s : State) : dividers (opticalSample a1 a2 s) = dividers s := by
  unfold opticalSample; (repeat' split) <;> simp
@[simp] theorem takeReadings_dividers a1 (s : State) : dividers (takeReadings a1 s) = dividers s := by
  unfold takeReadings; simp
@[simp] theorem markSuspect_dividers a1 a2 (s : State) : dividers (markSuspect a1 a2 s) = dividers s := by
  unfold markSuspect; (repeat' split) <;> simp
@[simp] theorem trip_dividers a1 (s : State) : dividers (trip a1 s) = dividers s := by
  unfold trip; simp
@[simp] theorem endFlowStop_dividers  (s : State) : dividers (endFlowStop  s) = dividers s := by
  unfold endFlowStop; simp
@[simp] theorem coolantStop_dividers  (s : State) : dividers (coolantStop  s) = dividers s := by
  unfold coolantStop; (repeat' split) <;> simp
@[simp] theorem orderlyShutdown_dividers  (s : State) : dividers (orderlyShutdown  s) = dividers s := by
  unfold orderlyShutdown; (repeat' split) <;> simp
@[simp] theorem judgeOutlet_dividers  (s : State) : dividers (judgeOutlet  s) = dividers s := by
  unfold judgeOutlet; (repeat' (first | rfl | split | (simp; done) | (simp; split)))
@[simp] theorem migrationReturn_dividers a1 (s : State) : dividers (migrationReturn a1 s) = dividers s := by
  unfold migrationReturn; (repeat' split) <;> simp
@[simp] theorem flowSample_dividers a1 (s : State) : dividers (flowSample a1 s) = dividers s := by
  unfold flowSample; (repeat' (first | rfl | split | (simp; done) | (simp; split)))
@[simp] theorem holdFlow_dividers a1 (s : State) : dividers (holdFlow a1 s) = dividers s := by
  unfold holdFlow; (repeat' split) <;> simp
@[simp] theorem flowCapUpdate_dividers a1 (s : State) : dividers (flowCapUpdate a1 s) = dividers s := by
  unfold flowCapUpdate; (repeat' (first | rfl | split | (simp; done) | (simp; split)))
@[simp] theorem drainEnd_dividers  (s : State) : dividers (drainEnd  s) = dividers s := by
  unfold drainEnd; (repeat' split) <;> simp
@[simp] theorem holdEnd_dividers  (s : State) : dividers (holdEnd  s) = dividers s := by
  unfold holdEnd; (repeat' split) <;> simp
@[simp] theorem holdTimeout_dividers  (s : State) : dividers (holdTimeout  s) = dividers s := by
  unfold holdTimeout; (repeat' split) <;> simp
@[simp] theorem modChannel_dividers a1 a2 (s : State) : dividers (modChannel a1 a2 s) = dividers s := by
  unfold modChannel; simp
@[simp] theorem countCorrected_dividers a1 (s : State) : dividers (countCorrected a1 s) = dividers s := by
  unfold countCorrected; (repeat' (first | rfl | split | (simp; done) | (simp; split)))
@[simp] theorem countUncorrectable_dividers a1 a2 (s : State) : dividers (countUncorrectable a1 a2 s) = dividers s := by
  unfold countUncorrectable; (repeat' (first | rfl | split | (simp; done) | (simp; split)))
@[simp] theorem eccWindowEnd_dividers  (s : State) : dividers (eccWindowEnd  s) = dividers s := by
  unfold eccWindowEnd; (repeat' split) <;> simp
@[simp] theorem refresh_dividers a1 (s : State) : dividers (refresh a1 s) = dividers s := by
  unfold refresh; (repeat' split) <;> simp
@[simp] theorem takeEye_dividers a1 a2 (s : State) : dividers (takeEye a1 a2 s) = dividers s := by
  unfold takeEye; (repeat' split) <;> simp
@[simp] theorem retraining_dividers a1 a2 a3 (s : State) : dividers (retraining a1 a2 a3 s) = dividers s := by
  unfold retraining; (repeat' (first | rfl | split | (simp; done) | (simp; split)))
@[simp] theorem lpddrScrub_dividers a1 a2 a3 (s : State) : dividers (lpddrScrub a1 a2 a3 s) = dividers s := by
  unfold lpddrScrub; (repeat' split) <;> simp
@[simp] theorem loseEntry_dividers a1 (s : State) : dividers (loseEntry a1 s) = dividers s := by
  unfold loseEntry; (repeat' split) <;> simp
@[simp] theorem sramScrub_dividers a1 a2 a3 a4 (s : State) : dividers (sramScrub a1 a2 a3 a4 s) = dividers s := by
  unfold sramScrub; (repeat' split) <;> simp
@[simp] theorem flashPatrol_dividers a1 a2 a3 a4 (s : State) : dividers (flashPatrol a1 a2 a3 a4 s) = dividers s := by
  unfold flashPatrol; (repeat' split) <;> simp
@[simp] theorem repaired_dividers a1 a2 a3 (s : State) : dividers (repaired a1 a2 a3 s) = dividers s := by
  unfold repaired; (repeat' split) <;> simp
@[simp] theorem endTarget_dividers a1 a2 a3 (s : State) : dividers (endTarget a1 a2 a3 s) = dividers s := by
  unfold endTarget; (repeat' split) <;> simp
@[simp] theorem strike_dividers a1 a2 (s : State) : dividers (strike a1 a2 s) = dividers s := by
  unfold strike; (repeat' split) <;> simp
@[simp] theorem recordUnknown_dividers a1 (s : State) : dividers (recordUnknown a1 s) = dividers s := by
  unfold recordUnknown; simp
@[simp] theorem memoryError_dividers a1 a2 (s : State) : dividers (memoryError a1 a2 s) = dividers s := by
  unfold memoryError; (repeat' split) <;> simp
@[simp] theorem phyFault_dividers a1 (s : State) : dividers (phyFault a1 s) = dividers s := by
  unfold phyFault; (repeat' split) <;> simp
@[simp] theorem mapRebuilt_dividers a1 (s : State) : dividers (mapRebuilt a1 s) = dividers s := by
  unfold mapRebuilt; (repeat' split) <;> simp
@[simp] theorem faultHalf_dividers a1 (s : State) : dividers (faultHalf a1 s) = dividers s := by
  unfold faultHalf; (repeat' split) <;> simp
@[simp] theorem dieLinkFault_dividers a1 (s : State) : dividers (dieLinkFault a1 s) = dividers s := by
  unfold dieLinkFault; (repeat' split) <;> simp
@[simp] theorem windowClose_dividers a1 (s : State) : dividers (windowClose a1 s) = dividers s := by
  unfold windowClose; (repeat' split) <;> simp
@[simp] theorem modStage_dividers a1 a2 (s : State) : dividers (modStage a1 a2 s) = dividers s := by
  unfold modStage; simp
@[simp] theorem waitOn_dividers a1 a2 (s : State) : dividers (waitOn a1 a2 s) = dividers s := by
  unfold waitOn; simp
@[simp] theorem stopWait_dividers a1 a2 (s : State) : dividers (stopWait a1 a2 s) = dividers s := by
  unfold stopWait; (repeat' split) <;> simp
@[simp] theorem haloWrite_dividers a1 a2 a3 a4 a5 a6 a7 (s : State) : dividers (haloWrite a1 a2 a3 a4 a5 a6 a7 s) = dividers s := by
  unfold haloWrite; (repeat' (first | rfl | split | (simp; done) | (simp; split)))
@[simp] theorem flushHalf_dividers a1 a2 (s : State) : dividers (flushHalf a1 a2 s) = dividers s := by
  unfold flushHalf; simp
@[simp] theorem faultFrame_dividers a1 (s : State) : dividers (faultFrame a1 s) = dividers s := by
  unfold faultFrame; simp
@[simp] theorem haloRead_dividers a1 a2 a3 a4 (s : State) : dividers (haloRead a1 a2 a3 a4 s) = dividers s := by
  unfold haloRead; (repeat' (first | rfl | split | (simp; done) | (simp; split)))
@[simp] theorem nextFrame_dividers a1 (s : State) : dividers (nextFrame a1 s) = dividers s := by
  unfold nextFrame; (repeat' split) <;> simp
@[simp] theorem frameEnd_dividers a1 a2 a3 a4 (s : State) : dividers (frameEnd a1 a2 a3 a4 s) = dividers s := by
  unfold frameEnd; (repeat' split) <;> simp
@[simp] theorem streamOpen_dividers a1 (s : State) : dividers (streamOpen a1 s) = dividers s := by
  refine runCmd_dividers _ _ _ _ (fun c => ?_); try simp only []
  (repeat' (first | rfl | split | (simp; done) | (simp; split)))
@[simp] theorem replyFeed_dividers a1 a2 a3 a4 a5 a6 (s : State) : dividers (replyFeed a1 a2 a3 a4 a5 a6 s) = dividers s := by
  unfold replyFeed; simp
@[simp] theorem streamFeed_dividers a1 a2 a3 a4 (s : State) : dividers (streamFeed a1 a2 a3 a4 s) = dividers s := by
  refine runCmdWith_dividers _ _ _ _ _ (fun c => ?_); try simp only []
  (repeat' (first | rfl | split | (simp; done) | (simp; split)))
@[simp] theorem noBuffer_dividers a1 a2 a3 (s : State) : dividers (noBuffer a1 a2 a3 s) = dividers s := by
  unfold noBuffer; simp
@[simp] theorem showStart_dividers a1 a2 a3 a4 a5 a6 (s : State) : dividers (showStart a1 a2 a3 a4 a5 a6 s) = dividers s := by
  unfold showStart; simp
@[simp] theorem decodeStart_dividers a1 a2 a3 a4 a5 a6 (s : State) : dividers (decodeStart a1 a2 a3 a4 a5 a6 s) = dividers s := by
  unfold decodeStart; simp
@[simp] theorem pictureStart_dividers a1 a2 (s : State) : dividers (pictureStart a1 a2 s) = dividers s := by
  unfold pictureStart; (repeat' (first | rfl | split | (simp; done) | (simp; split)))
@[simp] theorem feedDone_dividers a1 a2 a3 a4 a5 a6 (s : State) : dividers (feedDone a1 a2 a3 a4 a5 a6 s) = dividers s := by
  unfold feedDone; (repeat' (first | rfl | split | (simp; done) | (simp; split)))
@[simp] theorem pictureEnds_dividers a1 a2 a3 a4 (s : State) : dividers (pictureEnds a1 a2 a3 a4 s) = dividers s := by
  unfold pictureEnds; (repeat' (first | rfl | split | (simp; done) | (simp; split)))
@[simp] theorem pictureEnd_dividers a1 a2 (s : State) : dividers (pictureEnd a1 a2 s) = dividers s := by
  unfold pictureEnd; (repeat' split) <;> simp
@[simp] theorem decodeWatchdog_dividers a1 a2 a3 (s : State) : dividers (decodeWatchdog a1 a2 a3 s) = dividers s := by
  unfold decodeWatchdog; (repeat' split) <;> simp
@[simp] theorem streamClose_dividers a1 (s : State) : dividers (streamClose a1 s) = dividers s := by
  refine runCmdWith_dividers _ _ _ _ _ (fun c => ?_); try simp only []
  (repeat' (first | rfl | split | (simp; done) | (simp; split)))
@[simp] theorem streamClosed_dividers a1 (s : State) : dividers (streamClosed a1 s) = dividers s := by
  unfold streamClosed; (repeat' split) <;> simp
@[simp] theorem encOpen_dividers a1 (s : State) : dividers (encOpen a1 s) = dividers s := by
  refine runCmd_dividers _ _ _ _ (fun c => ?_); try simp only []
  (repeat' (first | rfl | split | (simp; done) | (simp; split)))
@[simp] theorem frameTaken_dividers a1 a2 a3 a4 a5 (s : State) : dividers (frameTaken a1 a2 a3 a4 a5 s) = dividers s := by
  unfold frameTaken; (repeat' split) <;> simp
@[simp] theorem encFrame_dividers a1 a2 a3 a4 a5 (s : State) : dividers (encFrame a1 a2 a3 a4 a5 s) = dividers s := by
  refine runCmdWith_dividers _ _ _ _ _ (fun c => ?_); try simp only []
  (repeat' (first | rfl | split | (simp; done) | (simp; split)))
@[simp] theorem writeUnit_dividers a1 a2 a3 (s : State) : dividers (writeUnit a1 a2 a3 s) = dividers s := by
  unfold writeUnit; (repeat' split) <;> simp
@[simp] theorem frameDone_dividers a1 a2 a3 (s : State) : dividers (frameDone a1 a2 a3 s) = dividers s := by
  unfold frameDone; (repeat' (first | rfl | split | (simp; done) | (simp; split)))
@[simp] theorem encClose_dividers a1 (s : State) : dividers (encClose a1 s) = dividers s := by
  refine runCmdWith_dividers _ _ _ _ _ (fun c => ?_); try simp only []
  (repeat' (first | rfl | split | (simp; done) | (simp; split)))
theorem runTest_dividers (a1 a2 a3) (f : Cmd → State → State) (s : State) (h : ∀ c, dividers (f c s) = dividers s) :
    dividers (runTest a1 a2 a3 f s) = dividers s := by
  have := runCmd_dividers a1 a2 f s h
  unfold runTest; (repeat' split) <;> first | rfl | exact this | simp
@[simp] theorem loopbackSet_dividers a1 (s : State) : dividers (loopbackSet a1 s) = dividers s := by
  refine runTest_dividers _ _ _ _ _  (fun _  => ?_); try simp only []
  (repeat' (first | rfl | split | (simp; done) | (simp; split)))
@[simp] theorem loopbackEnd_dividers a1 a2 a3 (s : State) : dividers (loopbackEnd a1 a2 a3 s) = dividers s := by
  unfold loopbackEnd; (repeat' split) <;> simp
@[simp] theorem selftestRun_dividers a1 (s : State) : dividers (selftestRun a1 s) = dividers s := by
  refine runTest_dividers _ _ _ _ _  (fun _  => ?_); try simp only []
  (repeat' (first | rfl | split | (simp; done) | (simp; split)))
@[simp] theorem wipeCore_dividers (a1) (s : State) : dividers (wipeCore a1 s) = dividers s :=
  modCore_dividers _ _ _ (fun _ => ⟨rfl, rfl⟩)
@[simp] theorem coreTested_dividers a1 a2 a3 (s : State) : dividers (coreTested a1 a2 a3 s) = dividers s := by
  unfold coreTested; (repeat' (first | rfl | split | (simp; done) | (simp; split)))
@[simp] theorem selftestEnd_dividers a1 a2 a3 (s : State) : dividers (selftestEnd a1 a2 a3 s) = dividers s := by
  unfold selftestEnd; try simp only []
  (repeat' (first | rfl | split | (simp; done) | (simp; split)))
@[simp] theorem bobbinRead_dividers a1 (s : State) : dividers (bobbinRead a1 s) = dividers s := by
  unfold bobbinRead; simp
theorem runCounter_dividers (a1 a2) (f : Cmd → State → State) (s : State) (h : ∀ c, dividers (f c s) = dividers s) :
    dividers (runCounter a1 a2 f s) = dividers s := by
  have := runCmd_dividers a1 0x0804 f s h
  unfold runCounter; (repeat' split) <;> first | rfl | exact this | simp
@[simp] theorem counterRead_dividers a1 (s : State) : dividers (counterRead a1 s) = dividers s := by
  refine runCounter_dividers _ _ _ _  (fun _  => ?_); try simp only []
  (repeat' (first | rfl | split | (simp; done) | (simp; split)))
@[simp] theorem setProfiling_dividers a1 a2 a3 (s : State) : dividers (setProfiling a1 a2 a3 s) = dividers s := by
  refine runCounter_dividers _ _ _ _  (fun _  => ?_); try simp only []
  (repeat' (first | rfl | split | (simp; done) | (simp; split)))
@[simp] theorem counterArm_dividers a1 (s : State) : dividers (counterArm a1 s) = dividers s := by
  unfold counterArm; simp
@[simp] theorem counterDisarm_dividers a1 (s : State) : dividers (counterDisarm a1 s) = dividers s := by
  unfold counterDisarm; simp
@[simp] theorem replyMargins_dividers a1 a2 (s : State) : dividers (replyMargins a1 a2 s) = dividers s := by
  unfold replyMargins; simp
@[simp] theorem marginScan_dividers a1 (s : State) : dividers (marginScan a1 s) = dividers s := by
  refine runCmd_dividers _ _ _ _ (fun c => ?_); try simp only []
  (repeat' (first | rfl | split | (simp; done) | (simp; split)))
@[simp] theorem marginScanned_dividers a1 a2 a3 a4 (s : State) : dividers (marginScanned a1 a2 a3 a4 s) = dividers s := by
  unfold marginScanned; (repeat' split) <;> simp
@[simp] theorem traceConfig_dividers a1 (s : State) : dividers (traceConfig a1 s) = dividers s := by
  refine runCmd_dividers _ _ _ _ (fun c => ?_); try simp only []
  (repeat' (first | rfl | split | (simp; done) | (simp; split)))
@[simp] theorem traceSample_dividers  (s : State) : dividers (traceSample  s) = dividers s := by
  unfold traceSample; (repeat' (first | rfl | split | (simp; done) | (simp; split)))
@[simp] theorem traceSyncRec_dividers  (s : State) : dividers (traceSyncRec  s) = dividers s := by
  unfold traceSyncRec; (repeat' (first | rfl | split | (simp; done) | (simp; split)))
@[simp] theorem liveness_dividers a1 (s : State) : dividers (liveness a1 s) = dividers s := by
  unfold liveness; (repeat' (first | rfl | split | (simp; done) | (simp; split)))
@[simp] theorem wedge_dividers  (s : State) : dividers (wedge  s) = dividers s := by
  unfold wedge; (repeat' split) <;> simp
@[simp] theorem discardMirrored_dividers  (s : State) : dividers (discardMirrored  s) = dividers s := by
  unfold discardMirrored; simp
@[simp] theorem setBalance_dividers a1 a2 (s : State) : dividers (setBalance a1 a2 s) = dividers s := by
  unfold setBalance; simp
@[simp] theorem applyRequest_dividers a1 a2 (s : State) : dividers (applyRequest a1 a2 s) = dividers s := by
  unfold applyRequest; simp
@[simp] theorem applyFetch_dividers a1 a2 a3 (s : State) : dividers (applyFetch a1 a2 a3 s) = dividers s := by
  unfold applyFetch; simp
@[simp] theorem applyKv_dividers (a1 a2 a3 a4 a5) (s : State) : dividers (applyKv a1 a2 a3 a4 a5 s) = dividers s := by
  unfold applyKv; split
  · rfl
  · split
    · rfl
    · simp only []; split
      · rfl
      · simp only [storeLists_dividers]
        exact (dividers_foldl _ (fun s x => by split <;> simp) _ _).trans (by simp)
@[simp] theorem applyFinal_dividers a1 a2 a3 a4 (s : State) : dividers (applyFinal a1 a2 a3 a4 s) = dividers s := by
  unfold applyFinal; (repeat' split) <;> simp
@[simp] theorem applySeq_dividers a1 a2 a3 a4 a5 a6 a7 (s : State) : dividers (applySeq a1 a2 a3 a4 a5 a6 a7 s) = dividers s := by
  unfold applySeq; simp
@[simp] theorem applyFence_dividers a1 a2 a3 a4 a5 (s : State) : dividers (applyFence a1 a2 a3 a4 a5 s) = dividers s := by
  unfold applyFence; (repeat' split) <;> simp
@[simp] theorem applyCommand_dividers a1 a2 a3 a4 a5 a6 (s : State) : dividers (applyCommand a1 a2 a3 a4 a5 a6 s) = dividers s := by
  unfold applyCommand; (repeat' split) <;> simp
@[simp] theorem reportSetup_dividers a1 a2 a3 (s : State) : dividers (reportSetup a1 a2 a3 s) = dividers s := by
  unfold reportSetup; (repeat' (first | rfl | split | (simp; done) | (simp; split)))
@[simp] theorem commitGiven_dividers a1 a2 (s : State) : dividers (commitGiven a1 a2 s) = dividers s := by
  unfold commitGiven; (repeat' split) <;> simp
@[simp] theorem applySetup_dividers a1 a2 a3 a4 a5 a6 (s : State) : dividers (applySetup a1 a2 a3 a4 a5 a6 s) = dividers s := by
  unfold applySetup; (repeat' (first | rfl | split | (simp; done) | (simp; split)))
@[simp] theorem reportApplied_dividers (s : State) : dividers (reportApplied s) = dividers s := by
  unfold reportApplied; split
  · rfl
  · refine (dividers_foldl _ (fun s x => ?_) _ _).trans (by simp)
    split
    · simp only [reportSetup_dividers]; split <;> simp
    · rfl
@[simp] theorem divergeSeq_dividers a1 a2 (s : State) : dividers (divergeSeq a1 a2 s) = dividers s := by
  unfold divergeSeq; simp
@[simp] theorem diverge_dividers (a1) (s : State) : dividers (diverge a1 s) = dividers s := by
  unfold diverge; simp only []; split <;> first | (simp; done) | (split <;> simp)
@[simp] theorem applyRecord_dividers a1 (s : State) : dividers (applyRecord a1 s) = dividers s := by
  unfold applyRecord; (repeat' split) <;> simp
@[simp] theorem takeRecord_dividers (a1) (s : State) : dividers (takeRecord a1 s) = dividers s := by
  unfold takeRecord; simp only []; split
  · simp
  · split
    · simp
    · split
      · rfl
      · split <;> simp
@[simp] theorem intake_dividers a1 (s : State) : dividers (intake a1 s) = dividers s := by
  unfold intake; (repeat' split) <;> simp
@[simp] theorem takeWaiting_dividers (a1) (s : State) : dividers (takeWaiting a1 s) = dividers s := by
  unfold takeWaiting
  refine (dividers_foldl _ (fun s x => ?_) _ _).trans (by simp)
  split
  · simp only []; split <;> simp
  · simp
@[simp] theorem recordRx_dividers a1 (s : State) : dividers (recordRx a1 s) = dividers s := by
  unfold recordRx; (repeat' split) <;> simp
@[simp] theorem handOver_dividers  (s : State) : dividers (handOver  s) = dividers s := by
  unfold handOver; simp
@[simp] theorem tryHandover_dividers  (s : State) : dividers (tryHandover  s) = dividers s := by
  unfold tryHandover; (repeat' split) <;> simp
@[simp] theorem ackRx_dividers a1 (s : State) : dividers (ackRx a1 s) = dividers s := by
  unfold ackRx; (repeat' split) <;> simp
@[simp] theorem ackTimeout_dividers  (s : State) : dividers (ackTimeout  s) = dividers s := by
  unfold ackTimeout; (repeat' split) <;> simp
@[simp] theorem setupReport_dividers a1 a2 (s : State) : dividers (setupReport a1 a2 s) = dividers s := by
  unfold setupReport; (repeat' (first | rfl | split | (simp; done) | (simp; split)))
@[simp] theorem armCopies_dividers  (s : State) : dividers (armCopies  s) = dividers s := by
  unfold armCopies; simp
@[simp] theorem takeoverEntry_dividers a1 a2 (s : State) : dividers (takeoverEntry a1 a2 s) = dividers s := by
  unfold takeoverEntry; (repeat' (first | rfl | split | (simp; done) | (simp; split)))
@[simp] theorem loseCommand_dividers a1 a2 a3 a4 a5 (s : State) : dividers (loseCommand a1 a2 a3 a4 a5 s) = dividers s := by
  unfold loseCommand; (repeat' split) <;> simp
@[simp] theorem openRings_dividers  (s : State) : dividers (openRings  s) = dividers s := by
  unfold openRings; simp
@[simp] theorem loseWork_dividers  (s : State) : dividers (loseWork  s) = dividers s := by
  unfold loseWork; simp
@[simp] theorem openWindows_dividers  (s : State) : dividers (openWindows  s) = dividers s := by
  unfold openWindows; simp
@[simp] theorem takeover_dividers a1 (s : State) : dividers (takeover a1 s) = dividers s := by
  unfold takeover; simp
@[simp] theorem giveUp_dividers  (s : State) : dividers (giveUp  s) = dividers s := by
  unfold giveUp; simp
@[simp] theorem endPairCmds_dividers  (s : State) : dividers (endPairCmds  s) = dividers s := by
  unfold endPairCmds; (repeat' (first | rfl | split | (simp; done) | (simp; split)))
@[simp] theorem partnerLost_dividers  (s : State) : dividers (partnerLost  s) = dividers s := by
  unfold partnerLost; (repeat' split) <;> simp
@[simp] theorem unbind_dividers  (s : State) : dividers (unbind  s) = dividers s := by
  unfold unbind; (repeat' (first | rfl | split | (simp; done) | (simp; split)))
@[simp] theorem followMode_dividers a1 (s : State) : dividers (followMode a1 s) = dividers s := by
  unfold followMode; (repeat' split) <;> simp
@[simp] theorem takeFrame_dividers (a1 a2 a3 a4) (s : State) : dividers (takeFrame a1 a2 a3 a4 s) = dividers s := by
  unfold takeFrame; simp only []; split <;> (try split) <;> simp <;> split <;> simp
@[simp] theorem frameARx_dividers a1 (s : State) : dividers (frameARx a1 s) = dividers s := by
  unfold frameARx; (repeat' (first | rfl | split | (simp; done) | (simp; split)))
@[simp] theorem frameBRx_dividers a1 a2 (s : State) : dividers (frameBRx a1 a2 s) = dividers s := by
  unfold frameBRx; (repeat' split) <;> simp
@[simp] theorem heartbeat_dividers  (s : State) : dividers (heartbeat  s) = dividers s := by
  unfold heartbeat; (repeat' split) <;> simp
@[simp] theorem linkLost_dividers  (s : State) : dividers (linkLost  s) = dividers s := by
  simp only [linkLost]
  split
  · split <;> simp
  · simp
@[simp] theorem mirrorUp_dividers  (s : State) : dividers (mirrorUp  s) = dividers s := by
  unfold mirrorUp; (repeat' split) <;> simp
@[simp] theorem tenantCreate_dividers a1 (s : State) : dividers (tenantCreate a1 s) = dividers s := by
  refine runCmdWith_dividers _ _ _ _ _ (fun c => ?_); try simp only []
  (repeat' (first | rfl | split | (simp; done) | (simp; split)))
@[simp] theorem beginRemoval_dividers a1 a2 (s : State) : dividers (beginRemoval a1 a2 s) = dividers s := by
  unfold beginRemoval; simp
@[simp] theorem tenantRemove_dividers a1 (s : State) : dividers (tenantRemove a1 s) = dividers s := by
  refine runCmd_dividers _ _ _ _ (fun c => ?_); try simp only []
  (repeat' (first | rfl | split | (simp; done) | (simp; split)))
@[simp] theorem releaseTenant_dividers (a1) (s : State) : dividers (releaseTenant a1 s) = dividers s := by
  simp only [releaseTenant, rotate_dividers, dividers_upd0, dropStages_dividers, zeroPages_dividers]
  simp only [dividers, List.map_map]
  apply List.ext_getElem
  · simp
  · intro i h1 h2; simp only [List.getElem_map, List.getElem_zipIdx, Function.comp_apply]
    split <;> rfl
@[simp] theorem removalDone_dividers a1 (s : State) : dividers (removalDone a1 s) = dividers s := by
  unfold removalDone; (repeat' (first | rfl | split | (simp; done) | (simp; split)))
@[simp] theorem markKeyless_dividers a1 (s : State) : dividers (markKeyless a1 s) = dividers s := by
  unfold markKeyless; simp
@[simp] theorem keyInstall_dividers a1 a2 (s : State) : dividers (keyInstall a1 a2 s) = dividers s := by
  refine runCmd_dividers _ _ _ _ (fun c => ?_); try simp only []
  (repeat' (first | rfl | split | (simp; done) | (simp; split)))
@[simp] theorem rotateTo_dividers a1 a2 a3 a4 (s : State) : dividers (rotateTo a1 a2 a3 a4 s) = dividers s := by
  unfold rotateTo; simp
@[simp] theorem keyRotate_dividers a1 a2 (s : State) : dividers (keyRotate a1 a2 s) = dividers s := by
  refine runCmd_dividers _ _ _ _ (fun c => ?_); try simp only []
  (repeat' (first | rfl | split | (simp; done) | (simp; split)))
@[simp] theorem restitch_dividers a1 a2 (s : State) : dividers (restitch a1 a2 s) = dividers s := by
  unfold restitch; (repeat' (first | rfl | split | (simp; done) | (simp; split)))
@[simp] theorem attestQuote_dividers a1 a2 (s : State) : dividers (attestQuote a1 a2 s) = dividers s := by
  refine runCmd_dividers _ _ _ _ (fun c => ?_); try simp only []
  (repeat' (first | rfl | split | (simp; done) | (simp; split)))
@[simp] theorem partitionSet_dividers a1 a2 (s : State) : dividers (partitionSet a1 a2 s) = dividers s := by
  refine runCmdWith_dividers _ _ _ _ _ (fun c => ?_); try simp only []
  (repeat' (first | rfl | split | (simp; done) | (simp; split)))
@[simp] theorem patternStore_dividers a1 a2 (s : State) : dividers (patternStore a1 a2 s) = dividers s := by
  refine runCmd_dividers _ _ _ _ (fun c => ?_); try simp only []
  (repeat' (first | rfl | split | (simp; done) | (simp; split)))
@[simp] theorem patternStored_dividers a1 a2 (s : State) : dividers (patternStored a1 a2 s) = dividers s := by
  unfold patternStored; (repeat' split) <;> simp
theorem runPattern_dividers (a1 a2) (f : Cmd → Nat → Pattern → State → State) (s : State)
    (h : ∀ c i p, dividers (f c i p s) = dividers s) : dividers (runPattern a1 a2 f s) = dividers s := by
  refine runCmdWith_dividers _ _ _ _ _ (fun c => ?_); (repeat' split) <;> simp [h]
@[simp] theorem stageRefused_dividers a1 a2 a3 (s : State) : dividers (stageRefused a1 a2 a3 s) = dividers s := by
  unfold stageRefused; simp
@[simp] theorem patternStage_dividers a1 (s : State) : dividers (patternStage a1 s) = dividers s := by
  refine runCmdWith_dividers _ _ _ _ _ (fun c => ?_); try simp only []
  (repeat' (first | rfl | split | (simp; done) | (simp; split)))
@[simp] theorem stageFails_dividers a1 a2 a3 a4 (s : State) : dividers (stageFails a1 a2 a3 a4 s) = dividers s := by
  unfold stageFails; simp
@[simp] theorem patternStaged_dividers a1 a2 (s : State) : dividers (patternStaged a1 a2 s) = dividers s := by
  unfold patternStaged; (repeat' (first | rfl | split | (simp; done) | (simp; split)))
@[simp] theorem withdrawFor_dividers (a1 a2) (s : State) : dividers (withdrawFor a1 a2 s) = dividers s := by
  induction a2 generalizing s with
  | nil => rfl
  | cons j rest ih => unfold withdrawFor; simp only [ih]; split <;> simp
@[simp] theorem addStages_dividers a1 a2 (s : State) : dividers (addStages a1 a2 s) = dividers s := by
  unfold addStages; (repeat' (first | rfl | split | (simp; done) | (simp; split)))
@[simp] theorem pinPattern_dividers a1 a2 a3 (s : State) : dividers (pinPattern a1 a2 a3 s) = dividers s := by
  unfold pinPattern; (repeat' split) <;> simp
@[simp] theorem rotatePattern_dividers a1 a2 a3 (s : State) : dividers (rotatePattern a1 a2 a3 s) = dividers s := by
  unfold rotatePattern; (repeat' split) <;> simp
@[simp] theorem patternReside_dividers a1 (s : State) : dividers (patternReside a1 s) = dividers s := by
  refine runCmdWith_dividers _ _ _ _ _ (fun c => ?_); try simp only []
  (repeat' (first | rfl | split | (simp; done) | (simp; split)))
@[simp] theorem patternResident_dividers a1 (s : State) : dividers (patternResident a1 s) = dividers s := by
  unfold patternResident; (repeat' (first | rfl | split | (simp; done) | (simp; split)))
@[simp] theorem patternEvict_dividers a1 (s : State) : dividers (patternEvict a1 s) = dividers s := by
  refine runCmdWith_dividers _ _ _ _ _ (fun c => ?_); try simp only []
  (repeat' (first | rfl | split | (simp; done) | (simp; split)))
@[simp] theorem evictTo_dividers a1 a2 a3 (s : State) : dividers (evictTo a1 a2 a3 s) = dividers s := by
  unfold evictTo; (repeat' split) <;> simp
@[simp] theorem patternEvicted_dividers a1 (s : State) : dividers (patternEvicted a1 s) = dividers s := by
  unfold patternEvicted; (repeat' (first | rfl | split | (simp; done) | (simp; split)))
@[simp] theorem appliqueLoad_dividers a1 (s : State) : dividers (appliqueLoad a1 s) = dividers s := by
  refine runCmdWith_dividers _ _ _ _ _ (fun c => ?_); try simp only []
  (repeat' (first | rfl | split | (simp; done) | (simp; split)))
theorem runApplique_dividers (a1 a2) (f : Cmd → Nat → Applique → State → State) (s : State)
    (h : ∀ c i p, dividers (f c i p s) = dividers s) : dividers (runApplique a1 a2 f s) = dividers s := by
  refine runCmdWith_dividers _ _ _ _ _ (fun c => ?_); (repeat' split) <;> simp [h]
@[simp] theorem appliqueReplace_dividers a1 (s : State) : dividers (appliqueReplace a1 s) = dividers s := by
  refine runCmdWith_dividers _ _ _ _ _ (fun c => ?_); try simp only []
  (repeat' (first | rfl | split | (simp; done) | (simp; split)))
@[simp] theorem loadedVersion_dividers a1 a2 a3 a4 a5 (s : State) : dividers (loadedVersion a1 a2 a3 a4 a5 s) = dividers s := by
  unfold loadedVersion; (repeat' split) <;> simp
@[simp] theorem appliqueLoaded_dividers a1 a2 a3 a4 (s : State) : dividers (appliqueLoaded a1 a2 a3 a4 s) = dividers s := by
  unfold appliqueLoaded; (repeat' (first | rfl | split | (simp; done) | (simp; split)))
@[simp] theorem appliqueRetire_dividers a1 (s : State) : dividers (appliqueRetire a1 s) = dividers s := by
  refine runCmdWith_dividers _ _ _ _ _ (fun c => ?_); try simp only []
  (repeat' (first | rfl | split | (simp; done) | (simp; split)))
@[simp] theorem pairBind_dividers a1 (s : State) : dividers (pairBind a1 s) = dividers s := by
  refine runCmd_dividers _ _ _ _ (fun c => ?_); try simp only []
  (repeat' (first | rfl | split | (simp; done) | (simp; split)))
@[simp] theorem pairBound_dividers a1 a2 (s : State) : dividers (pairBound a1 a2 s) = dividers s := by
  unfold pairBound; (repeat' split) <;> simp
@[simp] theorem bindTimeout_dividers a1 (s : State) : dividers (bindTimeout a1 s) = dividers s := by
  unfold bindTimeout; (repeat' split) <;> simp
@[simp] theorem pairStatus_dividers a1 (s : State) : dividers (pairStatus a1 s) = dividers s := by
  unfold pairStatus; simp
theorem runActive_dividers (a1 a2 a3) (f : Cmd → State → State) (s : State) (h : ∀ c, dividers (f c s) = dividers s) :
    dividers (runActive a1 a2 a3 f s) = dividers s := by
  refine runCmd_dividers _ _ _ _ (fun c => ?_); split <;> simp [h]
@[simp] theorem resilverStart_dividers a1 (s : State) : dividers (resilverStart a1 s) = dividers s := by
  refine runCmd_dividers _ _ _ _ (fun c => ?_); try simp only []
  (repeat' (first | rfl | split | (simp; done) | (simp; split)))
@[simp] theorem bindCopied_dividers (a1 a2) (s : State) : dividers (bindCopied a1 a2 s) = dividers s := by
  unfold bindCopied
  refine dividers_foldl _ (fun s x => ?_) _ _
  cases h : bindQueue x.2.queue (tgetD a2 x.2.queue 0) s with
  | none => rfl
  | some t => exact bindQueue_dividers _ _ _ _ h
@[simp] theorem drawKeys_dividers (s : State) : dividers (drawKeys s) = dividers s := by
  unfold drawKeys; refine dividers_foldl _ (fun s x => ?_) _ _; rfl
@[simp] theorem pagesForCopied_dividers (a1) (s : State) : dividers (pagesForCopied a1 s) = dividers s := by
  simp only [pagesForCopied]
  refine (dividers_foldl _ (fun s x => by simp) _ _).trans ?_
  refine (dividers_foldl _ (fun s x => by simp) _ _).trans ?_
  refine (dividers_foldl _ (fun s x => by split <;> simp) _ _).trans ?_
  exact dividers_foldl _ (fun s x => by split <;> simp) _ _
@[simp] theorem install_dividers a1 a2 (s : State) : dividers (install a1 a2 s) = dividers s := by
  unfold install; simp
@[simp] theorem sparePhase_dividers a1 a2 (s : State) : dividers (sparePhase a1 a2 s) = dividers s := by
  unfold sparePhase; (repeat' split) <;> simp
@[simp] theorem copyPhase_dividers (a1) (s : State) : dividers (copyPhase a1 s) = dividers s := by
  unfold copyPhase; split
  · refine (dividers_foldl _ (fun s x => by simp) _ _).trans ?_
    refine (dividers_foldl _ (fun s x => by split <;> simp) _ _).trans ?_
    simp
  · simp
  · refine dividers_foldl _ (fun s x => ?_) _ _; exact dividers_foldl _ (fun s x => by simp) _ _
  · rfl
@[simp] theorem phaseComplete_dividers a1 a2 a3 (s : State) : dividers (phaseComplete a1 a2 a3 s) = dividers s := by
  unfold phaseComplete; (repeat' split) <;> simp
@[simp] theorem auditReply_dividers a1 a2 a3 a4 (s : State) : dividers (auditReply a1 a2 a3 a4 s) = dividers s := by
  unfold auditReply; simp
@[simp] theorem resolveAll_dividers a1 (s : State) : dividers (resolveAll a1 s) = dividers s := by
  unfold resolveAll; simp
@[simp] theorem tellObject_dividers a1 a2 (s : State) : dividers (tellObject a1 a2 s) = dividers s := by
  unfold tellObject; (repeat' split) <;> simp
@[simp] theorem takeHigher_dividers a1 (s : State) : dividers (takeHigher a1 s) = dividers s := by
  unfold takeHigher; (repeat' (first | rfl | split | (simp; done) | (simp; split)))
@[simp] theorem repair_dividers a1 a2 (s : State) : dividers (repair a1 a2 s) = dividers s := by
  unfold repair; simp
@[simp] theorem pairAudit_dividers a1 a2 a3 a4 a5 (s : State) : dividers (pairAudit a1 a2 a3 a4 a5 s) = dividers s := by
  refine runCmd_dividers _ _ _ _ (fun c => ?_); try simp only []
  (repeat' (first | rfl | split | (simp; done) | (simp; split)))
@[simp] theorem switchback_dividers a1 a2 a3 a4 a5 (s : State) : dividers (switchback a1 a2 a3 a4 a5 s) = dividers s := by
  refine runCmd_dividers _ _ _ _ (fun c => ?_); try simp only []
  (repeat' (first | rfl | split | (simp; done) | (simp; split)))
@[simp] theorem keepAsCopy_dividers  (s : State) : dividers (keepAsCopy  s) = dividers s := by
  unfold keepAsCopy; simp
@[simp] theorem switched_dividers a1 (s : State) : dividers (switched a1 s) = dividers s := by
  unfold switched; (repeat' split) <;> simp
@[simp] theorem pairUnbind_dividers a1 (s : State) : dividers (pairUnbind a1 s) = dividers s := by
  refine runCmd_dividers _ _ _ _ (fun c => ?_); try simp only []
  (repeat' (first | rfl | split | (simp; done) | (simp; split)))
@[simp] theorem admitAs_dividers a1 a2 a3 (s : State) : dividers (admitAs a1 a2 a3 s) = dividers s := by
  unfold admitAs; (repeat' split) <;> simp
@[simp] theorem reqCommit_dividers a1 (s : State) : dividers (reqCommit a1 s) = dividers s := by
  refine runCmd_dividers _ _ _ _ (fun c => ?_); try simp only []
  (repeat' (first | rfl | split | (simp; done) | (simp; split)))
@[simp] theorem tellCommitted_dividers a1 a2 a3 a4 (s : State) : dividers (tellCommitted a1 a2 a3 a4 s) = dividers s := by
  unfold tellCommitted; (repeat' split) <;> simp
@[simp] theorem commitPath_dividers a1 a2 a3 a4 a5 (s : State) : dividers (commitPath a1 a2 a3 a4 a5 s) = dividers s := by
  unfold commitPath; simp
@[simp] theorem commitWaitEnd_dividers a1 (s : State) : dividers (commitWaitEnd a1 s) = dividers s := by
  unfold commitWaitEnd; (repeat' split) <;> simp
@[simp] theorem reqCancel_dividers a1 (s : State) : dividers (reqCancel a1 s) = dividers s := by
  refine runCmd_dividers _ _ _ _ (fun c => ?_); try simp only []
  (repeat' (first | rfl | split | (simp; done) | (simp; split)))
@[simp] theorem countSoFar_dividers a1 (s : State) : dividers (countSoFar a1 s) = dividers s := by
  unfold countSoFar; (repeat' split) <;> simp
@[simp] theorem reqQuery_dividers a1 (s : State) : dividers (reqQuery a1 s) = dividers s := by
  refine runCmd_dividers _ _ _ _ (fun c => ?_); try simp only []
  (repeat' (first | rfl | split | (simp; done) | (simp; split)))
@[simp] theorem seqClose_dividers a1 (s : State) : dividers (seqClose a1 s) = dividers s := by
  refine runCmd_dividers _ _ _ _ (fun c => ?_); try simp only []
  (repeat' (first | rfl | split | (simp; done) | (simp; split)))
@[simp] theorem seqClosed_dividers a1 (s : State) : dividers (seqClosed a1 s) = dividers s := by
  unfold seqClosed; (repeat' split) <;> simp
@[simp] theorem smbReply_dividers a1 a2 a3 a4 (s : State) : dividers (smbReply a1 a2 a3 a4 s) = dividers s := by
  unfold smbReply; (repeat' split) <;> simp
@[simp] theorem smbNak_dividers  (s : State) : dividers (smbNak  s) = dividers s := by
  unfold smbNak; (repeat' split) <;> simp
@[simp] theorem releaseAlert_dividers  (s : State) : dividers (releaseAlert  s) = dividers s := by
  unfold releaseAlert; (repeat' split) <;> simp
@[simp] theorem smbIdentity_dividers  (s : State) : dividers (smbIdentity  s) = dividers s := by
  unfold smbIdentity; simp
@[simp] theorem smbState_dividers  (s : State) : dividers (smbState  s) = dividers s := by
  unfold smbState; simp
@[simp] theorem smbTime_dividers  (s : State) : dividers (smbTime  s) = dividers s := by
  unfold smbTime; simp
@[simp] theorem smbSensors_dividers a1 a2 (s : State) : dividers (smbSensors a1 a2 s) = dividers s := by
  unfold smbSensors; (repeat' split) <;> simp
@[simp] theorem smbPower_dividers  (s : State) : dividers (smbPower  s) = dividers s := by
  unfold smbPower; simp
@[simp] theorem smbBobbin_dividers a1 a2 a3 (s : State) : dividers (smbBobbin a1 a2 a3 s) = dividers s := by
  unfold smbBobbin; (repeat' split) <;> simp
@[simp] theorem smbAlert_dividers  (s : State) : dividers (smbAlert  s) = dividers s := by
  unfold smbAlert; (repeat' split) <;> simp
@[simp] theorem challenge_dividers  (s : State) : dividers (challenge  s) = dividers s := by
  unfold challenge; (repeat' split) <;> simp
@[simp] theorem openPort_dividers  (s : State) : dividers (openPort  s) = dividers s := by
  unfold openPort; simp
@[simp] theorem unlock_dividers a1 a2 a3 (s : State) : dividers (unlock a1 a2 a3 s) = dividers s := by
  unfold unlock; (repeat' (first | rfl | split | (simp; done) | (simp; split)))
@[simp] theorem jtagFirst_dividers  (s : State) : dividers (jtagFirst  s) = dividers s := by
  unfold jtagFirst; (repeat' split) <;> simp
@[simp] theorem fuseProgram_dividers a1 a2 (s : State) : dividers (fuseProgram a1 a2 s) = dividers s := by
  unfold fuseProgram; (repeat' (first | rfl | split | (simp; done) | (simp; split)))
@[simp] theorem traceBobbin_dividers a1 a2 (s : State) : dividers (traceBobbin a1 a2 s) = dividers s := by
  unfold traceBobbin; (repeat' split) <;> simp
@[simp] theorem storeFrom_dividers a1 (s : State) : dividers (storeFrom a1 s) = dividers s := by
  unfold storeFrom; (repeat' (first | rfl | split | (simp; done) | (simp; split)))
@[simp] theorem storeOne_dividers  (s : State) : dividers (storeOne  s) = dividers s := by
  unfold storeOne; (repeat' split) <;> simp
@[simp] theorem holdCounters_dividers  (s : State) : dividers (holdCounters  s) = dividers s := by
  unfold holdCounters; (repeat' split) <;> simp

end Sys2Proof.Machine
end

