-- ==== Sys2Proof/Laws/Lasting.lean ====
section
/-! SUPPORT. LOCAL_TIME, DEBUG_OPENED, the fuse cells, the queue and the reply log across every operation: one lemma per operation, those that change one of them excepted, which say what they change. -/
namespace Sys2Proof.Machine
set_option maxRecDepth 4000
set_option linter.all false
@[simp] theorem emit_headWord_lasting a b (s : State) : lasting (emit (.headWord a b) s) = lasting s := by
  simp [lasting, emit, replyLog, isReply]
@[simp] theorem emit_msix_lasting a (s : State) : lasting (emit (.msix a) s) = lasting s := by
  simp [lasting, emit, replyLog, isReply]
@[simp] theorem emit_host_lasting a b c (s : State) : lasting (emit (.host a b c) s) = lasting s := by
  simp [lasting, emit, replyLog, isReply]
@[simp] theorem emit_barRead_lasting a (s : State) : lasting (emit (.barRead a) s) = lasting s := by
  simp [lasting, emit, replyLog, isReply]
@[simp] theorem emit_halyardA_lasting a (s : State) : lasting (emit (.halyardA a) s) = lasting s := by
  simp [lasting, emit, replyLog, isReply]
@[simp] theorem emit_halyardB_lasting a b (s : State) : lasting (emit (.halyardB a b) s) = lasting s := by
  simp [lasting, emit, replyLog, isReply]
@[simp] theorem emit_record_lasting a b (s : State) : lasting (emit (.record a b) s) = lasting s := by
  simp [lasting, emit, replyLog, isReply]
@[simp] theorem emit_copied_lasting a (s : State) : lasting (emit (.copied a) s) = lasting s := by
  simp [lasting, emit, replyLog, isReply]
@[simp] theorem emit_ack_lasting a (s : State) : lasting (emit (.ack a) s) = lasting s := by
  simp [lasting, emit, replyLog, isReply]
@[simp] theorem emit_applied_lasting a b c (s : State) : lasting (emit (.applied a b c) s) = lasting s := by
  simp [lasting, emit, replyLog, isReply]
@[simp] theorem emit_smbus_lasting a b (s : State) : lasting (emit (.smbus a b) s) = lasting s := by
  simp [lasting, emit, replyLog, isReply]
@[simp] theorem emit_smbusNak_lasting  (s : State) : lasting (emit (.smbusNak) s) = lasting s := by
  simp [lasting, emit, replyLog, isReply]
@[simp] theorem emit_jtag_lasting a (s : State) : lasting (emit (.jtag a) s) = lasting s := by
  simp [lasting, emit, replyLog, isReply]
@[simp] theorem emit_jtagStatus_lasting a (s : State) : lasting (emit (.jtagStatus a) s) = lasting s := by
  simp [lasting, emit, replyLog, isReply]
@[simp] theorem emit_trace_lasting a b (s : State) : lasting (emit (.trace a b) s) = lasting s := by
  simp [lasting, emit, replyLog, isReply]
@[simp] theorem emit_uart_lasting a b (s : State) : lasting (emit (.uart a b) s) = lasting s := by
  simp [lasting, emit, replyLog, isReply]

@[simp] theorem lasting_upd0 (t : State) x_link x_bar x_dev x_rings x_served x_reads x_queues x_arb x_cmds x_nextCid x_reqs x_reqGens x_nextReq x_sent x_fences x_fenceGens x_accts x_cfg x_pats x_patGens x_sliceAt x_apps x_appGens x_seqs x_seqGens x_pages x_streams x_streamGens x_engines x_encs x_encGens x_encoding x_tenants x_parts x_pair x_nor x_power x_cores x_thermal x_mem x_halves x_halo x_stages x_health x_bob x_svc x_free : lasting ⟨t.clk, x_link, x_bar, x_dev, x_rings, x_served, x_reads, x_queues, x_arb, x_cmds, x_nextCid, x_reqs, x_reqGens, x_nextReq, x_sent, x_fences, x_fenceGens, x_accts, x_cfg, x_pats, x_patGens, x_sliceAt, x_apps, x_appGens, x_seqs, x_seqGens, x_pages, x_streams, x_streamGens, x_engines, x_encs, x_encGens, x_encoding, t.fuses, t.sec, x_tenants, x_parts, x_pair, x_nor, x_power, x_cores, x_thermal, x_mem, x_halves, x_halo, x_stages, x_health, x_bob, x_svc, t.tx, x_free, t.pending⟩ = lasting t := rfl
@[simp] theorem lasting_upd1 (t : State) c1 c2 c3 x_link x_bar x_dev x_rings x_served x_reads x_queues x_arb x_cmds x_nextCid x_reqs x_reqGens x_nextReq x_sent x_fences x_fenceGens x_accts x_cfg x_pats x_patGens x_sliceAt x_apps x_appGens x_seqs x_seqGens x_pages x_streams x_streamGens x_engines x_encs x_encGens x_encoding x_tenants x_parts x_pair x_nor x_power x_cores x_thermal x_mem x_halves x_halo x_stages x_health x_bob x_svc x_free : lasting ⟨⟨t.clk.localTime, c1, c2, c3⟩, x_link, x_bar, x_dev, x_rings, x_served, x_reads, x_queues, x_arb, x_cmds, x_nextCid, x_reqs, x_reqGens, x_nextReq, x_sent, x_fences, x_fenceGens, x_accts, x_cfg, x_pats, x_patGens, x_sliceAt, x_apps, x_appGens, x_seqs, x_seqGens, x_pages, x_streams, x_streamGens, x_engines, x_encs, x_encGens, x_encoding, t.fuses, t.sec, x_tenants, x_parts, x_pair, x_nor, x_power, x_cores, x_thermal, x_mem, x_halves, x_halo, x_stages, x_health, x_bob, x_svc, t.tx, x_free, t.pending⟩ = lasting t := rfl
@[simp] theorem lasting_upd2 (t : State) x_link x_bar x_dev x_rings x_served x_reads x_queues x_arb x_cmds x_nextCid x_reqs x_reqGens x_nextReq x_sent x_fences x_fenceGens x_accts x_cfg x_pats x_patGens x_sliceAt x_apps x_appGens x_seqs x_seqGens x_pages x_streams x_streamGens x_engines x_encs x_encGens x_encoding s1 s2 s3 s5 s6 s7 x_tenants x_parts x_pair x_nor x_power x_cores x_thermal x_mem x_halves x_halo x_stages x_health x_bob x_svc x_free : lasting ⟨t.clk, x_link, x_bar, x_dev, x_rings, x_served, x_reads, x_queues, x_arb, x_cmds, x_nextCid, x_reqs, x_reqGens, x_nextReq, x_sent, x_fences, x_fenceGens, x_accts, x_cfg, x_pats, x_patGens, x_sliceAt, x_apps, x_appGens, x_seqs, x_seqGens, x_pages, x_streams, x_streamGens, x_engines, x_encs, x_encGens, x_encoding, t.fuses, ⟨s1, s2, s3, t.sec.debugOpened, s5, s6, s7⟩, x_tenants, x_parts, x_pair, x_nor, x_power, x_cores, x_thermal, x_mem, x_halves, x_halo, x_stages, x_health, x_bob, x_svc, t.tx, x_free, t.pending⟩ = lasting t := rfl
@[simp] theorem lasting_upd3 (t : State) c1 c2 c3 x_link x_bar x_dev x_rings x_served x_reads x_queues x_arb x_cmds x_nextCid x_reqs x_reqGens x_nextReq x_sent x_fences x_fenceGens x_accts x_cfg x_pats x_patGens x_sliceAt x_apps x_appGens x_seqs x_seqGens x_pages x_streams x_streamGens x_engines x_encs x_encGens x_encoding s1 s2 s3 s5 s6 s7 x_tenants x_parts x_pair x_nor x_power x_cores x_thermal x_mem x_halves x_halo x_stages x_health x_bob x_svc x_free : lasting ⟨⟨t.clk.localTime, c1, c2, c3⟩, x_link, x_bar, x_dev, x_rings, x_served, x_reads, x_queues, x_arb, x_cmds, x_nextCid, x_reqs, x_reqGens, x_nextReq, x_sent, x_fences, x_fenceGens, x_accts, x_cfg, x_pats, x_patGens, x_sliceAt, x_apps, x_appGens, x_seqs, x_seqGens, x_pages, x_streams, x_streamGens, x_engines, x_encs, x_encGens, x_encoding, t.fuses, ⟨s1, s2, s3, t.sec.debugOpened, s5, s6, s7⟩, x_tenants, x_parts, x_pair, x_nor, x_power, x_cores, x_thermal, x_mem, x_halves, x_halo, x_stages, x_health, x_bob, x_svc, t.tx, x_free, t.pending⟩ = lasting t := rfl
@[simp] theorem lasting_upd4 (t : State) x_link x_bar x_dev x_rings x_served x_reads x_queues x_arb x_cmds x_nextCid x_reqs x_reqGens x_nextReq x_sent x_fences x_fenceGens x_accts x_cfg x_pats x_patGens x_sliceAt x_apps x_appGens x_seqs x_seqGens x_pages x_streams x_streamGens x_engines x_encs x_encGens x_encoding f4 x_tenants x_parts x_pair x_nor x_power x_cores x_thermal x_mem x_halves x_halo x_stages x_health x_bob x_svc x_free : lasting ⟨t.clk, x_link, x_bar, x_dev, x_rings, x_served, x_reads, x_queues, x_arb, x_cmds, x_nextCid, x_reqs, x_reqGens, x_nextReq, x_sent, x_fences, x_fenceGens, x_accts, x_cfg, x_pats, x_patGens, x_sliceAt, x_apps, x_appGens, x_seqs, x_seqGens, x_pages, x_streams, x_streamGens, x_engines, x_encs, x_encGens, x_encoding, ⟨t.fuses.cellA, t.fuses.cellB, t.fuses.cellC, f4⟩, t.sec, x_tenants, x_parts, x_pair, x_nor, x_power, x_cores, x_thermal, x_mem, x_halves, x_halo, x_stages, x_health, x_bob, x_svc, t.tx, x_free, t.pending⟩ = lasting t := rfl
@[simp] theorem lasting_upd5 (t : State) c1 c2 c3 x_link x_bar x_dev x_rings x_served x_reads x_queues x_arb x_cmds x_nextCid x_reqs x_reqGens x_nextReq x_sent x_fences x_fenceGens x_accts x_cfg x_pats x_patGens x_sliceAt x_apps x_appGens x_seqs x_seqGens x_pages x_streams x_streamGens x_engines x_encs x_encGens x_encoding f4 x_tenants x_parts x_pair x_nor x_power x_cores x_thermal x_mem x_halves x_halo x_stages x_health x_bob x_svc x_free : lasting ⟨⟨t.clk.localTime, c1, c2, c3⟩, x_link, x_bar, x_dev, x_rings, x_served, x_reads, x_queues, x_arb, x_cmds, x_nextCid, x_reqs, x_reqGens, x_nextReq, x_sent, x_fences, x_fenceGens, x_accts, x_cfg, x_pats, x_patGens, x_sliceAt, x_apps, x_appGens, x_seqs, x_seqGens, x_pages, x_streams, x_streamGens, x_engines, x_encs, x_encGens, x_encoding, ⟨t.fuses.cellA, t.fuses.cellB, t.fuses.cellC, f4⟩, t.sec, x_tenants, x_parts, x_pair, x_nor, x_power, x_cores, x_thermal, x_mem, x_halves, x_halo, x_stages, x_health, x_bob, x_svc, t.tx, x_free, t.pending⟩ = lasting t := rfl
@[simp] theorem lasting_upd6 (t : State) x_link x_bar x_dev x_rings x_served x_reads x_queues x_arb x_cmds x_nextCid x_reqs x_reqGens x_nextReq x_sent x_fences x_fenceGens x_accts x_cfg x_pats x_patGens x_sliceAt x_apps x_appGens x_seqs x_seqGens x_pages x_streams x_streamGens x_engines x_encs x_encGens x_encoding f4 s1 s2 s3 s5 s6 s7 x_tenants x_parts x_pair x_nor x_power x_cores x_thermal x_mem x_halves x_halo x_stages x_health x_bob x_svc x_free : lasting ⟨t.clk, x_link, x_bar, x_dev, x_rings, x_served, x_reads, x_queues, x_arb, x_cmds, x_nextCid, x_reqs, x_reqGens, x_nextReq, x_sent, x_fences, x_fenceGens, x_accts, x_cfg, x_pats, x_patGens, x_sliceAt, x_apps, x_appGens, x_seqs, x_seqGens, x_pages, x_streams, x_streamGens, x_engines, x_encs, x_encGens, x_encoding, ⟨t.fuses.cellA, t.fuses.cellB, t.fuses.cellC, f4⟩, ⟨s1, s2, s3, t.sec.debugOpened, s5, s6, s7⟩, x_tenants, x_parts, x_pair, x_nor, x_power, x_cores, x_thermal, x_mem, x_halves, x_halo, x_stages, x_health, x_bob, x_svc, t.tx, x_free, t.pending⟩ = lasting t := rfl
@[simp] theorem lasting_upd7 (t : State) c1 c2 c3 x_link x_bar x_dev x_rings x_served x_reads x_queues x_arb x_cmds x_nextCid x_reqs x_reqGens x_nextReq x_sent x_fences x_fenceGens x_accts x_cfg x_pats x_patGens x_sliceAt x_apps x_appGens x_seqs x_seqGens x_pages x_streams x_streamGens x_engines x_encs x_encGens x_encoding f4 s1 s2 s3 s5 s6 s7 x_tenants x_parts x_pair x_nor x_power x_cores x_thermal x_mem x_halves x_halo x_stages x_health x_bob x_svc x_free : lasting ⟨⟨t.clk.localTime, c1, c2, c3⟩, x_link, x_bar, x_dev, x_rings, x_served, x_reads, x_queues, x_arb, x_cmds, x_nextCid, x_reqs, x_reqGens, x_nextReq, x_sent, x_fences, x_fenceGens, x_accts, x_cfg, x_pats, x_patGens, x_sliceAt, x_apps, x_appGens, x_seqs, x_seqGens, x_pages, x_streams, x_streamGens, x_engines, x_encs, x_encGens, x_encoding, ⟨t.fuses.cellA, t.fuses.cellB, t.fuses.cellC, f4⟩, ⟨s1, s2, s3, t.sec.debugOpened, s5, s6, s7⟩, x_tenants, x_parts, x_pair, x_nor, x_power, x_cores, x_thermal, x_mem, x_halves, x_halo, x_stages, x_health, x_bob, x_svc, t.tx, x_free, t.pending⟩ = lasting t := rfl
@[simp] theorem lasting_foldl {α : Type} (f : State → α → State) (h : ∀ s x, lasting (f s x) = lasting s) (l : List α) (s : State) : lasting (l.foldl f s) = lasting s := by
  induction l generalizing s with
  | nil => rfl
  | cons x l ih => rw [List.foldl_cons, ih, h]
@[simp] theorem writeHost_lasting a1 a2 a3 (s : State) : lasting (writeHost a1 a2 a3 s) = lasting s := by
  unfold writeHost; (repeat' split) <;> simp
@[simp] theorem stepFree_lasting  (s : State) : lasting (stepFree  s) = lasting s := by
  unfold stepFree; simp
@[simp] theorem useSpares_lasting a1 (s : State) : lasting (useSpares a1 s) = lasting s := by
  unfold useSpares; simp
@[simp] theorem modCore_lasting a1 a2 (s : State) : lasting (modCore a1 a2 s) = lasting s := by
  unfold modCore; simp
@[simp] theorem modHalf_lasting a1 a2 (s : State) : lasting (modHalf a1 a2 s) = lasting s := by
  unfold modHalf; simp
@[simp] theorem modReq_lasting a1 a2 (s : State) : lasting (modReq a1 a2 s) = lasting s := by
  unfold modReq; simp
@[simp] theorem modCmd_lasting a1 a2 (s : State) : lasting (modCmd a1 a2 s) = lasting s := by
  unfold modCmd; simp
@[simp] theorem modRing_lasting a1 a2 (s : State) : lasting (modRing a1 a2 s) = lasting s := by
  unfold modRing; simp
@[simp] theorem modEntry_lasting a1 a2 (s : State) : lasting (modEntry a1 a2 s) = lasting s := by
  unfold modEntry; simp
@[simp] theorem modSeq_lasting a1 a2 (s : State) : lasting (modSeq a1 a2 s) = lasting s := by
  unfold modSeq; simp
@[simp] theorem modPat_lasting a1 a2 (s : State) : lasting (modPat a1 a2 s) = lasting s := by
  unfold modPat; simp
@[simp] theorem modApp_lasting a1 a2 (s : State) : lasting (modApp a1 a2 s) = lasting s := by
  unfold modApp; simp
@[simp] theorem modStream_lasting a1 a2 (s : State) : lasting (modStream a1 a2 s) = lasting s := by
  unfold modStream; simp
@[simp] theorem modPair_lasting a1 (s : State) : lasting (modPair a1 s) = lasting s := by
  unfold modPair; simp
@[simp] theorem modNor_lasting a1 (s : State) : lasting (modNor a1 s) = lasting s := by
  unfold modNor; simp
@[simp] theorem modDev_lasting a1 (s : State) : lasting (modDev a1 s) = lasting s := by
  unfold modDev; simp
@[simp] theorem bobPost_lasting a1 a2 a3 (s : State) : lasting (bobPost a1 a2 a3 s) = lasting s := by
  unfold bobPost; simp
@[simp] theorem tally_lasting a1 a2 a3 (s : State) : lasting (tally a1 a2 a3 s) = lasting s := by
  unfold tally; simp
@[simp] theorem profile_lasting a1 a2 a3 (s : State) : lasting (profile a1 a2 a3 s) = lasting s := by
  unfold profile; (repeat' split) <;> simp
@[simp] theorem postLost_lasting  (s : State) : lasting (postLost  s) = lasting s := by
  unfold postLost; (repeat' split) <;> simp
@[simp] theorem holdEvent_lasting a1 (s : State) : lasting (holdEvent a1 s) = lasting s := by
  unfold holdEvent; (repeat' split) <;> simp
@[simp] theorem putEvent_lasting a1 (s : State) : lasting (putEvent a1 s) = lasting s := by
  unfold putEvent; (repeat' split) <;> simp
@[simp] theorem putUnmasked_lasting a1 (s : State) : lasting (putUnmasked a1 s) = lasting s := by
  unfold putUnmasked; (repeat' split) <;> simp
@[simp] theorem setBitOnly_lasting a1 a2 (s : State) : lasting (setBitOnly a1 a2 s) = lasting s := by
  unfold setBitOnly; (repeat' split) <;> simp
@[simp] theorem followBacklog_lasting  (s : State) : lasting (followBacklog  s) = lasting s := by
  unfold followBacklog; simp
@[simp] theorem refreshBacklog_lasting  (s : State) : lasting (refreshBacklog  s) = lasting s := by
  unfold refreshBacklog; simp
@[simp] theorem postEvent_lasting a1 a2 a3 a4 a5 (s : State) : lasting (postEvent a1 a2 a3 a4 a5 s) = lasting s := by
  unfold postEvent; simp
@[simp] theorem setHealth_lasting a1 a2 (s : State) : lasting (setHealth a1 a2 s) = lasting s := by
  unfold setHealth; simp
@[simp] theorem refreshThrottled_lasting  (s : State) : lasting (refreshThrottled  s) = lasting s := by
  unfold refreshThrottled; simp
@[simp] theorem measureHealth_lasting  (s : State) : lasting (measureHealth  s) = lasting s := by
  unfold measureHealth; simp
@[simp] theorem setDevState_lasting a1 (s : State) : lasting (setDevState a1 s) = lasting s := by
  unfold setDevState; (repeat' split) <;> simp
@[simp] theorem refreshService_lasting  (s : State) : lasting (refreshService  s) = lasting s := by
  unfold refreshService; (repeat' split) <;> simp
@[simp] theorem submit_lasting a1 (s : State) : lasting (submit a1 s) = lasting s := by
  unfold submit; (repeat' split) <;> simp
@[simp] theorem endReq_lasting a1 a2 a3 (s : State) : lasting (endReq a1 a2 a3 s) = lasting s := by
  unfold endReq; (repeat' split) <;> simp
@[simp] theorem endReqs_lasting a1 a2 a3 (s : State) : lasting (endReqs a1 a2 a3 s) = lasting s := by
  unfold endReqs; simp
@[simp] theorem stopReqs_lasting a1 a2 a3 (s : State) : lasting (stopReqs a1 a2 a3 s) = lasting s := by
  unfold stopReqs; simp
@[simp] theorem sendRecord_lasting a1 a2 a3 a4 a5 a6 a7 (s : State) : lasting (sendRecord a1 a2 a3 a4 a5 a6 a7 s) = lasting s := by
  unfold sendRecord; simp
@[simp] theorem tell_lasting a1 a2 a3 a4 (s : State) : lasting (tell a1 a2 a3 a4 s) = lasting s := by
  unfold tell; (repeat' split) <;> simp
@[simp] theorem tellFence_lasting a1 (s : State) : lasting (tellFence a1 s) = lasting s := by
  unfold tellFence; (repeat' split) <;> simp
@[simp] theorem tellSeq_lasting a1 (s : State) : lasting (tellSeq a1 s) = lasting s := by
  unfold tellSeq; (repeat' split) <;> simp
@[simp] theorem tellReq_lasting a1 (s : State) : lasting (tellReq a1 s) = lasting s := by
  unfold tellReq; (repeat' split) <;> simp
@[simp] theorem finish_lasting a1 a2 a3 a4 a5 a6 (s : State) : lasting (finish a1 a2 a3 a4 a5 a6 s) = lasting s := by
  unfold finish; (repeat' (first | rfl | split | (simp; done) | (simp; split)))
@[simp] theorem done_lasting a1 a2 a3 (s : State) : lasting (done a1 a2 a3 s) = lasting s := by
  unfold done; simp
@[simp] theorem refuse_lasting a1 a2 a3 (s : State) : lasting (refuse a1 a2 a3 s) = lasting s := by
  unfold refuse; simp
@[simp] theorem refuseAll_lasting a1 a2 a3 (s : State) : lasting (refuseAll a1 a2 a3 s) = lasting s := by
  unfold refuseAll; simp
@[simp] theorem sweep_lasting a1 a2 a3 (s : State) : lasting (sweep a1 a2 a3 s) = lasting s := by
  unfold sweep; simp
@[simp] theorem allocPages_lasting a1 a2 a3 (s : State) : lasting (allocPages a1 a2 a3 s) = lasting s := by
  unfold allocPages; simp
@[simp] theorem zeroPages_lasting a1 (s : State) : lasting (zeroPages a1 s) = lasting s := by
  unfold zeroPages; simp
@[simp] theorem retireKeys_lasting a1 (s : State) : lasting (retireKeys a1 s) = lasting s := by
  unfold retireKeys; (repeat' split) <;> simp
@[simp] theorem retireAll_lasting  (s : State) : lasting (retireAll  s) = lasting s := by
  unfold retireAll; simp
@[simp] theorem restitchPages_lasting a1 a2 (s : State) : lasting (restitchPages a1 a2 s) = lasting s := by
  unfold restitchPages; (repeat' split) <;> simp
@[simp] theorem freePagesOf_lasting a1 (s : State) : lasting (freePagesOf a1 s) = lasting s := by
  unfold freePagesOf; simp
@[simp] theorem releasePagesOf_lasting a1 (s : State) : lasting (releasePagesOf a1 s) = lasting s := by
  unfold releasePagesOf; simp
@[simp] theorem dropStages_lasting a1 (s : State) : lasting (dropStages a1 s) = lasting s := by
  unfold dropStages; simp
@[simp] theorem zeroAllKeys_lasting  (s : State) : lasting (zeroAllKeys  s) = lasting s := by
  unfold zeroAllKeys; simp
@[simp] theorem moduleReset_lasting a1 (s : State) : lasting (moduleReset a1 s) = lasting s := by
  unfold moduleReset; simp
@[simp] theorem linkReset_lasting a1 (s : State) : lasting (linkReset a1 s) = lasting s := by
  unfold linkReset; simp
@[simp] theorem useNonce_lasting a1 a2 (s : State) : lasting (useNonce a1 a2 s) = lasting s := by
  unfold useNonce; simp
@[simp] theorem writeSealed_lasting a1 a2 a3 a4 a5 a6 a7 a8 (s : State) : lasting (writeSealed a1 a2 a3 a4 a5 a6 a7 a8 s) = lasting s := by
  unfold writeSealed; simp
@[simp] theorem migratePart_lasting a1 a2 (s : State) : lasting (migratePart a1 a2 s) = lasting s := by
  unfold migratePart; (repeat' split) <;> simp
@[simp] theorem migrateParts_lasting  (s : State) : lasting (migrateParts  s) = lasting s := by
  unfold migrateParts; simp
@[simp] theorem stockHalves_lasting  (s : State) : lasting (stockHalves  s) = lasting s := by
  unfold stockHalves; simp
@[simp] theorem loadWanted_lasting (s : State) : lasting (loadWanted s) = lasting s := by
  simp only [loadWanted, migrateParts_lasting, stockHalves_lasting]
  refine lasting_foldl _ (fun s x => ?_) _ _; split <;> simp
@[simp] theorem startSlice_lasting  (s : State) : lasting (startSlice  s) = lasting s := by
  unfold startSlice; simp
@[simp] theorem rotate_lasting  (s : State) : lasting (rotate  s) = lasting s := by
  unfold rotate; (repeat' split) <;> simp
@[simp] theorem sliceStart_lasting  (s : State) : lasting (sliceStart  s) = lasting s := by
  unfold sliceStart; (repeat' split) <;> simp
@[simp] theorem sramRelease_lasting a1 (s : State) : lasting (sramRelease a1 s) = lasting s := by
  unfold sramRelease; (repeat' split) <;> simp
@[simp] theorem holdPicture_lasting a1 a2 (s : State) : lasting (holdPicture a1 a2 s) = lasting s := by
  unfold holdPicture; (repeat' split) <;> simp
@[simp] theorem namePicture_lasting a1 (s : State) : lasting (namePicture a1 s) = lasting s := by
  unfold namePicture; simp
@[simp] theorem admitWith_lasting a1 a2 a3 a4 a5 a6 a7 (s : State) : lasting (admitWith a1 a2 a3 a4 a5 a6 a7 s) = lasting s := by
  unfold admitWith; (repeat' (first | rfl | split | (simp; done) | (simp; split)))
@[simp] theorem budgetRefill_lasting a1 (s : State) : lasting (budgetRefill a1 s) = lasting s := by
  unfold budgetRefill; (repeat' split) <;> simp
@[simp] theorem admitRequest_lasting a1 a2 (s : State) : lasting (admitRequest a1 a2 s) = lasting s := by
  unfold admitRequest; (repeat' (first | rfl | split | (simp; done) | (simp; split)))
@[simp] theorem storeLists_lasting (a1) (s : State) : lasting (storeLists a1 s) = lasting s := by
  simp only [storeLists]
  exact (lasting_foldl _ (fun s x => by simp) _ _).trans (lasting_foldl _ (fun s x => by simp) _ _)
@[simp] theorem trimSeq_lasting a1 a2 (s : State) : lasting (trimSeq a1 a2 s) = lasting s := by
  unfold trimSeq; (repeat' split) <;> simp
@[simp] theorem putEntry_lasting a1 a2 a3 (s : State) : lasting (putEntry a1 a2 a3 s) = lasting s := by
  unfold putEntry; (repeat' split) <;> simp
@[simp] theorem flushHot_lasting a1 (s : State) : lasting (flushHot a1 s) = lasting s := by
  unfold flushHot; simp
@[simp] theorem coolPages_lasting a1 (s : State) : lasting (coolPages a1 s) = lasting s := by
  unfold coolPages; simp
@[simp] theorem heatPages_lasting a1 a2 a3 (s : State) : lasting (heatPages a1 a2 a3 s) = lasting s := by
  unfold heatPages; simp
@[simp] theorem settlePages_lasting a1 a2 (s : State) : lasting (settlePages a1 a2 s) = lasting s := by
  unfold settlePages; (repeat' split) <;> simp
@[simp] theorem commitSeq_lasting a1 a2 (s : State) : lasting (commitSeq a1 a2 s) = lasting s := by
  unfold commitSeq; simp
@[simp] theorem copySlot_lasting (a1 a2) (s : State) (a4) : lasting (copySlot a1 a2 s a4) = lasting s := by
  refine lasting_foldl _ (fun s x => ?_) _ _; split <;> simp
@[simp] theorem moveEntries_lasting (a1 a2 a3) (s : State) : lasting (moveEntries a1 a2 a3 s) = lasting s := by
  unfold moveEntries; split
  · rfl
  · exact lasting_foldl _ (fun s x => by simp) _ _
@[simp] theorem takePages_lasting a1 a2 a3 (s : State) : lasting (takePages a1 a2 a3 s) = lasting s := by
  unfold takePages; simp
@[simp] theorem takeBuffers_lasting a1 a2 a3 (s : State) : lasting (takeBuffers a1 a2 a3 s) = lasting s := by
  unfold takeBuffers; simp
@[simp] theorem drainPrevious_lasting a1 (s : State) : lasting (drainPrevious a1 s) = lasting s := by
  unfold drainPrevious; (repeat' split) <;> simp
@[simp] theorem freeRetired_lasting a1 (s : State) : lasting (freeRetired a1 s) = lasting s := by
  unfold freeRetired; (repeat' split) <;> simp
@[simp] theorem drainApplique_lasting a1 (s : State) : lasting (drainApplique a1 s) = lasting s := by
  unfold drainApplique; (repeat' (first | rfl | split | (simp; done) | (simp; split)))
@[simp] theorem newVersion_lasting a1 a2 a3 (s : State) : lasting (newVersion a1 a2 a3 s) = lasting s := by
  unfold newVersion; simp
@[simp] theorem replaceCurrent_lasting a1 (s : State) : lasting (replaceCurrent a1 s) = lasting s := by
  unfold replaceCurrent; (repeat' split) <;> simp
@[simp] theorem adaptDone_lasting a1 a2 a3 (s : State) : lasting (adaptDone a1 a2 a3 s) = lasting s := by
  unfold adaptDone; (repeat' split) <;> simp
@[simp] theorem releasePlace_lasting a1 a2 (s : State) : lasting (releasePlace a1 a2 s) = lasting s := by
  unfold releasePlace; (repeat' split) <;> simp
@[simp] theorem dropLoad_lasting a1 (s : State) : lasting (dropLoad a1 s) = lasting s := by
  unfold dropLoad; (repeat' split) <;> simp
@[simp] theorem dropWork_lasting a1 (s : State) : lasting (dropWork a1 s) = lasting s := by
  unfold dropWork; simp
@[simp] theorem setFence_lasting a1 a2 (s : State) : lasting (setFence a1 a2 s) = lasting s := by
  unfold setFence; simp
@[simp] theorem updateFence_lasting a1 a2 a3 (s : State) : lasting (updateFence a1 a2 a3 s) = lasting s := by
  unfold updateFence; (repeat' (first | rfl | split | (simp; done) | (simp; split)))
@[simp] theorem countCancel_lasting a1 (s : State) : lasting (countCancel a1 s) = lasting s := by
  unfold countCancel; (repeat' split) <;> simp
@[simp] theorem settleCancels_lasting  (s : State) : lasting (settleCancels  s) = lasting s := by
  unfold settleCancels; simp
@[simp] theorem traceRec_lasting a1 a2 a3 (s : State) : lasting (traceRec a1 a2 a3 s) = lasting s := by
  unfold traceRec; (repeat' (first | rfl | split | (simp; done) | (simp; split)))
@[simp] theorem traceAny_lasting a1 a2 (s : State) : lasting (traceAny a1 a2 s) = lasting s := by
  unfold traceAny; simp
@[simp] theorem traceReq_lasting a1 a2 (s : State) : lasting (traceReq a1 a2 s) = lasting s := by
  unfold traceReq; (repeat' split) <;> simp
@[simp] theorem dropDoorbell_lasting a1 a2 (s : State) : lasting (dropDoorbell a1 a2 s) = lasting s := by
  unfold dropDoorbell; simp
@[simp] theorem latchDoorbell_lasting a1 a2 a3 (s : State) : lasting (latchDoorbell a1 a2 a3 s) = lasting s := by
  unfold latchDoorbell; (repeat' (first | rfl | split | (simp; done) | (simp; split)))
@[simp] theorem doorbell_lasting a1 a2 (s : State) : lasting (doorbell a1 a2 s) = lasting s := by
  unfold doorbell; (repeat' (first | rfl | split | (simp; done) | (simp; split)))
@[simp] theorem replyDoorbell_lasting a1 a2 (s : State) : lasting (replyDoorbell a1 a2 s) = lasting s := by
  unfold replyDoorbell; (repeat' (first | rfl | split | (simp; done) | (simp; split)))
theorem bindQueue_lasting (q : Nat) (d : BitVec 256) (s t : State) (h : bindQueue q d s = some t) :
    lasting t = lasting s := by
  unfold bindQueue at h; split at h
  · cases h; rfl
  · split at h <;> cases h; rfl
@[simp] theorem enableAdmin_lasting (a1 a2) (s : State) : lasting (enableAdmin a1 a2 s) = lasting s := by
  unfold enableAdmin; simp only []; split
  · rfl
  · split
    · simp
    · split
      · simp
      · rename_i t h; have := bindQueue_lasting _ _ _ _ h; simp_all
@[simp] theorem releaseReads_lasting a1 (s : State) : lasting (releaseReads a1 s) = lasting s := by
  unfold releaseReads; simp
@[simp] theorem disableAdmin_lasting a1 (s : State) : lasting (disableAdmin a1 s) = lasting s := by
  unfold disableAdmin; (repeat' (first | rfl | split | (simp; done) | (simp; split)))
@[simp] theorem sendMsix_lasting a1 (s : State) : lasting (sendMsix a1 s) = lasting s := by
  unfold sendMsix; (repeat' split) <;> simp
@[simp] theorem sendPending_lasting (s : State) : lasting (sendPending s) = lasting s := by
  unfold sendPending; split
  · rfl
  · have h : (List.map Tx.msix (s.link.pba.filter fun v => !vectorMasked s v)).filter isReply = [] := by
      simp [List.filter_map, List.filter_eq_nil_iff, isReply, Function.comp_def]
    simp [lasting, replyLog, List.filter_append, h]
@[simp] theorem writeReg_lasting a1 a2 a3 (s : State) : lasting (writeReg a1 a2 a3 s) = lasting s := by
  unfold writeReg; (repeat' split) <;> simp
@[simp] theorem readTime_lasting a1 a2 (s : State) : lasting (readTime a1 a2 s) = lasting s := by
  unfold readTime; (repeat' split) <;> simp
@[simp] theorem fetchVisit_lasting a1 (s : State) : lasting (fetchVisit a1 s) = lasting s := by
  unfold fetchVisit; (repeat' split) <;> simp
@[simp] theorem writeHead_lasting a1 (s : State) : lasting (writeHead a1 s) = lasting s := by
  unfold writeHead; (repeat' split) <;> simp
@[simp] theorem tellFetch_lasting a1 a2 a3 a4 (s : State) : lasting (tellFetch a1 a2 a3 a4 s) = lasting s := by
  unfold tellFetch; (repeat' split) <;> simp
@[simp] theorem releaseAtFetch_lasting a1 a2 (s : State) : lasting (releaseAtFetch a1 a2 s) = lasting s := by
  unfold releaseAtFetch; (repeat' split) <;> simp
@[simp] theorem takePlace_lasting a1 a2 a3 (s : State) : lasting (takePlace a1 a2 a3 s) = lasting s := by
  unfold takePlace; (repeat' split) <;> simp
@[simp] theorem commandFetched_lasting a1 a2 a3 a4 (s : State) : lasting (commandFetched a1 a2 a3 a4 s) = lasting s := by
  unfold commandFetched; (repeat' (first | rfl | split | (simp; done) | (simp; split)))
@[simp] theorem fetchFailed_lasting a1 (s : State) : lasting (fetchFailed a1 s) = lasting s := by
  unfold fetchFailed; (repeat' split) <;> simp
@[simp] theorem readError_lasting a1 (s : State) : lasting (readError a1 s) = lasting s := by
  unfold readError; (repeat' split) <;> simp
@[simp] theorem orderedRelease_lasting a1 (s : State) : lasting (orderedRelease a1 s) = lasting s := by
  unfold orderedRelease; (repeat' split) <;> simp
@[simp] theorem runCmdWith_lasting (cid op : Nat) (more : Cmd → State → List Nat) (f : Cmd → State → State) (s : State)
    (h : ∀ c, lasting (f c s) = lasting s) : lasting (runCmdWith cid op more f s) = lasting s := by
  unfold runCmdWith; split <;> first | rfl | (split <;> simp [h])
@[simp] theorem runCmd_lasting (cid op : Nat) (f : Cmd → State → State) (s : State)
    (h : ∀ c, lasting (f c s) = lasting s) : lasting (runCmd cid op f s) = lasting s := by
  unfold runCmd; split <;> first | rfl | (split <;> simp [h])
@[simp] theorem begun_lasting a1 a2 (s : State) : lasting (begun a1 a2 s) = lasting s := by
  unfold begun; simp
@[simp] theorem writeAt_lasting a1 a2 a3 (s : State) : lasting (writeAt a1 a2 a3 s) = lasting s := by
  unfold writeAt; (repeat' split) <;> simp
@[simp] theorem stuck_lasting a1 a2 a3 (s : State) : lasting (stuck a1 a2 a3 s) = lasting s := by
  unfold stuck; simp
@[simp] theorem denied_lasting a1 a2 (s : State) : lasting (denied a1 a2 s) = lasting s := by
  unfold denied; simp
@[simp] theorem transfer_lasting (a1 a2 a3) (f : State → State) (s : State) (h : ∀ s, lasting (f s) = lasting s) :
    lasting (transfer a1 a2 a3 f s) = lasting s := by
  unfold transfer; split
  · rfl
  · split
    · simp
    · exact h s
@[simp] theorem unitReads_lasting (a1 a2 a3) (f : State → State) (s : State) (h : ∀ s, lasting (f s) = lasting s) :
    lasting (unitReads a1 a2 a3 f s) = lasting s := by
  refine transfer_lasting _ _ _ _ _ (fun s => ?_); split <;> simp [h]
@[simp] theorem unitWrite_lasting (a1 a2 a3 a4 a5) (s : State) : lasting (unitWrite a1 a2 a3 a4 a5 s) = lasting s := by
  unfold unitWrite; split
  · split <;> simp
  · refine transfer_lasting _ _ _ _ _ (fun s => ?_); split <;> simp
  · exact transfer_lasting _ _ _ _ _ (fun s => by simp)
@[simp] theorem loadTile_lasting a1 a2 a3 a4 a5 (s : State) : lasting (loadTile a1 a2 a3 a4 a5 s) = lasting s := by
  unfold loadTile; (repeat' split) <;> simp
@[simp] theorem swapTile_lasting a1 a2 (s : State) : lasting (swapTile a1 a2 s) = lasting s := by
  unfold swapTile; (repeat' split) <;> simp
@[simp] theorem arrayPass_lasting a1 a2 a3 a4 (s : State) : lasting (arrayPass a1 a2 a3 a4 s) = lasting s := by
  unfold arrayPass; (repeat' split) <;> simp
@[simp] theorem clearEdge_lasting a1 a2 a3 (s : State) : lasting (clearEdge a1 a2 a3 s) = lasting s := by
  unfold clearEdge; simp
@[simp] theorem setReg_lasting a1 a2 a3 a4 (s : State) : lasting (setReg a1 a2 a3 a4 s) = lasting s := by
  unfold setReg; simp
@[simp] theorem setLanes_lasting a1 a2 a3 a4 a5 (s : State) : lasting (setLanes a1 a2 a3 a4 a5 s) = lasting s := by
  unfold setLanes; simp
@[simp] theorem putRow_lasting a1 a2 a3 (s : State) : lasting (putRow a1 a2 a3 s) = lasting s := by
  unfold putRow; simp
@[simp] theorem smxRow_lasting a1 a2 a3 a4 a5 a6 (s : State) : lasting (smxRow a1 a2 a3 a4 a5 a6 s) = lasting s := by
  unfold smxRow; simp
@[simp] theorem atomicOp_lasting (a1 a2 a3 a4 a5 a6) (s : State) : lasting (atomicOp a1 a2 a3 a4 a5 a6 s) = lasting s := by
  unfold atomicOp; simp only []; split
  · split
    · exact transfer_lasting _ _ _ _ _ (fun s => by simp)
    · rfl
  · split
    · refine transfer_lasting _ _ _ _ _ (fun s => ?_); split <;> simp
    · rfl
  · rfl
@[simp] theorem kvWrite_lasting a1 a2 a3 a4 a5 a6 a7 (s : State) : lasting (kvWrite a1 a2 a3 a4 a5 a6 a7 s) = lasting s := by
  unfold kvWrite; (repeat' split) <;> simp
@[simp] theorem attend_lasting a1 a2 a3 a4 a5 a6 a7 a8 a9 a10 a11 (s : State) : lasting (attend a1 a2 a3 a4 a5 a6 a7 a8 a9 a10 a11 s) = lasting s := by
  unfold attend; (repeat' split) <;> simp
@[simp] theorem backward_lasting a1 a2 a3 a4 a5 a6 a7 a8 a9 a10 a11 (s : State) : lasting (backward a1 a2 a3 a4 a5 a6 a7 a8 a9 a10 a11 s) = lasting s := by
  unfold backward; (repeat' split) <;> simp
@[simp] theorem convRow_lasting a1 a2 a3 a4 a5 a6 a7 a8 a9 a10 (s : State) : lasting (convRow a1 a2 a3 a4 a5 a6 a7 a8 a9 a10 s) = lasting s := by
  unfold convRow; (repeat' (first | rfl | split | (simp; done) | (simp; split)))
@[simp] theorem picotRow_lasting a1 a2 a3 a4 a5 a6 a7 a8 a9 a10 a11 (s : State) : lasting (picotRow a1 a2 a3 a4 a5 a6 a7 a8 a9 a10 a11 s) = lasting s := by
  unfold picotRow; (repeat' (first | rfl | split | (simp; done) | (simp; split)))
@[simp] theorem planarCopy_lasting a1 a2 a3 a4 a5 a6 (s : State) : lasting (planarCopy a1 a2 a3 a4 a5 a6 s) = lasting s := by
  unfold planarCopy; (repeat' split) <;> simp
@[simp] theorem argmaxOp_lasting a1 a2 a3 a4 a5 a6 (s : State) : lasting (argmaxOp a1 a2 a3 a4 a5 a6 s) = lasting s := by
  unfold argmaxOp; (repeat' split) <;> simp
@[simp] theorem loadTestBias_lasting  (s : State) : lasting (loadTestBias  s) = lasting s := by
  unfold loadTestBias; simp
@[simp] theorem runOp_lasting a1 a2 a3 (s : State) : lasting (runOp a1 a2 a3 s) = lasting s := by
  unfold runOp; (repeat' (first | rfl | split | (simp; done) | (simp; split)))
@[simp] theorem runUnit_lasting a1 a2 (s : State) : lasting (runUnit a1 a2 s) = lasting s := by
  unfold runUnit; (repeat' split) <;> simp
@[simp] theorem countActive_lasting a1 a2 (s : State) : lasting (countActive a1 a2 s) = lasting s := by
  unfold countActive; (repeat' split) <;> simp
@[simp] theorem runCycle_lasting a1 a2 (s : State) : lasting (runCycle a1 a2 s) = lasting s := by
  unfold runCycle; simp
@[simp] theorem runUnits_lasting a1 a2 (s : State) : lasting (runUnits a1 a2 s) = lasting s := by
  unfold runUnits; simp
@[simp] theorem setReqState_lasting a1 a2 (s : State) : lasting (setReqState a1 a2 s) = lasting s := by
  unfold setReqState; simp
@[simp] theorem preemptOne_lasting a1 a2 (s : State) : lasting (preemptOne a1 a2 s) = lasting s := by
  unfold preemptOne; split <;> simp

@[simp] theorem preemptAll_lasting a1 (s : State) : lasting (preemptAll a1 s) = lasting s := by
  unfold preemptAll; simp
@[simp] theorem requestReady_lasting a1 (s : State) : lasting (requestReady a1 s) = lasting s := by
  unfold requestReady; (repeat' (first | rfl | split | (simp; done) | (simp; split)))
@[simp] theorem armCores_lasting a1 a2 (s : State) : lasting (armCores a1 a2 s) = lasting s := by
  unfold armCores; simp
@[simp] theorem takePricks_lasting a1 a2 a3 a4 (s : State) : lasting (takePricks a1 a2 a3 a4 s) = lasting s := by
  unfold takePricks; (repeat' (first | rfl | split | (simp; done) | (simp; split)))
@[simp] theorem dropHeld_lasting a1 (s : State) : lasting (dropHeld a1 s) = lasting s := by
  unfold dropHeld; simp
@[simp] theorem beginFrame_lasting a1 (s : State) : lasting (beginFrame a1 s) = lasting s := by
  unfold beginFrame; simp
@[simp] theorem lendOut_lasting a1 a2 a3 (s : State) : lasting (lendOut a1 a2 a3 s) = lasting s := by
  unfold lendOut; (repeat' split) <;> simp
@[simp] theorem hostLent_lasting a1 a2 a3 a4 (s : State) : lasting (hostLent a1 a2 a3 a4 s) = lasting s := by
  unfold hostLent; (repeat' split) <;> simp
@[simp] theorem requestDispatch_lasting a1 a2 a3 (s : State) : lasting (requestDispatch a1 a2 a3 s) = lasting s := by
  unfold requestDispatch; (repeat' split) <;> simp
@[simp] theorem requestResume_lasting a1 (s : State) : lasting (requestResume a1 s) = lasting s := by
  unfold requestResume; (repeat' (first | rfl | split | (simp; done) | (simp; split)))
@[simp] theorem hemComplete_lasting a1 a2 a3 (s : State) : lasting (hemComplete a1 a2 a3 s) = lasting s := by
  unfold hemComplete; (repeat' (first | rfl | split | (simp; done) | (simp; split)))
@[simp] theorem verifyPass_lasting a1 a2 a3 (s : State) : lasting (verifyPass a1 a2 a3 s) = lasting s := by
  unfold verifyPass; (repeat' (first | rfl | split | (simp; done) | (simp; split)))
@[simp] theorem writeOutput_lasting a1 a2 a3 a4 (s : State) : lasting (writeOutput a1 a2 a3 a4 s) = lasting s := by
  unfold writeOutput; (repeat' split) <;> simp
@[simp] theorem tellKv_lasting a1 (s : State) : lasting (tellKv a1 s) = lasting s := by
  unfold tellKv; (repeat' split) <;> simp
@[simp] theorem submitResult_lasting a1 (s : State) : lasting (submitResult a1 s) = lasting s := by
  unfold submitResult; (repeat' split) <;> simp
@[simp] theorem workComplete_lasting a1 a2 (s : State) : lasting (workComplete a1 a2 s) = lasting s := by
  unfold workComplete; (repeat' (first | rfl | split | (simp; done) | (simp; split)))
@[simp] theorem inCrcCheck_lasting a1 a2 a3 a4 (s : State) : lasting (inCrcCheck a1 a2 a3 a4 s) = lasting s := by
  unfold inCrcCheck; (repeat' split) <;> simp
@[simp] theorem fallbackTick_lasting a1 (s : State) : lasting (fallbackTick a1 s) = lasting s := by
  unfold fallbackTick; (repeat' split) <;> simp
@[simp] theorem hemCutoff_lasting a1 a2 (s : State) : lasting (hemCutoff a1 a2 s) = lasting s := by
  unfold hemCutoff; (repeat' (first | rfl | split | (simp; done) | (simp; split)))
@[simp] theorem cutPower_lasting  (s : State) : lasting (cutPower  s) = lasting s := by
  unfold cutPower; simp
@[simp] theorem sweepComplete_lasting  (s : State) : lasting (sweepComplete  s) = lasting s := by
  unfold sweepComplete; (repeat' split) <;> simp
@[simp] theorem unitsStopped_lasting a1 a2 (s : State) : lasting (unitsStopped a1 a2 s) = lasting s := by
  unfold unitsStopped; (repeat' split) <;> simp
@[simp] theorem releasePages_lasting a1 a2 (s : State) : lasting (releasePages a1 a2 s) = lasting s := by
  unfold releasePages; (repeat' (first | rfl | split | (simp; done) | (simp; split)))
@[simp] theorem requestRetired_lasting a1 (s : State) : lasting (requestRetired a1 s) = lasting s := by
  unfold requestRetired; (repeat' split) <;> simp
@[simp] theorem backToAdmitted_lasting a1 (s : State) : lasting (backToAdmitted a1 s) = lasting s := by
  unfold backToAdmitted; (repeat' split) <;> simp
@[simp] theorem writeFields_lasting a1 a2 (s : State) : lasting (writeFields a1 a2 s) = lasting s := by
  unfold writeFields; simp
@[simp] theorem feedAccepted_lasting a1 a2 (s : State) : lasting (feedAccepted a1 a2 s) = lasting s := by
  unfold feedAccepted; (repeat' split) <;> simp
@[simp] theorem encodeNext_lasting a1 (s : State) : lasting (encodeNext a1 s) = lasting s := by
  unfold encodeNext; (repeat' split) <;> simp
@[simp] theorem finishEncoder_lasting a1 (s : State) : lasting (finishEncoder a1 s) = lasting s := by
  unfold finishEncoder; (repeat' split) <;> simp
@[simp] theorem frameAccepted_lasting a1 a2 (s : State) : lasting (frameAccepted a1 a2 s) = lasting s := by
  unfold frameAccepted; (repeat' (first | rfl | split | (simp; done) | (simp; split)))
@[simp] theorem videoAccepted_lasting a1 a2 (s : State) : lasting (videoAccepted a1 a2 s) = lasting s := by
  unfold videoAccepted; (repeat' split) <;> simp
@[simp] theorem sendFrames_lasting a1 (s : State) : lasting (sendFrames a1 s) = lasting s := by
  unfold sendFrames; (repeat' (first | rfl | split | (simp; done) | (simp; split)))
@[simp] theorem shedOne_lasting a1 (s : State) : lasting (shedOne a1 s) = lasting s := by
  unfold shedOne; split <;> simp

@[simp] theorem shedLent_lasting  (s : State) : lasting (shedLent  s) = lasting s := by
  unfold shedLent; simp
@[simp] theorem setMode_lasting a1 a2 (s : State) : lasting (setMode a1 a2 s) = lasting s := by
  unfold setMode; (repeat' split) <;> simp
@[simp] theorem leaveMirrored_lasting  (s : State) : lasting (leaveMirrored  s) = lasting s := by
  unfold leaveMirrored; simp
@[simp] theorem signalNow_lasting a1 a2 a3 (s : State) : lasting (signalNow a1 a2 a3 s) = lasting s := by
  unfold signalNow; (repeat' split) <;> simp
@[simp] theorem releaseAck_lasting a1 (s : State) : lasting (releaseAck a1 s) = lasting s := by
  unfold releaseAck; (repeat' split) <;> simp
@[simp] theorem releaseWaits_lasting  (s : State) : lasting (releaseWaits  s) = lasting s := by
  unfold releaseWaits; simp
@[simp] theorem signalDying_lasting a1 (s : State) : lasting (signalDying a1 s) = lasting s := by
  unfold signalDying; (repeat' (first | rfl | split | (simp; done) | (simp; split)))
@[simp] theorem replanIdle_lasting  (s : State) : lasting (replanIdle  s) = lasting s := by
  unfold replanIdle; simp
@[simp] theorem haltCore_lasting (a1 a2) (s : State) : lasting (haltCore a1 a2 s) = lasting s := by
  simp only [haltCore, refreshThrottled_lasting, replanIdle_lasting, migrateParts_lasting]
  refine (lasting_foldl _ (fun s x => ?_) _ _).trans (by simp)
  split
  · split <;> simp
  · rfl
@[simp] theorem serveCore_lasting a1 (s : State) : lasting (serveCore a1 s) = lasting s := by
  unfold serveCore; simp
@[simp] theorem endHalfCmds_lasting a1 a2 a3 a4 (s : State) : lasting (endHalfCmds a1 a2 a3 a4 s) = lasting s := by
  unfold endHalfCmds; simp
@[simp] theorem endHalfVideo_lasting a1 a2 a3 (s : State) : lasting (endHalfVideo a1 a2 a3 s) = lasting s := by
  unfold endHalfVideo; simp
@[simp] theorem resetHalf_lasting a1 a2 (s : State) : lasting (resetHalf a1 a2 s) = lasting s := by
  unfold resetHalf; simp
@[simp] theorem closeStream_lasting a1 a2 a3 (s : State) : lasting (closeStream a1 a2 a3 s) = lasting s := by
  unfold closeStream; (repeat' split) <;> simp
@[simp] theorem closeEncoder_lasting a1 a2 a3 (s : State) : lasting (closeEncoder a1 a2 a3 s) = lasting s := by
  unfold closeEncoder; (repeat' split) <;> simp
@[simp] theorem lostApplique_lasting a1 (s : State) : lasting (lostApplique a1 s) = lasting s := by
  unfold lostApplique; (repeat' split) <;> simp
@[simp] theorem lostPattern_lasting a1 (s : State) : lasting (lostPattern a1 s) = lasting s := by
  unfold lostPattern; simp
@[simp] theorem breakSeq_lasting a1 (s : State) : lasting (breakSeq a1 s) = lasting s := by
  unfold breakSeq; (repeat' split) <;> simp
@[simp] theorem loseHalf_lasting a1 (s : State) : lasting (loseHalf a1 s) = lasting s := by
  unfold loseHalf; simp
@[simp] theorem halfFault_lasting a1 (s : State) : lasting (halfFault a1 s) = lasting s := by
  unfold halfFault; (repeat' split) <;> simp
@[simp] theorem channelLeaves_lasting (a1) (s : State) : lasting (channelLeaves a1 s) = lasting s := by
  unfold channelLeaves; split
  · rfl
  · extract_lets h d t1 m t3 t4 t5 g gone t7 t8 t9 t10
    have e3 : lasting t3 = lasting s := by simp [t3, t1]
    have e5 : lasting t5 = lasting s := by simp [t5, t4, e3]
    have e7 : lasting t7 = lasting s := by simp [t7, g, e5]
    have e10 : lasting t10 = lasting s := by simp [t10, t9, t8, e7]
    split <;> simp [e10]
@[simp] theorem nop_lasting a1 (s : State) : lasting (nop a1 s) = lasting s := by
  unfold nop; simp
@[simp] theorem identify_lasting a1 (s : State) : lasting (identify a1 s) = lasting s := by
  unfold identify; simp
@[simp] theorem getHealth_lasting a1 (s : State) : lasting (getHealth a1 s) = lasting s := by
  unfold getHealth; simp
@[simp] theorem setConfig_lasting a1 (s : State) : lasting (setConfig a1 s) = lasting s := by
  unfold setConfig; simp
@[simp] theorem configCommit_lasting a1 (s : State) : lasting (configCommit a1 s) = lasting s := by
  unfold configCommit; simp
@[simp] theorem ringCreate_lasting (a1 a2) (s : State) : lasting (ringCreate a1 a2 s) = lasting s := by
  refine runCmdWith_lasting _ _ _ _ _ (fun c => ?_); simp only []
  split
  · simp
  · split
    · simp
    · split
      · simp
      · split
        · simp
        · rename_i t h; have := bindQueue_lasting _ _ _ _ h; simp_all
@[simp] theorem ringDestroy_lasting a1 (s : State) : lasting (ringDestroy a1 s) = lasting s := by
  refine runCmd_lasting _ _ _ _ (fun c => ?_); try simp only []
  (repeat' (first | rfl | split | (simp; done) | (simp; split)))
@[simp] theorem freeRing_lasting a1 (s : State) : lasting (freeRing a1 s) = lasting s := by
  unfold freeRing; (repeat' split) <;> simp
@[simp] theorem ringDestroyed_lasting a1 (s : State) : lasting (ringDestroyed a1 s) = lasting s := by
  unfold ringDestroyed; (repeat' split) <;> simp
@[simp] theorem accountSet_lasting a1 (s : State) : lasting (accountSet a1 s) = lasting s := by
  refine runCmdWith_lasting _ _ _ _ _ (fun c => ?_); try simp only []
  (repeat' (first | rfl | split | (simp; done) | (simp; split)))
theorem runReset_lasting (a1 a2) (f : Cmd → State → State) (s : State) (h : ∀ c, lasting (f c s) = lasting s) :
    lasting (runReset a1 a2 f s) = lasting s := by
  have := runCmd_lasting a1 0x0009 f s h
  unfold runReset; (repeat' split) <;> first | rfl | exact this | simp
@[simp] theorem halfMastReset_lasting  (s : State) : lasting (halfMastReset  s) = lasting s := by
  unfold halfMastReset; (repeat' split) <;> simp
@[simp] theorem resetModuleCmd_lasting a1 (s : State) : lasting (resetModuleCmd a1 s) = lasting s := by
  refine runReset_lasting _ _ _ _  (fun _  => ?_); try simp only []
  (repeat' (first | rfl | split | (simp; done) | (simp; split)))
@[simp] theorem resetHalfCmd_lasting a1 (s : State) : lasting (resetHalfCmd a1 s) = lasting s := by
  refine runReset_lasting _ _ _ _  (fun _  => ?_); try simp only []
  (repeat' (first | rfl | split | (simp; done) | (simp; split)))
@[simp] theorem resetCoreCmd_lasting a1 (s : State) : lasting (resetCoreCmd a1 s) = lasting s := by
  refine runReset_lasting _ _ _ _  (fun _  => ?_); try simp only []
  (repeat' (first | rfl | split | (simp; done) | (simp; split)))
@[simp] theorem releaseHalf_lasting a1 a2 (s : State) : lasting (releaseHalf a1 a2 s) = lasting s := by
  unfold releaseHalf; (repeat' split) <;> simp
@[simp] theorem resetDone_lasting a1 (s : State) : lasting (resetDone a1 s) = lasting s := by
  unfold resetDone; (repeat' (first | rfl | split | (simp; done) | (simp; split)))
@[simp] theorem beginStop_lasting a1 a2 (s : State) : lasting (beginStop a1 a2 s) = lasting s := by
  unfold beginStop; (repeat' split) <;> simp
@[simp] theorem shutdownCmd_lasting a1 (s : State) : lasting (shutdownCmd a1 s) = lasting s := by
  unfold shutdownCmd; (repeat' split) <;> simp
@[simp] theorem shutdownDone_lasting  (s : State) : lasting (shutdownDone  s) = lasting s := by
  unfold shutdownDone; (repeat' split) <;> simp
@[simp] theorem discardReply_lasting a1 a2 (s : State) : lasting (discardReply a1 a2 s) = lasting s := by
  unfold discardReply; simp
@[simp] theorem countReply_lasting a1 a2 a3 (s : State) : lasting (countReply a1 a2 a3 s) = lasting s := by
  unfold countReply; (repeat' split) <;> simp
@[simp] theorem countSentinel_lasting a1 (s : State) : lasting (countSentinel a1 s) = lasting s := by
  unfold countSentinel; (repeat' split) <;> simp
@[simp] theorem discardClosing_lasting a1 (s : State) : lasting (discardClosing a1 s) = lasting s := by
  unfold discardClosing; (repeat' split) <;> simp
@[simp] theorem commitDone_lasting a1 a2 (s : State) : lasting (commitDone a1 a2 s) = lasting s := by
  unfold commitDone; (repeat' split) <;> simp
@[simp] theorem requestEffects_lasting a1 a2 a3 (s : State) : lasting (requestEffects a1 a2 a3 s) = lasting s := by
  unfold requestEffects; (repeat' split) <;> simp
@[simp] theorem replyFence_lasting a1 a2 a3 (s : State) : lasting (replyFence a1 a2 a3 s) = lasting s := by
  unfold replyFence; (repeat' split) <;> simp
@[simp] theorem finalRequest_lasting a1 a2 a3 a4 (s : State) : lasting (finalRequest a1 a2 a3 a4 s) = lasting s := by
  unfold finalRequest; (repeat' split) <;> simp
@[simp] theorem applyConfig_lasting  (s : State) : lasting (applyConfig  s) = lasting s := by
  unfold applyConfig; (repeat' split) <;> simp
@[simp] theorem keyCurrent_lasting a1 (s : State) : lasting (keyCurrent a1 s) = lasting s := by
  unfold keyCurrent; simp
@[simp] theorem cancelUnadmitted_lasting  (s : State) : lasting (cancelUnadmitted  s) = lasting s := by
  unfold cancelUnadmitted; simp
@[simp] theorem onAccept_lasting a1 (s : State) : lasting (onAccept a1 s) = lasting s := by
  unfold onAccept; (repeat' split) <;> simp
@[simp] theorem placeAccepted_lasting a1 a2 (s : State) : lasting (placeAccepted a1 a2 s) = lasting s := by
  unfold placeAccepted; (repeat' split) <;> simp
@[simp] theorem finalCommand_lasting a1 a2 a3 a4 (s : State) : lasting (finalCommand a1 a2 a3 a4 s) = lasting s := by
  unfold finalCommand; (repeat' split) <;> simp
@[simp] theorem drainEvents_lasting (a1) (s : State) : lasting (drainEvents a1 s) = lasting s := by
  induction a1 generalizing s with
  | zero => rfl
  | succ n ih =>
    unfold drainEvents; split
    · rfl
    · split <;> simp [ih]
@[simp] theorem backlogDrain_lasting  (s : State) : lasting (backlogDrain  s) = lasting s := by
  unfold backlogDrain; (repeat' (first | rfl | split | (simp; done) | (simp; split)))
@[simp] theorem modSlot_lasting a1 a2 (s : State) : lasting (modSlot a1 a2 s) = lasting s := by
  unfold modSlot; simp
@[simp] theorem writeRecord_lasting a1 (s : State) : lasting (writeRecord a1 s) = lasting s := by
  unfold writeRecord; simp
@[simp] theorem fwWriteBlock_lasting a1 a2 (s : State) : lasting (fwWriteBlock a1 a2 s) = lasting s := by
  refine runCmd_lasting _ _ _ _ (fun c => ?_); try simp only []
  (repeat' (first | rfl | split | (simp; done) | (simp; split)))
@[simp] theorem fwBlockWritten_lasting a1 (s : State) : lasting (fwBlockWritten a1 s) = lasting s := by
  unfold fwBlockWritten; (repeat' (first | rfl | split | (simp; done) | (simp; split)))
@[simp] theorem fwVerify_lasting a1 (s : State) : lasting (fwVerify a1 s) = lasting s := by
  refine runCmd_lasting _ _ _ _ (fun c => ?_); try simp only []
  (repeat' (first | rfl | split | (simp; done) | (simp; split)))
@[simp] theorem fwVerified_lasting a1 (s : State) : lasting (fwVerified a1 s) = lasting s := by
  unfold fwVerified; (repeat' (first | rfl | split | (simp; done) | (simp; split)))
@[simp] theorem nameTrial_lasting a1 (s : State) : lasting (nameTrial a1 s) = lasting s := by
  unfold nameTrial; simp
theorem runActivate_lasting (a1 a2) (f : Cmd → Nat → State → State) (s : State)
    (h : ∀ c i s, lasting (f c i s) = lasting s) : lasting (runActivate a1 a2 f s) = lasting s := by
  have := runCmd_lasting a1 0x0703 (fun c s =>
        let i := slotNamed s (le c.pkt 20 1)
        if s.dev.update.isSome then s
        else
          match activateFault s i a2 with
          | some (st, d) => refuse a1 st d s
          | none => f c i (nameTrial i s)) s (fun c => by simp only []; (repeat' split) <;> simp [h])
  unfold runActivate; split
  · rfl
  · split
    · rfl
    · exact this
@[simp] theorem pauseRequests_lasting  (s : State) : lasting (pauseRequests  s) = lasting s := by
  unfold pauseRequests; simp
@[simp] theorem fwActivateKeep_lasting a1 (s : State) : lasting (fwActivateKeep a1 s) = lasting s := by
  refine runActivate_lasting _ _ _ _  (fun _ _ _  => ?_); try simp only []
  (repeat' (first | rfl | split | (simp; done) | (simp; split)))
@[simp] theorem fwActivateFull_lasting a1 (s : State) : lasting (fwActivateFull a1 s) = lasting s := by
  refine runActivate_lasting _ _ _ _  (fun _ _ _  => ?_); try simp only []
  (repeat' (first | rfl | split | (simp; done) | (simp; split)))
@[simp] theorem postMigrated_lasting a1 a2 a3 (s : State) : lasting (postMigrated a1 a2 a3 s) = lasting s := by
  unfold postMigrated; simp
@[simp] theorem migrate_lasting a1 a2 (s : State) : lasting (migrate a1 a2 s) = lasting s := by
  unfold migrate; (repeat' split) <;> simp
@[simp] theorem lateLatch_lasting  (s : State) : lasting (lateLatch  s) = lasting s := by
  unfold lateLatch; (repeat' split) <;> simp
@[simp] theorem pauseEnd_lasting a1 a2 (s : State) : lasting (pauseEnd a1 a2 s) = lasting s := by
  unfold pauseEnd; (repeat' split) <;> simp
@[simp] theorem pauseTimeout_lasting  (s : State) : lasting (pauseTimeout  s) = lasting s := by
  unfold pauseTimeout; (repeat' split) <;> simp
@[simp] theorem fwQuery_lasting a1 (s : State) : lasting (fwQuery a1 s) = lasting s := by
  unfold fwQuery; simp
@[simp] theorem readShadow_lasting  (s : State) : lasting (readShadow  s) = lasting s := by
  unfold readShadow; simp
@[simp] theorem revertTrial_lasting  (s : State) : lasting (revertTrial  s) = lasting s := by
  unfold revertTrial; (repeat' split) <;> simp
@[simp] theorem rewriteCopies_lasting a1 (s : State) : lasting (rewriteCopies a1 s) = lasting s := by
  unfold rewriteCopies; simp
@[simp] theorem reachRow_lasting a1 (s : State) : lasting (reachRow a1 s) = lasting s := by
  unfold reachRow; simp
@[simp] theorem noteStart_lasting a1 a2 (s : State) : lasting (noteStart a1 a2 s) = lasting s := by
  unfold noteStart; simp
theorem stageOf_lasting (a1 a2 a3 a4) (s : State) : lasting (stageOf a1 a2 a3 a4 s).1 = lasting s := by
  unfold stageOf; split <;> simp [stageRom, stageFuses, stageRecords, stageSlot, stagePower, stageTraining, stageZero, stageArray, stageAttn, stageConfig] <;> (repeat' split) <;> simp
@[simp] theorem runStages_lasting (a1 a2 a3 a4) (s : State) : lasting (runStages a1 a2 a3 a4 s) = lasting s := by
  induction a4 generalizing s with
  | nil => simp [runStages]
  | cons row rest ih =>
    unfold runStages; simp only []; split
    · simp
    · split
      · rename_i h; have := stageOf_lasting a1 a2 a3 row (reachRow row s); rw [h] at this; simp_all
      · rename_i h; have := stageOf_lasting a1 a2 a3 row (reachRow row s); rw [h] at this; simp_all
@[simp] theorem start_lasting a1 a2 a3 (s : State) : lasting (start a1 a2 a3 s) = lasting s := by
  unfold start; (repeat' split) <;> simp
@[simp] theorem startComplete_lasting  (s : State) : lasting (startComplete  s) = lasting s := by
  unfold startComplete; (repeat' split) <;> simp
@[simp] theorem enterHalfMast_lasting  (s : State) : lasting (enterHalfMast  s) = lasting s := by
  unfold enterHalfMast; simp
@[simp] theorem failStart_lasting (a1) (s : State) : lasting (failStart a1 s) = lasting s := by
  simp only [failStart]; split <;> simp
@[simp] theorem startFailure_lasting  (s : State) : lasting (startFailure  s) = lasting s := by
  unfold startFailure; (repeat' split) <;> simp
@[simp] theorem startRetry_lasting  (s : State) : lasting (startRetry  s) = lasting s := by
  unfold startRetry; (repeat' split) <;> simp
@[simp] theorem stageTimeout_lasting a1 (s : State) : lasting (stageTimeout a1 s) = lasting s := by
  unfold stageTimeout; (repeat' split) <;> simp
@[simp] theorem failsClear_lasting  (s : State) : lasting (failsClear  s) = lasting s := by
  unfold failsClear; (repeat' split) <;> simp
@[simp] theorem fenceAlloc_lasting a1 (s : State) : lasting (fenceAlloc a1 s) = lasting s := by
  refine runCmd_lasting _ _ _ _ (fun c => ?_); try simp only []
  (repeat' (first | rfl | split | (simp; done) | (simp; split)))
theorem runFence_lasting (a1 a2) (f : Cmd → State → State) (s : State) (h : ∀ c, lasting (f c s) = lasting s) :
    lasting (runFence a1 a2 f s) = lasting s := by
  refine runCmdWith_lasting _ _ _ _ _ (fun c => ?_); split <;> simp [h]
@[simp] theorem fenceFree_lasting a1 (s : State) : lasting (fenceFree a1 s) = lasting s := by
  refine runCmdWith_lasting _ _ _ _ _ (fun c => ?_); try simp only []
  (repeat' (first | rfl | split | (simp; done) | (simp; split)))
@[simp] theorem fenceFreeDone_lasting a1 (s : State) : lasting (fenceFreeDone a1 s) = lasting s := by
  unfold fenceFreeDone; (repeat' split) <;> simp
@[simp] theorem fenceSignal_lasting a1 (s : State) : lasting (fenceSignal a1 s) = lasting s := by
  refine runCmdWith_lasting _ _ _ _ _ (fun c => ?_); try simp only []
  (repeat' (first | rfl | split | (simp; done) | (simp; split)))
@[simp] theorem fenceWait_lasting a1 (s : State) : lasting (fenceWait a1 s) = lasting s := by
  refine runCmdWith_lasting _ _ _ _ _ (fun c => ?_); try simp only []
  (repeat' (first | rfl | split | (simp; done) | (simp; split)))
@[simp] theorem waitDone_lasting a1 (s : State) : lasting (waitDone a1 s) = lasting s := by
  unfold waitDone; (repeat' split) <;> simp
@[simp] theorem waitLimit_lasting a1 (s : State) : lasting (waitLimit a1 s) = lasting s := by
  unfold waitLimit; (repeat' split) <;> simp
@[simp] theorem linkEvent_lasting a1 a2 (s : State) : lasting (linkEvent a1 a2 s) = lasting s := by
  unfold linkEvent; simp
@[simp] theorem perstAssert_lasting  (s : State) : lasting (perstAssert  s) = lasting s := by
  unfold perstAssert; (repeat' (first | rfl | split | (simp; done) | (simp; split)))
@[simp] theorem perstDeassert_lasting  (s : State) : lasting (perstDeassert  s) = lasting s := by
  unfold perstDeassert; (repeat' split) <;> simp
@[simp] theorem hotReset_lasting  (s : State) : lasting (hotReset  s) = lasting s := by
  unfold hotReset; (repeat' split) <;> simp
@[simp] theorem linkDisable_lasting  (s : State) : lasting (linkDisable  s) = lasting s := by
  unfold linkDisable; (repeat' split) <;> simp
@[simp] theorem linkUp_lasting a1 a2 (s : State) : lasting (linkUp a1 a2 s) = lasting s := by
  unfold linkUp; (repeat' split) <;> simp
@[simp] theorem functionReset_lasting  (s : State) : lasting (functionReset  s) = lasting s := by
  unfold functionReset; (repeat' split) <;> simp
@[simp] theorem d3hotEntry_lasting  (s : State) : lasting (d3hotEntry  s) = lasting s := by
  unfold d3hotEntry; (repeat' (first | rfl | split | (simp; done) | (simp; split)))
@[simp] theorem dropOutstanding_lasting  (s : State) : lasting (dropOutstanding  s) = lasting s := by
  unfold dropOutstanding; simp
@[simp] theorem d3hotTaken_lasting  (s : State) : lasting (d3hotTaken  s) = lasting s := by
  unfold d3hotTaken; (repeat' (first | rfl | split | (simp; done) | (simp; split)))
@[simp] theorem d3hotExit_lasting  (s : State) : lasting (d3hotExit  s) = lasting s := by
  unfold d3hotExit; (repeat' split) <;> simp
@[simp] theorem busMasterDisable_lasting  (s : State) : lasting (busMasterDisable  s) = lasting s := by
  unfold busMasterDisable; (repeat' split) <;> simp
@[simp] theorem busMasterEnable_lasting  (s : State) : lasting (busMasterEnable  s) = lasting s := by
  unfold busMasterEnable; (repeat' split) <;> simp
@[simp] theorem setLatch_lasting a1 (s : State) : lasting (setLatch a1 s) = lasting s := by
  unfold setLatch; simp
@[simp] theorem latchOpen_lasting  (s : State) : lasting (latchOpen  s) = lasting s := by
  unfold latchOpen; (repeat' (first | rfl | split | (simp; done) | (simp; split)))
@[simp] theorem latchClose_lasting  (s : State) : lasting (latchClose  s) = lasting s := by
  unfold latchClose; (repeat' split) <;> simp
@[simp] theorem slotIdChange_lasting a1 (s : State) : lasting (slotIdChange a1 s) = lasting s := by
  unfold slotIdChange; (repeat' (first | rfl | split | (simp; done) | (simp; split)))
@[simp] theorem syspllLoss_lasting  (s : State) : lasting (syspllLoss  s) = lasting s := by
  unfold syspllLoss; (repeat' split) <;> simp
@[simp] theorem refclkFail_lasting  (s : State) : lasting (refclkFail  s) = lasting s := by
  unfold refclkFail; (repeat' split) <;> simp
@[simp] theorem modFeed_lasting a1 a2 (s : State) : lasting (modFeed a1 a2 s) = lasting s := by
  unfold modFeed; simp
@[simp] theorem postFeed_lasting a1 a2 (s : State) : lasting (postFeed a1 a2 s) = lasting s := by
  unfold postFeed; simp
@[simp] theorem feedTurns_lasting a1 a2 (s : State) : lasting (feedTurns a1 a2 s) = lasting s := by
  unfold feedTurns; (repeat' split) <;> simp
@[simp] theorem feedPresent_lasting a1 a2 (s : State) : lasting (feedPresent a1 a2 s) = lasting s := by
  unfold feedPresent; (repeat' split) <;> simp
@[simp] theorem holdUpEnd_lasting  (s : State) : lasting (holdUpEnd  s) = lasting s := by
  unfold holdUpEnd; (repeat' (first | rfl | split | (simp; done) | (simp; split)))
@[simp] theorem setDivider_lasting a1 a2 (s : State) : lasting (setDivider a1 a2 s) = lasting s := by
  unfold setDivider; (repeat' (first | rfl | split | (simp; done) | (simp; split)))
@[simp] theorem stepDown_lasting a1 (s : State) : lasting (stepDown a1 s) = lasting s := by
  unfold stepDown; simp
@[simp] theorem stepUp_lasting a1 (s : State) : lasting (stepUp a1 s) = lasting s := by
  unfold stepUp; simp
@[simp] theorem measure_lasting a1 a2 a3 (s : State) : lasting (measure a1 a2 a3 s) = lasting s := by
  unfold measure; simp
@[simp] theorem fastWindow_lasting a1 (s : State) : lasting (fastWindow a1 s) = lasting s := by
  unfold fastWindow; (repeat' split) <;> simp
@[simp] theorem slowWindow_lasting a1 (s : State) : lasting (slowWindow a1 s) = lasting s := by
  unfold slowWindow; simp
@[simp] theorem powerWindow_lasting a1 a2 a3 a4 a5 (s : State) : lasting (powerWindow a1 a2 a3 a4 a5 s) = lasting s := by
  unfold powerWindow; (repeat' split) <;> simp
@[simp] theorem powerStepDown_lasting a1 (s : State) : lasting (powerStepDown a1 s) = lasting s := by
  unfold powerStepDown; (repeat' (first | rfl | split | (simp; done) | (simp; split)))
@[simp] theorem powerStepUp_lasting  (s : State) : lasting (powerStepUp  s) = lasting s := by
  unfold powerStepUp; (repeat' (first | rfl | split | (simp; done) | (simp; split)))
@[simp] theorem droop_lasting a1 (s : State) : lasting (droop a1 s) = lasting s := by
  unfold droop; (repeat' split) <;> simp
@[simp] theorem markMargin_lasting a1 (s : State) : lasting (markMargin a1 s) = lasting s := by
  unfold markMargin; (repeat' split) <;> simp
@[simp] theorem closeHour_lasting  (s : State) : lasting (closeHour  s) = lasting s := by
  unfold closeHour; (repeat' (first | rfl | split | (simp; done) | (simp; split)))
@[simp] theorem marginWindow_lasting a1 a2 (s : State) : lasting (marginWindow a1 a2 s) = lasting s := by
  unfold marginWindow; (repeat' split) <;> simp
@[simp] theorem takeOptical_lasting a1 a2 (s : State) : lasting (takeOptical a1 a2 s) = lasting s := by
  unfold takeOptical; simp
@[simp] theorem opticalSample_lasting a1 a2 (s : State) : lasting (opticalSample a1 a2 s) = lasting s := by
  unfold opticalSample; (repeat' split) <;> simp
@[simp] theorem takeReadings_lasting a1 (s : State) : lasting (takeReadings a1 s) = lasting s := by
  unfold takeReadings; simp
@[simp] theorem markSuspect_lasting a1 a2 (s : State) : lasting (markSuspect a1 a2 s) = lasting s := by
  unfold markSuspect; (repeat' split) <;> simp
@[simp] theorem throttle_lasting a1 a2 (s : State) : lasting (throttle a1 a2 s) = lasting s := by
  unfold throttle; (repeat' (first | rfl | split | (simp; done) | (simp; split)))
@[simp] theorem trip_lasting a1 (s : State) : lasting (trip a1 s) = lasting s := by
  unfold trip; simp
@[simp] theorem endFlowStop_lasting  (s : State) : lasting (endFlowStop  s) = lasting s := by
  unfold endFlowStop; simp
@[simp] theorem coolantStop_lasting  (s : State) : lasting (coolantStop  s) = lasting s := by
  unfold coolantStop; (repeat' split) <;> simp
@[simp] theorem orderlyShutdown_lasting  (s : State) : lasting (orderlyShutdown  s) = lasting s := by
  unfold orderlyShutdown; (repeat' split) <;> simp
@[simp] theorem judgeOutlet_lasting  (s : State) : lasting (judgeOutlet  s) = lasting s := by
  unfold judgeOutlet; (repeat' (first | rfl | split | (simp; done) | (simp; split)))
@[simp] theorem judgePair_lasting (a1) (s : State) (a2) : lasting (judgePair a1 s a2) = lasting s := by
  unfold judgePair; (repeat' (first | rfl | split | (simp; done) | (simp; split)))
@[simp] theorem sensorSample_lasting (a1) (s : State) : lasting (sensorSample a1 s) = lasting s := by
  unfold sensorSample; simp only []; split
  · rfl
  · split
    · simp
    · split
      · split <;> simp
      · split
        · simp
        · simp only [judgeOutlet_lasting, refreshThrottled_lasting]
          refine (lasting_foldl _ (fun s x => by simp) _ _).trans ?_
          exact (lasting_foldl _ (fun s x => by simp) _ _).trans (by simp)
@[simp] theorem throttleRelease_lasting a1 (s : State) : lasting (throttleRelease a1 s) = lasting s := by
  unfold throttleRelease; (repeat' split) <;> simp
@[simp] theorem migrationReturn_lasting a1 (s : State) : lasting (migrationReturn a1 s) = lasting s := by
  unfold migrationReturn; (repeat' split) <;> simp
@[simp] theorem flowSample_lasting a1 (s : State) : lasting (flowSample a1 s) = lasting s := by
  unfold flowSample; (repeat' (first | rfl | split | (simp; done) | (simp; split)))
@[simp] theorem holdFlow_lasting a1 (s : State) : lasting (holdFlow a1 s) = lasting s := by
  unfold holdFlow; (repeat' split) <;> simp
@[simp] theorem flowCapUpdate_lasting a1 (s : State) : lasting (flowCapUpdate a1 s) = lasting s := by
  unfold flowCapUpdate; (repeat' (first | rfl | split | (simp; done) | (simp; split)))
@[simp] theorem drainEnd_lasting  (s : State) : lasting (drainEnd  s) = lasting s := by
  unfold drainEnd; (repeat' split) <;> simp
@[simp] theorem holdEnd_lasting  (s : State) : lasting (holdEnd  s) = lasting s := by
  unfold holdEnd; (repeat' split) <;> simp
@[simp] theorem holdTimeout_lasting  (s : State) : lasting (holdTimeout  s) = lasting s := by
  unfold holdTimeout; (repeat' split) <;> simp
@[simp] theorem modChannel_lasting a1 a2 (s : State) : lasting (modChannel a1 a2 s) = lasting s := by
  unfold modChannel; simp
@[simp] theorem countCorrected_lasting a1 (s : State) : lasting (countCorrected a1 s) = lasting s := by
  unfold countCorrected; (repeat' (first | rfl | split | (simp; done) | (simp; split)))
@[simp] theorem countUncorrectable_lasting a1 a2 (s : State) : lasting (countUncorrectable a1 a2 s) = lasting s := by
  unfold countUncorrectable; (repeat' (first | rfl | split | (simp; done) | (simp; split)))
@[simp] theorem eccWindowEnd_lasting  (s : State) : lasting (eccWindowEnd  s) = lasting s := by
  unfold eccWindowEnd; (repeat' split) <;> simp
@[simp] theorem refresh_lasting a1 (s : State) : lasting (refresh a1 s) = lasting s := by
  unfold refresh; (repeat' split) <;> simp
@[simp] theorem takeEye_lasting a1 a2 (s : State) : lasting (takeEye a1 a2 s) = lasting s := by
  unfold takeEye; (repeat' split) <;> simp
@[simp] theorem retraining_lasting a1 a2 a3 (s : State) : lasting (retraining a1 a2 a3 s) = lasting s := by
  unfold retraining; (repeat' (first | rfl | split | (simp; done) | (simp; split)))
@[simp] theorem lpddrScrub_lasting a1 a2 a3 (s : State) : lasting (lpddrScrub a1 a2 a3 s) = lasting s := by
  unfold lpddrScrub; (repeat' split) <;> simp
@[simp] theorem loseEntry_lasting a1 (s : State) : lasting (loseEntry a1 s) = lasting s := by
  unfold loseEntry; (repeat' split) <;> simp
@[simp] theorem sramScrub_lasting a1 a2 a3 a4 (s : State) : lasting (sramScrub a1 a2 a3 a4 s) = lasting s := by
  unfold sramScrub; (repeat' split) <;> simp
@[simp] theorem flashPatrol_lasting a1 a2 a3 a4 (s : State) : lasting (flashPatrol a1 a2 a3 a4 s) = lasting s := by
  unfold flashPatrol; (repeat' split) <;> simp
@[simp] theorem repaired_lasting a1 a2 a3 (s : State) : lasting (repaired a1 a2 a3 s) = lasting s := by
  unfold repaired; (repeat' split) <;> simp
@[simp] theorem endTarget_lasting a1 a2 a3 (s : State) : lasting (endTarget a1 a2 a3 s) = lasting s := by
  unfold endTarget; (repeat' split) <;> simp
@[simp] theorem strike_lasting a1 a2 (s : State) : lasting (strike a1 a2 s) = lasting s := by
  unfold strike; (repeat' split) <;> simp
@[simp] theorem recordUnknown_lasting a1 (s : State) : lasting (recordUnknown a1 s) = lasting s := by
  unfold recordUnknown; simp
@[simp] theorem memoryError_lasting a1 a2 (s : State) : lasting (memoryError a1 a2 s) = lasting s := by
  unfold memoryError; (repeat' split) <;> simp
@[simp] theorem phyFault_lasting a1 (s : State) : lasting (phyFault a1 s) = lasting s := by
  unfold phyFault; (repeat' split) <;> simp
@[simp] theorem mapRebuilt_lasting a1 (s : State) : lasting (mapRebuilt a1 s) = lasting s := by
  unfold mapRebuilt; (repeat' split) <;> simp
@[simp] theorem faultHalf_lasting a1 (s : State) : lasting (faultHalf a1 s) = lasting s := by
  unfold faultHalf; (repeat' split) <;> simp
@[simp] theorem dieLinkFault_lasting a1 (s : State) : lasting (dieLinkFault a1 s) = lasting s := by
  unfold dieLinkFault; (repeat' split) <;> simp
@[simp] theorem windowClose_lasting a1 (s : State) : lasting (windowClose a1 s) = lasting s := by
  unfold windowClose; (repeat' split) <;> simp
@[simp] theorem modStage_lasting a1 a2 (s : State) : lasting (modStage a1 a2 s) = lasting s := by
  unfold modStage; simp
@[simp] theorem waitOn_lasting a1 a2 (s : State) : lasting (waitOn a1 a2 s) = lasting s := by
  unfold waitOn; simp
@[simp] theorem stopWait_lasting a1 a2 (s : State) : lasting (stopWait a1 a2 s) = lasting s := by
  unfold stopWait; (repeat' split) <;> simp
@[simp] theorem haloWrite_lasting a1 a2 a3 a4 a5 a6 a7 (s : State) : lasting (haloWrite a1 a2 a3 a4 a5 a6 a7 s) = lasting s := by
  unfold haloWrite; (repeat' (first | rfl | split | (simp; done) | (simp; split)))
@[simp] theorem flushHalf_lasting a1 a2 (s : State) : lasting (flushHalf a1 a2 s) = lasting s := by
  unfold flushHalf; simp
@[simp] theorem faultFrame_lasting a1 (s : State) : lasting (faultFrame a1 s) = lasting s := by
  unfold faultFrame; simp
@[simp] theorem haloRead_lasting a1 a2 a3 a4 (s : State) : lasting (haloRead a1 a2 a3 a4 s) = lasting s := by
  unfold haloRead; (repeat' (first | rfl | split | (simp; done) | (simp; split)))
@[simp] theorem nextFrame_lasting a1 (s : State) : lasting (nextFrame a1 s) = lasting s := by
  unfold nextFrame; (repeat' split) <;> simp
@[simp] theorem frameEnd_lasting a1 a2 a3 a4 (s : State) : lasting (frameEnd a1 a2 a3 a4 s) = lasting s := by
  unfold frameEnd; (repeat' split) <;> simp
@[simp] theorem streamOpen_lasting a1 (s : State) : lasting (streamOpen a1 s) = lasting s := by
  refine runCmd_lasting _ _ _ _ (fun c => ?_); try simp only []
  (repeat' (first | rfl | split | (simp; done) | (simp; split)))
@[simp] theorem replyFeed_lasting a1 a2 a3 a4 a5 a6 (s : State) : lasting (replyFeed a1 a2 a3 a4 a5 a6 s) = lasting s := by
  unfold replyFeed; simp
@[simp] theorem streamFeed_lasting a1 a2 a3 a4 (s : State) : lasting (streamFeed a1 a2 a3 a4 s) = lasting s := by
  refine runCmdWith_lasting _ _ _ _ _ (fun c => ?_); try simp only []
  (repeat' (first | rfl | split | (simp; done) | (simp; split)))
@[simp] theorem noBuffer_lasting a1 a2 a3 (s : State) : lasting (noBuffer a1 a2 a3 s) = lasting s := by
  unfold noBuffer; simp
@[simp] theorem showStart_lasting a1 a2 a3 a4 a5 a6 (s : State) : lasting (showStart a1 a2 a3 a4 a5 a6 s) = lasting s := by
  unfold showStart; simp
@[simp] theorem decodeStart_lasting a1 a2 a3 a4 a5 a6 (s : State) : lasting (decodeStart a1 a2 a3 a4 a5 a6 s) = lasting s := by
  unfold decodeStart; simp
@[simp] theorem pictureStart_lasting a1 a2 (s : State) : lasting (pictureStart a1 a2 s) = lasting s := by
  unfold pictureStart; (repeat' (first | rfl | split | (simp; done) | (simp; split)))
@[simp] theorem feedDone_lasting a1 a2 a3 a4 a5 a6 (s : State) : lasting (feedDone a1 a2 a3 a4 a5 a6 s) = lasting s := by
  unfold feedDone; (repeat' (first | rfl | split | (simp; done) | (simp; split)))
@[simp] theorem pictureEnds_lasting a1 a2 a3 a4 (s : State) : lasting (pictureEnds a1 a2 a3 a4 s) = lasting s := by
  unfold pictureEnds; (repeat' (first | rfl | split | (simp; done) | (simp; split)))
@[simp] theorem pictureEnd_lasting a1 a2 (s : State) : lasting (pictureEnd a1 a2 s) = lasting s := by
  unfold pictureEnd; (repeat' split) <;> simp
@[simp] theorem decodeWatchdog_lasting a1 a2 a3 (s : State) : lasting (decodeWatchdog a1 a2 a3 s) = lasting s := by
  unfold decodeWatchdog; (repeat' split) <;> simp
@[simp] theorem streamClose_lasting a1 (s : State) : lasting (streamClose a1 s) = lasting s := by
  refine runCmdWith_lasting _ _ _ _ _ (fun c => ?_); try simp only []
  (repeat' (first | rfl | split | (simp; done) | (simp; split)))
@[simp] theorem streamClosed_lasting a1 (s : State) : lasting (streamClosed a1 s) = lasting s := by
  unfold streamClosed; (repeat' split) <;> simp
@[simp] theorem encOpen_lasting a1 (s : State) : lasting (encOpen a1 s) = lasting s := by
  refine runCmd_lasting _ _ _ _ (fun c => ?_); try simp only []
  (repeat' (first | rfl | split | (simp; done) | (simp; split)))
@[simp] theorem frameTaken_lasting a1 a2 a3 a4 a5 (s : State) : lasting (frameTaken a1 a2 a3 a4 a5 s) = lasting s := by
  unfold frameTaken; (repeat' split) <;> simp
@[simp] theorem encFrame_lasting a1 a2 a3 a4 a5 (s : State) : lasting (encFrame a1 a2 a3 a4 a5 s) = lasting s := by
  refine runCmdWith_lasting _ _ _ _ _ (fun c => ?_); try simp only []
  (repeat' (first | rfl | split | (simp; done) | (simp; split)))
@[simp] theorem writeUnit_lasting a1 a2 a3 (s : State) : lasting (writeUnit a1 a2 a3 s) = lasting s := by
  unfold writeUnit; (repeat' split) <;> simp
@[simp] theorem frameDone_lasting a1 a2 a3 (s : State) : lasting (frameDone a1 a2 a3 s) = lasting s := by
  unfold frameDone; (repeat' (first | rfl | split | (simp; done) | (simp; split)))
@[simp] theorem encClose_lasting a1 (s : State) : lasting (encClose a1 s) = lasting s := by
  refine runCmdWith_lasting _ _ _ _ _ (fun c => ?_); try simp only []
  (repeat' (first | rfl | split | (simp; done) | (simp; split)))
theorem runTest_lasting (a1 a2 a3) (f : Cmd → State → State) (s : State) (h : ∀ c, lasting (f c s) = lasting s) :
    lasting (runTest a1 a2 a3 f s) = lasting s := by
  have := runCmd_lasting a1 a2 f s h
  unfold runTest; (repeat' split) <;> first | rfl | exact this | simp
@[simp] theorem loopbackSet_lasting a1 (s : State) : lasting (loopbackSet a1 s) = lasting s := by
  refine runTest_lasting _ _ _ _ _  (fun _  => ?_); try simp only []
  (repeat' (first | rfl | split | (simp; done) | (simp; split)))
@[simp] theorem loopbackEnd_lasting a1 a2 a3 (s : State) : lasting (loopbackEnd a1 a2 a3 s) = lasting s := by
  unfold loopbackEnd; (repeat' split) <;> simp
@[simp] theorem selftestRun_lasting a1 (s : State) : lasting (selftestRun a1 s) = lasting s := by
  refine runTest_lasting _ _ _ _ _  (fun _  => ?_); try simp only []
  (repeat' (first | rfl | split | (simp; done) | (simp; split)))
@[simp] theorem wipeCore_lasting a1 (s : State) : lasting (wipeCore a1 s) = lasting s := by
  unfold wipeCore; simp
@[simp] theorem coreTested_lasting a1 a2 a3 (s : State) : lasting (coreTested a1 a2 a3 s) = lasting s := by
  unfold coreTested; (repeat' (first | rfl | split | (simp; done) | (simp; split)))
@[simp] theorem selftestEnd_lasting a1 a2 a3 (s : State) : lasting (selftestEnd a1 a2 a3 s) = lasting s := by
  unfold selftestEnd; try simp only []
  (repeat' (first | rfl | split | (simp; done) | (simp; split)))
@[simp] theorem bobbinRead_lasting a1 (s : State) : lasting (bobbinRead a1 s) = lasting s := by
  unfold bobbinRead; simp
theorem runCounter_lasting (a1 a2) (f : Cmd → State → State) (s : State) (h : ∀ c, lasting (f c s) = lasting s) :
    lasting (runCounter a1 a2 f s) = lasting s := by
  have := runCmd_lasting a1 0x0804 f s h
  unfold runCounter; (repeat' split) <;> first | rfl | exact this | simp
@[simp] theorem counterRead_lasting a1 (s : State) : lasting (counterRead a1 s) = lasting s := by
  refine runCounter_lasting _ _ _ _  (fun _  => ?_); try simp only []
  (repeat' (first | rfl | split | (simp; done) | (simp; split)))
@[simp] theorem setProfiling_lasting a1 a2 a3 (s : State) : lasting (setProfiling a1 a2 a3 s) = lasting s := by
  refine runCounter_lasting _ _ _ _  (fun _  => ?_); try simp only []
  (repeat' (first | rfl | split | (simp; done) | (simp; split)))
@[simp] theorem counterArm_lasting a1 (s : State) : lasting (counterArm a1 s) = lasting s := by
  unfold counterArm; simp
@[simp] theorem counterDisarm_lasting a1 (s : State) : lasting (counterDisarm a1 s) = lasting s := by
  unfold counterDisarm; simp
@[simp] theorem replyMargins_lasting a1 a2 (s : State) : lasting (replyMargins a1 a2 s) = lasting s := by
  unfold replyMargins; simp
@[simp] theorem marginScan_lasting a1 (s : State) : lasting (marginScan a1 s) = lasting s := by
  refine runCmd_lasting _ _ _ _ (fun c => ?_); try simp only []
  (repeat' (first | rfl | split | (simp; done) | (simp; split)))
@[simp] theorem marginScanned_lasting a1 a2 a3 a4 (s : State) : lasting (marginScanned a1 a2 a3 a4 s) = lasting s := by
  unfold marginScanned; (repeat' split) <;> simp
@[simp] theorem traceConfig_lasting a1 (s : State) : lasting (traceConfig a1 s) = lasting s := by
  refine runCmd_lasting _ _ _ _ (fun c => ?_); try simp only []
  (repeat' (first | rfl | split | (simp; done) | (simp; split)))
@[simp] theorem traceSample_lasting  (s : State) : lasting (traceSample  s) = lasting s := by
  unfold traceSample; (repeat' (first | rfl | split | (simp; done) | (simp; split)))
@[simp] theorem traceSyncRec_lasting  (s : State) : lasting (traceSyncRec  s) = lasting s := by
  unfold traceSyncRec; (repeat' (first | rfl | split | (simp; done) | (simp; split)))
@[simp] theorem liveness_lasting a1 (s : State) : lasting (liveness a1 s) = lasting s := by
  unfold liveness; (repeat' (first | rfl | split | (simp; done) | (simp; split)))
@[simp] theorem wedge_lasting  (s : State) : lasting (wedge  s) = lasting s := by
  unfold wedge; (repeat' split) <;> simp
@[simp] theorem watchdogReset_lasting  (s : State) : lasting (watchdogReset  s) = lasting s := by
  unfold watchdogReset; (repeat' split) <;> simp
@[simp] theorem discardMirrored_lasting  (s : State) : lasting (discardMirrored  s) = lasting s := by
  unfold discardMirrored; simp
@[simp] theorem setBalance_lasting a1 a2 (s : State) : lasting (setBalance a1 a2 s) = lasting s := by
  unfold setBalance; simp
@[simp] theorem applyRequest_lasting a1 a2 (s : State) : lasting (applyRequest a1 a2 s) = lasting s := by
  unfold applyRequest; simp
@[simp] theorem applyFetch_lasting a1 a2 a3 (s : State) : lasting (applyFetch a1 a2 a3 s) = lasting s := by
  unfold applyFetch; simp
@[simp] theorem applyKv_lasting (a1 a2 a3 a4 a5) (s : State) : lasting (applyKv a1 a2 a3 a4 a5 s) = lasting s := by
  unfold applyKv; split
  · rfl
  · split
    · rfl
    · simp only []; split
      · rfl
      · simp only [storeLists_lasting]
        exact (lasting_foldl _ (fun s x => by split <;> simp) _ _).trans (by simp)
@[simp] theorem applyFinal_lasting a1 a2 a3 a4 (s : State) : lasting (applyFinal a1 a2 a3 a4 s) = lasting s := by
  unfold applyFinal; (repeat' split) <;> simp
@[simp] theorem applySeq_lasting a1 a2 a3 a4 a5 a6 a7 (s : State) : lasting (applySeq a1 a2 a3 a4 a5 a6 a7 s) = lasting s := by
  unfold applySeq; simp
@[simp] theorem applyFence_lasting a1 a2 a3 a4 a5 (s : State) : lasting (applyFence a1 a2 a3 a4 a5 s) = lasting s := by
  unfold applyFence; (repeat' split) <;> simp
@[simp] theorem applyCommand_lasting a1 a2 a3 a4 a5 a6 (s : State) : lasting (applyCommand a1 a2 a3 a4 a5 a6 s) = lasting s := by
  unfold applyCommand; (repeat' split) <;> simp
@[simp] theorem reportSetup_lasting a1 a2 a3 (s : State) : lasting (reportSetup a1 a2 a3 s) = lasting s := by
  unfold reportSetup; (repeat' (first | rfl | split | (simp; done) | (simp; split)))
@[simp] theorem commitGiven_lasting a1 a2 (s : State) : lasting (commitGiven a1 a2 s) = lasting s := by
  unfold commitGiven; (repeat' split) <;> simp
@[simp] theorem applySetup_lasting a1 a2 a3 a4 a5 a6 (s : State) : lasting (applySetup a1 a2 a3 a4 a5 a6 s) = lasting s := by
  unfold applySetup; (repeat' (first | rfl | split | (simp; done) | (simp; split)))
@[simp] theorem reportApplied_lasting (s : State) : lasting (reportApplied s) = lasting s := by
  unfold reportApplied; split
  · rfl
  · refine (lasting_foldl _ (fun s x => ?_) _ _).trans (by simp)
    split
    · simp only [reportSetup_lasting]; split <;> simp
    · rfl
@[simp] theorem divergeSeq_lasting a1 a2 (s : State) : lasting (divergeSeq a1 a2 s) = lasting s := by
  unfold divergeSeq; simp
@[simp] theorem diverge_lasting (a1) (s : State) : lasting (diverge a1 s) = lasting s := by
  unfold diverge; simp only []; split <;> first | (simp; done) | (split <;> simp)
@[simp] theorem applyRecord_lasting a1 (s : State) : lasting (applyRecord a1 s) = lasting s := by
  unfold applyRecord; (repeat' split) <;> simp
@[simp] theorem takeRecord_lasting (a1) (s : State) : lasting (takeRecord a1 s) = lasting s := by
  unfold takeRecord; simp only []; split
  · simp
  · split
    · simp
    · split
      · rfl
      · split <;> simp
@[simp] theorem intake_lasting a1 (s : State) : lasting (intake a1 s) = lasting s := by
  unfold intake; (repeat' split) <;> simp
@[simp] theorem takeWaiting_lasting (a1) (s : State) : lasting (takeWaiting a1 s) = lasting s := by
  unfold takeWaiting
  refine (lasting_foldl _ (fun s x => ?_) _ _).trans (by simp)
  split
  · simp only []; split <;> simp
  · simp
@[simp] theorem recordRx_lasting a1 (s : State) : lasting (recordRx a1 s) = lasting s := by
  unfold recordRx; (repeat' split) <;> simp
@[simp] theorem handOver_lasting  (s : State) : lasting (handOver  s) = lasting s := by
  unfold handOver; simp
@[simp] theorem tryHandover_lasting  (s : State) : lasting (tryHandover  s) = lasting s := by
  unfold tryHandover; (repeat' split) <;> simp
@[simp] theorem ackRx_lasting a1 (s : State) : lasting (ackRx a1 s) = lasting s := by
  unfold ackRx; (repeat' split) <;> simp
@[simp] theorem ackTimeout_lasting  (s : State) : lasting (ackTimeout  s) = lasting s := by
  unfold ackTimeout; (repeat' split) <;> simp
@[simp] theorem setupReport_lasting a1 a2 (s : State) : lasting (setupReport a1 a2 s) = lasting s := by
  unfold setupReport; (repeat' (first | rfl | split | (simp; done) | (simp; split)))
@[simp] theorem armCopies_lasting  (s : State) : lasting (armCopies  s) = lasting s := by
  unfold armCopies; simp
@[simp] theorem takeoverEntry_lasting a1 a2 (s : State) : lasting (takeoverEntry a1 a2 s) = lasting s := by
  unfold takeoverEntry; (repeat' (first | rfl | split | (simp; done) | (simp; split)))
@[simp] theorem loseCommand_lasting a1 a2 a3 a4 a5 (s : State) : lasting (loseCommand a1 a2 a3 a4 a5 s) = lasting s := by
  unfold loseCommand; (repeat' split) <;> simp
@[simp] theorem openRings_lasting  (s : State) : lasting (openRings  s) = lasting s := by
  unfold openRings; simp
@[simp] theorem loseWork_lasting  (s : State) : lasting (loseWork  s) = lasting s := by
  unfold loseWork; simp
@[simp] theorem openWindows_lasting  (s : State) : lasting (openWindows  s) = lasting s := by
  unfold openWindows; simp
@[simp] theorem takeover_lasting a1 (s : State) : lasting (takeover a1 s) = lasting s := by
  unfold takeover; simp
@[simp] theorem giveUp_lasting  (s : State) : lasting (giveUp  s) = lasting s := by
  unfold giveUp; simp
@[simp] theorem endPairCmds_lasting  (s : State) : lasting (endPairCmds  s) = lasting s := by
  unfold endPairCmds; (repeat' (first | rfl | split | (simp; done) | (simp; split)))
@[simp] theorem partnerLost_lasting  (s : State) : lasting (partnerLost  s) = lasting s := by
  unfold partnerLost; (repeat' split) <;> simp
@[simp] theorem unbind_lasting  (s : State) : lasting (unbind  s) = lasting s := by
  unfold unbind; (repeat' (first | rfl | split | (simp; done) | (simp; split)))
@[simp] theorem followMode_lasting a1 (s : State) : lasting (followMode a1 s) = lasting s := by
  unfold followMode; (repeat' split) <;> simp
@[simp] theorem takeFrame_lasting (a1 a2 a3 a4) (s : State) : lasting (takeFrame a1 a2 a3 a4 s) = lasting s := by
  unfold takeFrame; simp only []; split <;> (try split) <;> simp <;> split <;> simp
@[simp] theorem frameARx_lasting a1 (s : State) : lasting (frameARx a1 s) = lasting s := by
  unfold frameARx; (repeat' (first | rfl | split | (simp; done) | (simp; split)))
@[simp] theorem frameBRx_lasting a1 a2 (s : State) : lasting (frameBRx a1 a2 s) = lasting s := by
  unfold frameBRx; (repeat' split) <;> simp
@[simp] theorem heartbeat_lasting  (s : State) : lasting (heartbeat  s) = lasting s := by
  unfold heartbeat; (repeat' split) <;> simp
@[simp] theorem linkLost_lasting  (s : State) : lasting (linkLost  s) = lasting s := by
  simp only [linkLost]
  split
  · split <;> simp
  · simp
@[simp] theorem mirrorUp_lasting  (s : State) : lasting (mirrorUp  s) = lasting s := by
  unfold mirrorUp; (repeat' split) <;> simp
@[simp] theorem tenantCreate_lasting a1 (s : State) : lasting (tenantCreate a1 s) = lasting s := by
  refine runCmdWith_lasting _ _ _ _ _ (fun c => ?_); try simp only []
  (repeat' (first | rfl | split | (simp; done) | (simp; split)))
@[simp] theorem beginRemoval_lasting a1 a2 (s : State) : lasting (beginRemoval a1 a2 s) = lasting s := by
  unfold beginRemoval; simp
@[simp] theorem tenantRemove_lasting a1 (s : State) : lasting (tenantRemove a1 s) = lasting s := by
  refine runCmd_lasting _ _ _ _ (fun c => ?_); try simp only []
  (repeat' (first | rfl | split | (simp; done) | (simp; split)))
@[simp] theorem releaseTenant_lasting a1 (s : State) : lasting (releaseTenant a1 s) = lasting s := by
  unfold releaseTenant; simp
@[simp] theorem removalDone_lasting a1 (s : State) : lasting (removalDone a1 s) = lasting s := by
  unfold removalDone; (repeat' (first | rfl | split | (simp; done) | (simp; split)))
@[simp] theorem markKeyless_lasting a1 (s : State) : lasting (markKeyless a1 s) = lasting s := by
  unfold markKeyless; simp
@[simp] theorem keyInstall_lasting a1 a2 (s : State) : lasting (keyInstall a1 a2 s) = lasting s := by
  refine runCmd_lasting _ _ _ _ (fun c => ?_); try simp only []
  (repeat' (first | rfl | split | (simp; done) | (simp; split)))
@[simp] theorem rotateTo_lasting a1 a2 a3 a4 (s : State) : lasting (rotateTo a1 a2 a3 a4 s) = lasting s := by
  unfold rotateTo; simp
@[simp] theorem keyRotate_lasting a1 a2 (s : State) : lasting (keyRotate a1 a2 s) = lasting s := by
  refine runCmd_lasting _ _ _ _ (fun c => ?_); try simp only []
  (repeat' (first | rfl | split | (simp; done) | (simp; split)))
@[simp] theorem restitch_lasting a1 a2 (s : State) : lasting (restitch a1 a2 s) = lasting s := by
  unfold restitch; (repeat' (first | rfl | split | (simp; done) | (simp; split)))
@[simp] theorem attestQuote_lasting a1 a2 (s : State) : lasting (attestQuote a1 a2 s) = lasting s := by
  refine runCmd_lasting _ _ _ _ (fun c => ?_); try simp only []
  (repeat' (first | rfl | split | (simp; done) | (simp; split)))
@[simp] theorem partitionSet_lasting a1 a2 (s : State) : lasting (partitionSet a1 a2 s) = lasting s := by
  refine runCmdWith_lasting _ _ _ _ _ (fun c => ?_); try simp only []
  (repeat' (first | rfl | split | (simp; done) | (simp; split)))
@[simp] theorem patternStore_lasting a1 a2 (s : State) : lasting (patternStore a1 a2 s) = lasting s := by
  refine runCmd_lasting _ _ _ _ (fun c => ?_); try simp only []
  (repeat' (first | rfl | split | (simp; done) | (simp; split)))
@[simp] theorem patternStored_lasting a1 a2 (s : State) : lasting (patternStored a1 a2 s) = lasting s := by
  unfold patternStored; (repeat' split) <;> simp
theorem runPattern_lasting (a1 a2) (f : Cmd → Nat → Pattern → State → State) (s : State)
    (h : ∀ c i p, lasting (f c i p s) = lasting s) : lasting (runPattern a1 a2 f s) = lasting s := by
  refine runCmdWith_lasting _ _ _ _ _ (fun c => ?_); (repeat' split) <;> simp [h]
@[simp] theorem stageRefused_lasting a1 a2 a3 (s : State) : lasting (stageRefused a1 a2 a3 s) = lasting s := by
  unfold stageRefused; simp
@[simp] theorem patternStage_lasting a1 (s : State) : lasting (patternStage a1 s) = lasting s := by
  refine runCmdWith_lasting _ _ _ _ _ (fun c => ?_); try simp only []
  (repeat' (first | rfl | split | (simp; done) | (simp; split)))
@[simp] theorem stageFails_lasting a1 a2 a3 a4 (s : State) : lasting (stageFails a1 a2 a3 a4 s) = lasting s := by
  unfold stageFails; simp
@[simp] theorem patternStaged_lasting a1 a2 (s : State) : lasting (patternStaged a1 a2 s) = lasting s := by
  unfold patternStaged; (repeat' (first | rfl | split | (simp; done) | (simp; split)))
@[simp] theorem withdrawFor_lasting (a1 a2) (s : State) : lasting (withdrawFor a1 a2 s) = lasting s := by
  induction a2 generalizing s with
  | nil => rfl
  | cons j rest ih => unfold withdrawFor; simp only [ih]; split <;> simp
@[simp] theorem addStages_lasting a1 a2 (s : State) : lasting (addStages a1 a2 s) = lasting s := by
  unfold addStages; (repeat' (first | rfl | split | (simp; done) | (simp; split)))
@[simp] theorem pinPattern_lasting a1 a2 a3 (s : State) : lasting (pinPattern a1 a2 a3 s) = lasting s := by
  unfold pinPattern; (repeat' split) <;> simp
@[simp] theorem rotatePattern_lasting a1 a2 a3 (s : State) : lasting (rotatePattern a1 a2 a3 s) = lasting s := by
  unfold rotatePattern; (repeat' split) <;> simp
@[simp] theorem patternReside_lasting a1 (s : State) : lasting (patternReside a1 s) = lasting s := by
  refine runCmdWith_lasting _ _ _ _ _ (fun c => ?_); try simp only []
  (repeat' (first | rfl | split | (simp; done) | (simp; split)))
@[simp] theorem patternResident_lasting a1 (s : State) : lasting (patternResident a1 s) = lasting s := by
  unfold patternResident; (repeat' (first | rfl | split | (simp; done) | (simp; split)))
@[simp] theorem patternEvict_lasting a1 (s : State) : lasting (patternEvict a1 s) = lasting s := by
  refine runCmdWith_lasting _ _ _ _ _ (fun c => ?_); try simp only []
  (repeat' (first | rfl | split | (simp; done) | (simp; split)))
@[simp] theorem evictTo_lasting a1 a2 a3 (s : State) : lasting (evictTo a1 a2 a3 s) = lasting s := by
  unfold evictTo; (repeat' split) <;> simp
@[simp] theorem patternEvicted_lasting a1 (s : State) : lasting (patternEvicted a1 s) = lasting s := by
  unfold patternEvicted; (repeat' (first | rfl | split | (simp; done) | (simp; split)))
@[simp] theorem appliqueLoad_lasting a1 (s : State) : lasting (appliqueLoad a1 s) = lasting s := by
  refine runCmdWith_lasting _ _ _ _ _ (fun c => ?_); try simp only []
  (repeat' (first | rfl | split | (simp; done) | (simp; split)))
theorem runApplique_lasting (a1 a2) (f : Cmd → Nat → Applique → State → State) (s : State)
    (h : ∀ c i p, lasting (f c i p s) = lasting s) : lasting (runApplique a1 a2 f s) = lasting s := by
  refine runCmdWith_lasting _ _ _ _ _ (fun c => ?_); (repeat' split) <;> simp [h]
@[simp] theorem appliqueReplace_lasting a1 (s : State) : lasting (appliqueReplace a1 s) = lasting s := by
  refine runCmdWith_lasting _ _ _ _ _ (fun c => ?_); try simp only []
  (repeat' (first | rfl | split | (simp; done) | (simp; split)))
@[simp] theorem loadedVersion_lasting a1 a2 a3 a4 a5 (s : State) : lasting (loadedVersion a1 a2 a3 a4 a5 s) = lasting s := by
  unfold loadedVersion; (repeat' split) <;> simp
@[simp] theorem appliqueLoaded_lasting a1 a2 a3 a4 (s : State) : lasting (appliqueLoaded a1 a2 a3 a4 s) = lasting s := by
  unfold appliqueLoaded; (repeat' (first | rfl | split | (simp; done) | (simp; split)))
@[simp] theorem appliqueRetire_lasting a1 (s : State) : lasting (appliqueRetire a1 s) = lasting s := by
  refine runCmdWith_lasting _ _ _ _ _ (fun c => ?_); try simp only []
  (repeat' (first | rfl | split | (simp; done) | (simp; split)))
@[simp] theorem pairBind_lasting a1 (s : State) : lasting (pairBind a1 s) = lasting s := by
  refine runCmd_lasting _ _ _ _ (fun c => ?_); try simp only []
  (repeat' (first | rfl | split | (simp; done) | (simp; split)))
@[simp] theorem pairBound_lasting a1 a2 (s : State) : lasting (pairBound a1 a2 s) = lasting s := by
  unfold pairBound; (repeat' split) <;> simp
@[simp] theorem bindTimeout_lasting a1 (s : State) : lasting (bindTimeout a1 s) = lasting s := by
  unfold bindTimeout; (repeat' split) <;> simp
@[simp] theorem pairStatus_lasting a1 (s : State) : lasting (pairStatus a1 s) = lasting s := by
  unfold pairStatus; simp
theorem runActive_lasting (a1 a2 a3) (f : Cmd → State → State) (s : State) (h : ∀ c, lasting (f c s) = lasting s) :
    lasting (runActive a1 a2 a3 f s) = lasting s := by
  refine runCmd_lasting _ _ _ _ (fun c => ?_); split <;> simp [h]
@[simp] theorem resilverStart_lasting a1 (s : State) : lasting (resilverStart a1 s) = lasting s := by
  refine runCmd_lasting _ _ _ _ (fun c => ?_); try simp only []
  (repeat' (first | rfl | split | (simp; done) | (simp; split)))
@[simp] theorem bindCopied_lasting (a1 a2) (s : State) : lasting (bindCopied a1 a2 s) = lasting s := by
  unfold bindCopied
  refine lasting_foldl _ (fun s x => ?_) _ _
  cases h : bindQueue x.2.queue (tgetD a2 x.2.queue 0) s with
  | none => rfl
  | some t => exact bindQueue_lasting _ _ _ _ h
@[simp] theorem drawKeys_lasting (s : State) : lasting (drawKeys s) = lasting s := by
  unfold drawKeys; refine lasting_foldl _ (fun s x => ?_) _ _; rfl
@[simp] theorem pagesForCopied_lasting (a1) (s : State) : lasting (pagesForCopied a1 s) = lasting s := by
  simp only [pagesForCopied]
  refine (lasting_foldl _ (fun s x => by simp) _ _).trans ?_
  refine (lasting_foldl _ (fun s x => by simp) _ _).trans ?_
  refine (lasting_foldl _ (fun s x => by split <;> simp) _ _).trans ?_
  exact lasting_foldl _ (fun s x => by split <;> simp) _ _
@[simp] theorem install_lasting a1 a2 (s : State) : lasting (install a1 a2 s) = lasting s := by
  unfold install; simp
@[simp] theorem sparePhase_lasting a1 a2 (s : State) : lasting (sparePhase a1 a2 s) = lasting s := by
  unfold sparePhase; (repeat' split) <;> simp
@[simp] theorem copyPhase_lasting (a1) (s : State) : lasting (copyPhase a1 s) = lasting s := by
  unfold copyPhase; split
  · refine (lasting_foldl _ (fun s x => by simp) _ _).trans ?_
    refine (lasting_foldl _ (fun s x => by split <;> simp) _ _).trans ?_
    simp
  · simp
  · refine lasting_foldl _ (fun s x => ?_) _ _; exact lasting_foldl _ (fun s x => by simp) _ _
  · rfl
@[simp] theorem phaseComplete_lasting a1 a2 a3 (s : State) : lasting (phaseComplete a1 a2 a3 s) = lasting s := by
  unfold phaseComplete; (repeat' split) <;> simp
@[simp] theorem auditReply_lasting a1 a2 a3 a4 (s : State) : lasting (auditReply a1 a2 a3 a4 s) = lasting s := by
  unfold auditReply; simp
@[simp] theorem resolveAll_lasting a1 (s : State) : lasting (resolveAll a1 s) = lasting s := by
  unfold resolveAll; simp
@[simp] theorem tellObject_lasting a1 a2 (s : State) : lasting (tellObject a1 a2 s) = lasting s := by
  unfold tellObject; (repeat' split) <;> simp
@[simp] theorem takeHigher_lasting a1 (s : State) : lasting (takeHigher a1 s) = lasting s := by
  unfold takeHigher; (repeat' (first | rfl | split | (simp; done) | (simp; split)))
@[simp] theorem repair_lasting a1 a2 (s : State) : lasting (repair a1 a2 s) = lasting s := by
  unfold repair; simp
@[simp] theorem pairAudit_lasting a1 a2 a3 a4 a5 (s : State) : lasting (pairAudit a1 a2 a3 a4 a5 s) = lasting s := by
  refine runCmd_lasting _ _ _ _ (fun c => ?_); try simp only []
  (repeat' (first | rfl | split | (simp; done) | (simp; split)))
@[simp] theorem switchback_lasting a1 a2 a3 a4 a5 (s : State) : lasting (switchback a1 a2 a3 a4 a5 s) = lasting s := by
  refine runCmd_lasting _ _ _ _ (fun c => ?_); try simp only []
  (repeat' (first | rfl | split | (simp; done) | (simp; split)))
@[simp] theorem keepAsCopy_lasting  (s : State) : lasting (keepAsCopy  s) = lasting s := by
  unfold keepAsCopy; simp
@[simp] theorem switched_lasting a1 (s : State) : lasting (switched a1 s) = lasting s := by
  unfold switched; (repeat' split) <;> simp
@[simp] theorem pairUnbind_lasting a1 (s : State) : lasting (pairUnbind a1 s) = lasting s := by
  refine runCmd_lasting _ _ _ _ (fun c => ?_); try simp only []
  (repeat' (first | rfl | split | (simp; done) | (simp; split)))
@[simp] theorem admitAs_lasting a1 a2 a3 (s : State) : lasting (admitAs a1 a2 a3 s) = lasting s := by
  unfold admitAs; (repeat' split) <;> simp
@[simp] theorem reqCommit_lasting a1 (s : State) : lasting (reqCommit a1 s) = lasting s := by
  refine runCmd_lasting _ _ _ _ (fun c => ?_); try simp only []
  (repeat' (first | rfl | split | (simp; done) | (simp; split)))
@[simp] theorem tellCommitted_lasting a1 a2 a3 a4 (s : State) : lasting (tellCommitted a1 a2 a3 a4 s) = lasting s := by
  unfold tellCommitted; (repeat' split) <;> simp
@[simp] theorem commitPath_lasting a1 a2 a3 a4 a5 (s : State) : lasting (commitPath a1 a2 a3 a4 a5 s) = lasting s := by
  unfold commitPath; simp
@[simp] theorem commitWaitEnd_lasting a1 (s : State) : lasting (commitWaitEnd a1 s) = lasting s := by
  unfold commitWaitEnd; (repeat' split) <;> simp
@[simp] theorem reqCancel_lasting a1 (s : State) : lasting (reqCancel a1 s) = lasting s := by
  refine runCmd_lasting _ _ _ _ (fun c => ?_); try simp only []
  (repeat' (first | rfl | split | (simp; done) | (simp; split)))
@[simp] theorem countSoFar_lasting a1 (s : State) : lasting (countSoFar a1 s) = lasting s := by
  unfold countSoFar; (repeat' split) <;> simp
@[simp] theorem reqQuery_lasting a1 (s : State) : lasting (reqQuery a1 s) = lasting s := by
  refine runCmd_lasting _ _ _ _ (fun c => ?_); try simp only []
  (repeat' (first | rfl | split | (simp; done) | (simp; split)))
@[simp] theorem seqClose_lasting a1 (s : State) : lasting (seqClose a1 s) = lasting s := by
  refine runCmd_lasting _ _ _ _ (fun c => ?_); try simp only []
  (repeat' (first | rfl | split | (simp; done) | (simp; split)))
@[simp] theorem seqClosed_lasting a1 (s : State) : lasting (seqClosed a1 s) = lasting s := by
  unfold seqClosed; (repeat' split) <;> simp
@[simp] theorem smbReply_lasting a1 a2 a3 a4 (s : State) : lasting (smbReply a1 a2 a3 a4 s) = lasting s := by
  unfold smbReply; (repeat' split) <;> simp
@[simp] theorem smbNak_lasting  (s : State) : lasting (smbNak  s) = lasting s := by
  unfold smbNak; (repeat' split) <;> simp
@[simp] theorem releaseAlert_lasting  (s : State) : lasting (releaseAlert  s) = lasting s := by
  unfold releaseAlert; (repeat' split) <;> simp
@[simp] theorem smbIdentity_lasting  (s : State) : lasting (smbIdentity  s) = lasting s := by
  unfold smbIdentity; simp
@[simp] theorem smbState_lasting  (s : State) : lasting (smbState  s) = lasting s := by
  unfold smbState; simp
@[simp] theorem smbTime_lasting  (s : State) : lasting (smbTime  s) = lasting s := by
  unfold smbTime; simp
@[simp] theorem smbSensors_lasting a1 a2 (s : State) : lasting (smbSensors a1 a2 s) = lasting s := by
  unfold smbSensors; (repeat' split) <;> simp
@[simp] theorem smbPower_lasting  (s : State) : lasting (smbPower  s) = lasting s := by
  unfold smbPower; simp
@[simp] theorem smbBobbin_lasting a1 a2 a3 (s : State) : lasting (smbBobbin a1 a2 a3 s) = lasting s := by
  unfold smbBobbin; (repeat' split) <;> simp
@[simp] theorem smbAlert_lasting  (s : State) : lasting (smbAlert  s) = lasting s := by
  unfold smbAlert; (repeat' split) <;> simp
@[simp] theorem challenge_lasting  (s : State) : lasting (challenge  s) = lasting s := by
  unfold challenge; (repeat' split) <;> simp
@[simp] theorem traceBobbin_lasting a1 a2 (s : State) : lasting (traceBobbin a1 a2 s) = lasting s := by
  unfold traceBobbin; (repeat' split) <;> simp
@[simp] theorem storeFrom_lasting a1 (s : State) : lasting (storeFrom a1 s) = lasting s := by
  unfold storeFrom; (repeat' (first | rfl | split | (simp; done) | (simp; split)))
@[simp] theorem storeOne_lasting  (s : State) : lasting (storeOne  s) = lasting s := by
  unfold storeOne; (repeat' split) <;> simp
@[simp] theorem holdCounters_lasting  (s : State) : lasting (holdCounters  s) = lasting s := by
  unfold holdCounters; (repeat' split) <;> simp

/-! ### The operations that change one of them -/

theorem writeReply_lasting (q : Nat) (b : BitVec 256) (e : Bool) (s : State) (x : RQueue) (h : tget s.queues q = some x) :
    lasting (writeReply q b e s) = { lasting s with
      replies := replyLog s ++ [.reply q (x.tail % 2 ^ x.sizeLog2) (withReserved q x.tail b), .tailWord x.tailAddr (x.tail + 1)] } := by
  unfold writeReply; rw [h]; simp only []
  split
  · rw [sendMsix_lasting]; simp [lasting, emit, replyLog, isReply, List.filter_append, List.filter_cons]
  · simp [lasting, emit, replyLog, isReply, List.filter_append, List.filter_cons]

theorem blow_lasting (b : BitVec 4096) (s : State) : lasting (blow b s) = { lasting s with
    cellA := s.fuses.cellA ||| b, cellB := s.fuses.cellB ||| b, cellC := s.fuses.cellC ||| b } := rfl

theorem openPort_lasting (s : State) : lasting (openPort s) = { lasting s with debug := true } := by
  have h : lasting (zeroAllKeys (((s.tenants.filter fun e => e.2.st == .active).map Prod.fst).foldl
    (fun s t => beginRemoval t 0 s) s)) = lasting s := by simp
  simp only [lasting, replyLog, Lasting.mk.injEq] at h
  simp only [openPort, lasting, replyLog, Lasting.mk.injEq]
  simp_all

theorem bothLost_lasting (s : State) : lasting (bothLost s) = { lasting s with debug := false } := by
  unfold bothLost; simp only []; split
  · rw [sweep_lasting]; split
    · rw [zeroAllKeys_lasting, signalDying_lasting]; rfl
    · rfl
  · rfl

end Sys2Proof.Machine
end

