-- ==== Sys2Proof/WellFormed.lean ====
section
/-! DEFINITION. Which commands the block can be given: the range of every operand that has one, each check by name. -/
namespace Sys2Proof

/-- The checks of an operand. -/
inductive Check where
  /-- a command number is 0 (they count from 1) -/
  | cid
  /-- a request table slot beyond 65,535 (03 R75) -/
  | slot
  /-- a ring number beyond 1,048,575 (02 R48) -/
  | ring
  /-- a reply queue beyond 2,047 (02 R41) -/
  | queue
  /-- more than 8 slots in one visit (02 R55) -/
  | visit
  /-- a hem outside 1 to 7 (03 Table 3-5) -/
  | hem
  /-- more rows than a root and 64 candidates (05 R170) -/
  | rows
  /-- an account beyond 4,095 (02 Table 2-32) -/
  | account
  /-- a pattern index beyond 4,095 (03 R109) -/
  | pattern
  /-- a sequence index beyond 262,143 (05) -/
  | seqIndex
  /-- a decode engine beyond 7 (07 Table 7-2) -/
  | engine
  /-- a stream index beyond 63 (07) -/
  | stream
  /-- a half beyond 1 -/
  | half
  /-- a page number beyond a half's (08 R240) -/
  | page
  /-- a logical core beyond 7 -/
  | core
  /-- an LPDDR4X channel beyond 127 -/
  | channel
  /-- a block of a pattern image beyond 24 bits (08 R261) -/
  | block
  /-- a bobbin unit beyond 0x1D (14 Table 14-4) -/
  | unit
  /-- a processor beyond 4 (10 R319) -/
  | processor
  /-- a syntax element outside what its field can hold, the least value above the greatest (07 R229) -/
  | bounds
  /-- more characters than a Halyard B frame has (13 R398) -/
  | chars
  /-- a list of samples of the wrong length -/
  | samples
  /-- a link speed or width that 13 Table 13-6 does not list -/
  | link
  /-- an SMBus argument beyond a byte -/
  | byte
  /-- a JTAG register's field beyond its length (09 R277) -/
  | jtag
  /-- a fuse bit beyond 4,095 -/
  | fuse
deriving DecidableEq, Repr

/-- A check fails by name. -/
def need (b : Bool) (e : Check) : List Check := if b then [] else [e]

def cidOk (c : Nat) : List Check := need (c != 0) .cid
def slotOk (n : Nat) : List Check := need (decide (n < 65536)) .slot
def ringOk (n : Nat) : List Check := need (decide (n < 1048576)) .ring
def patternOk (n : Nat) : List Check := need (decide (n < 4096)) .pattern
def halfOk (n : Nat) : List Check := need (decide (n < 2)) .half
def coreOk (n : Nat) : List Check := need (decide (n < 8)) .core
def channelOk (n : Nat) : List Check := need (decide (n < 128)) .channel
def engineOk (n : Nat) : List Check := need (decide (n < 8)) .engine
def unitOk (n : Nat) : List Check := need (decide (n < 30)) .unit
def lengthOk {α : Type} (l : List α) (n : Nat) : List Check := need (l.length == n) .samples
def boundsOk (l : List Parsed) : List Check := need (l.all fun e => decide (e.2.1 ≤ e.2.2)) .bounds
def byteOk (n : Nat) : List Check := need (decide (n < 256)) .byte

def targetOk : Target → List Check
  | .req slot => slotOk slot
  | .cmd cid => cidOk cid

def objectOk : MemObject → List Check
  | .stagedPattern p | .residentPattern p => patternOk p
  | .kv i _ | .pageList i => need (decide (i < 262144)) .seqIndex
  | .picture stream _ => need (decide (stream < 64)) .stream
  | .requestEntry slot | .sentinelEntry slot => slotOk slot
  | .applique _ | .gradBuffer _ | .other => []

def memErrorOk : MemError → List Check
  | .lpddr channel _ _ obj => channelOk channel ++ objectOk obj
  | .sramCorrected unit | .crcBoundary unit => unitOk unit
  | .uncorrectable _ half _ _ obj => halfOk half ++ objectOk obj
  | .aesMismatch => []
  | .pageOwner half page => halfOk half ++ need (decide (page < 2097152)) .page

def dieLinkOk : DieLink → List Check
  | .memory half | .hub half => halfOk half
  | .bridge => []

/-- The checks a command fails. -/
def faults : Instr → List Check
  | .doorbellWrite _ _ | .replyDoorbellWrite _ _ | .adminRingEnable _ _ | .adminRingDisable _ | .registerWrite _ _ _
  | .localTimeRead _ _ | .eventBacklogDrain | .sweepComplete | .sliceStart | .shutdownComplete | .activationPauseEnd _ _
  | .activationPauseTimeout | .trialComplete | .resilverPhaseComplete _ _ _ | .powerOn | .startComplete | .startFailure
  | .startRetry | .startStageTimeout _ | .startFailsClear | .perstAssert | .perstDeassert | .hotReset | .linkDisable
  | .functionLevelReset | .d3hotEntry | .d3hotTaken | .d3hotExit | .busMasterDisable | .busMasterEnable | .feedPresent _ _
  | .feedLost _ _ | .holdUpEnd | .latchOpen | .latchClose | .slotIdChange _ | .syspllLockLoss | .refclkFail | .wedge
  | .watchdogReset | .heartbeatSend | .halyardAFrameRx _ | .partnerLost | .mirrorRecordRx _ | .recordAckRx _
  | .recordAckTimeout | .mirrorLinkLost | .mirrorLinkUp | .powerStepDown _ | .powerStepUp | .flowSample _
  | .flowCapUpdate _ | .orderlyShutdownDrainEnd | .coolantHoldEnd | .coolantHoldTimeout | .eccWindowEnd | .smbusIdentity
  | .smbusState | .smbusTime | .smbusPower | .smbusAlertResponse | .jtagChallenge | .jtagOpen | .traceCounterSample
  | .traceSync => []
  | .ringFetchVisit kinds => (kinds.flatMap fun k => ringOk k.1 ++ need (decide (k.2.length ≤ 8)) .visit)
  | .commandFetched ring _ _ _ | .fetchReadFailed ring | .ringDestroyComplete ring => ringOk ring
  | .pcieReadError t => targetOk t
  | .replyAccept queue => need (decide (queue < 2048)) .queue
  | .requestReady slot | .requestDispatch slot _ _ | .requestResume slot | .requestWorkComplete slot _ | .inCrcCheck slot _ _ _
  | .fallbackTick slot | .hemCutoff slot _ | .requestUnitsStopped slot _ | .requestRetired slot => slotOk slot
  | .hemComplete slot hem _ => slotOk slot ++ need (decide (1 ≤ hem ∧ hem ≤ 7)) .hem
  | .verifyPassComplete slot rows _ => slotOk slot ++ need (decide (rows.length ≤ 65)) .rows
  | .budgetRefill account => need (decide (account < 4096)) .account
  | .patternSramRelease pattern | .migrationReturn pattern | .flashPatrol pattern _ _ _ => patternOk pattern
  | .frameEnd pattern half spent _ => patternOk pattern ++ halfOk half ++ need (decide (spent.length ≤ 8)) .core
  | .seqCloseComplete i => need (decide (i < 262144)) .seqIndex
  | .pictureDecodeStart engine p => engineOk engine ++ (p.sets.flatMap fun x => boundsOk x.elems)
  | .pictureDecodeEnd engine p | .decodeWatchdog engine _ p =>
    engineOk engine ++ (p.slices.flatMap fun sl => sl.units.flatMap fun u => boundsOk u.elems)
  | .streamCloseComplete stream => need (decide (stream < 64)) .stream
  | .restitchPage half page => halfOk half ++ need (decide (page < 2097152)) .page
  | .patternStageComplete cid e => cidOk cid ++ (match e with
      | .ldpcFail block | .checkFail block => need (decide (block < 16777216)) .block
      | .complete => [])
  | .orderedRelease cid | .nop cid | .identify cid | .getHealth cid | .setConfig cid | .configCommit cid | .ringCreate cid _
  | .ringDestroy cid | .accountSet cid | .resetUnitModule cid | .resetUnitHalf cid | .resetUnitCore cid
  | .resetUnitComplete cid | .shutdown cid | .patternStore cid _ | .patternStoreComplete cid _ | .patternStage cid
  | .patternReside cid | .patternResideComplete cid | .patternEvict cid | .patternEvictComplete cid | .appliqueLoad cid
  | .appliqueReplace cid | .appliqueLoadComplete cid _ _ _ | .appliqueRetire cid | .reqSubmit cid _ | .reqAppend cid _
  | .reqVerify cid _ | .reqCommit cid | .reqCommitWaitEnd cid | .reqCancel cid | .reqQuery cid | .seqClose cid
  | .adaptStep cid _ | .streamOpen cid | .streamFeed cid _ _ _ | .streamClose cid | .encOpen cid | .encFrame cid _ _ _ _
  | .encFrameComplete cid _ _ | .encClose cid | .fenceAlloc cid | .fenceFree cid | .fenceFreeComplete cid
  | .fenceSignal cid | .fenceWait cid | .fenceWaitDone cid | .fenceWaitLimit cid | .tenantCreate cid | .tenantRemove cid
  | .tenantRemoveComplete cid | .keyInstall cid _ | .keyRotate cid _ | .attestQuote cid _ | .partitionSet cid _
  | .pairBind cid | .pairBindComplete cid _ | .pairBindTimeout cid | .pairStatus cid | .resilverStart cid
  | .pairSwitchback cid _ _ _ _ | .pairSwitchbackComplete cid | .pairAudit cid _ _ _ _ | .pairUnbind cid | .fwWriteBlock cid _
  | .fwBlockWritten cid | .fwVerify cid | .fwVerifyComplete cid | .fwActivateKeep cid | .fwActivateFull cid | .fwQuery cid
  | .loopbackSet cid | .loopbackEnd cid _ _ | .traceConfig cid | .bobbinRead cid | .counterRead cid | .counterArm cid
  | .counterDisarm cid | .marginScan cid | .selftestRun cid | .selftestEnd cid _ _ | .setupAppliedReport cid _ => cidOk cid
  | .marginScanComplete cid tx rx eyes => cidOk cid ++ lengthOk tx 8 ++ lengthOk rx 8 ++ lengthOk eyes 128
  | .start env _ _ => need (env.channelsFailed.all fun c => decide (c < 128)) .channel ++ need (env.halvesFaulted.all fun h => decide (h < 2)) .half
  | .linkUp speed width => need (decide (1 ≤ speed ∧ speed ≤ 5) && [1, 2, 4, 8].contains width) .link
  | .livenessMark k => need (decide (k < 5)) .processor
  | .halyardBFrameRx _ chars => need (decide (chars.length ≤ 16)) .chars
  | .recoveryWindowClose half | .halfMapRebuilt half | .halfFault half | .eccRepairComplete half _ _ => halfOk half
  | .sensorSample readings => lengthOk readings 52
  | .throttleRelease core | .droopStretch core => coreOk core
  | .powerWindow _ _ coreW blockW _ => lengthOk coreW 8 ++ lengthOk blockW 6
  | .marginWindowEnd supplyMv slackPs => lengthOk supplyMv 8 ++ lengthOk slackPs 8
  | .opticalSample tx rx => lengthOk tx 8 ++ lengthOk rx 8
  | .lpddrRefresh channel | .channelPhyFault channel | .lpddrScrub channel _ _ | .retraining channel _ _ => channelOk channel
  | .sramScrub unit _ _ _ => unitOk unit
  | .dieLinkFault l => dieLinkOk l
  | .haloRowWrite path _ _ _ _ _ _ | .haloRowRead path _ _ _ => patternOk (path / 16)
  | .smbusSensors first count => byteOk first ++ byteOk count
  | .smbusBobbin unit start count => byteOk unit ++ byteOk start ++ byteOk count
  | .jtagUnlock root key sig => need (decide (root < 256 ∧ key < 2 ^ 15616 ∧ sig < 2 ^ 26472)) .jtag
  | .jtagFuseProgram field _ => need (decide (field < 4096)) .fuse
  | .memoryErrorOnAccess t e => (match t with
      | some x => targetOk x
      | none => []) ++ memErrorOk e

/-- A command the block can be given. -/
def wellFormed (i : Instr) : Bool := (faults i).isEmpty

end Sys2Proof
end

