-- ==== Sys2Proof/Tests/Slice0.lean ====
section
/-! SUPPORT. Tests: one ill-formed command for each check, the spec's worked examples, and for each statement a state and operands
that meet its hypotheses, clause by clause. -/
namespace Sys2Proof.Tests
open Sys2Proof Sys2Proof.Machine
set_option Elab.async false

/-! ### States the tests start from -/

/-- A packet: OPCODE, and fields at their byte offsets. -/
def pk (op : Nat) (l : List (Nat × Nat)) : Packet := BitVec.ofNat 512 (l.foldl (fun a e => a + e.2 * 2 ^ (8 * e.1)) op)

/-- A command that may begin, of a ring and tenant. -/
def cmdOn (ring : Nat) (tenant : Option Nat) (op : Nat) (l : List (Nat × Nat)) : Cmd :=
  { ring := ring, order := 0, pkt := pk op l, doorbell := 0, tenant := tenant, queue := ring, phase := .ready, since := 0,
    keyGen := 1, partner := false, given := none, aux := [] }

/-- Commands of ring 0, and of ring 1 of tenant 0. -/
def c0 (op : Nat) (l : List (Nat × Nat)) : Cmd := cmdOn 0 none op l
def c1 (op : Nat) (l : List (Nat × Nat)) : Cmd := cmdOn 1 (some 0) op l

/-- A command in progress. -/
def begunAs (aux : List Nat) (c : Cmd) : Cmd := { c with phase := .begun, aux := aux }

/-- Command 1 is in flight. -/
def on (c : Cmd) (s : State) : State := { s with cmds := [(1, c)] }

def ringAs (tenant : Option Nat) (n : Nat) : Ring :=
  { st := .active, base := 0x10000, sizeLog2 := 8, cls := n, tenant := tenant, account := n, queue := n, fast := false,
    headAddr := none, fetched := 0, visible := 0, pending := false, stamps := [], destroyers := [], partnerUpTo := 0 }

def queueAs : RQueue :=
  { base := 0x40000, sizeLog2 := 8, msix := false, vector := 0, tailAddr := 0x50000, tail := 0, unread := [], reserved := 0,
    lastTick := none }

def genOne : KeyGen := { num := 1, pageKey := 0, bufKey := none, outKey := none, nonce := 0 }

def tenantAs : Tenant :=
  { st := .active, epoch := 0, cur := some genOne, prev := none, next := none, keyless := false, remover := none }

def acctAs : Account :=
  { tenant := 0, fig := { refill := 1000, cap := 10000, reserve := 0, windowMs := 10 }, pending := none, balance := 9500,
    window := 0, lastAdmit := none }

/-- 10,000 s in ticks. -/
def late : Tick := 1000000000000

/-- A module in service, with a tenant, its ring, queue and account. -/
def live : State :=
  { State.reset with
    clk := { Clocks.reset with localTime := late },
    link := { Link.reset with perst := false, up := true, busMaster := true, speed := 4, width := 8 },
    bar := { Bar.reset with enable := true, sizeLog2 := 8 },
    dev := { Dev.reset with state := .ready, startDue := false, serviceSince := some 0 },
    rings := [(0, ringAs none 0), (1, ringAs (some 0) 1)], queues := [(0, queueAs), (1, queueAs)], accts := [(1, acctAs)],
    tenants := [(0, tenantAs)], fuses := { Fuses.reset with shadow := Fuses.reset.cellA }, sent := { Sentinel.reset with alive := true } }

/-- The same module early in its life. -/
def early : State := { live with clk := Clocks.reset }

/-- A plan with one attention layer on core 0, and a pattern of it in the west half: 3 hems, 1,000 ticks for a full pass. -/
def planAs : Plan :=
  { cores := [0], attn := [{ headDim := 64, kvBytes := 512, heads := 2, kv := .fp16, blocked := false, pv := .fp16, half := 0, source := .causal,
                             image := (0, 0), offset := 0 }], vocab := 0,
    conv := [], striped := false, banded := false, reduced := [], rebalance := false, heights := [], picture := none }

def patAs : Pattern :=
  { gen := 1, tenant := 0, blocks := 2, digest := 0,
    summary := BitVec.ofNat 1024 ([(2, 0), (1, 0), (1, 1), (4, 3), (8, 65536), (4, 65536), (4, 0), (4, 1000), (4, 100), (4, 200), (4, 300), (4, 400)].foldr
      (fun e a => e.2 + a * 2 ^ (8 * e.1)) 0),
    plan := planAs, damaged := none, staged := false, res := .none, sram := false, leaving := false, want := none,
    staging := none, loading := none, evicting := none, migrated := [] }

/-- Pattern 0, in handle 0x10000: stored, staged, rotating in SRAM. -/
def stored : State := { live with pats := [(0, patAs)] }
def staged : State := { live with pats := [(0, { patAs with staged := true })] }
def rotating : State := { live with pats := [(0, { patAs with staged := true, res := .rotating, sram := true })] }
def pinned : State := { live with pats := [(0, { patAs with staged := true, res := .pinned, sram := true })] }

/-- A request of tenant 0 against pattern 0, under BEST_HEM, with its deadline far off. -/
def reqAs (st : ReqState) : Req :=
  { gen := 1, st := st, opcode := 0x0201, cls := 1, tenant := 0, mirror := false, account := 1, ring := 1, order := 1,
    ordered := false, queue := 1, tag := 7, seqNo := 3, fence := none, pattern := 0, patHandle := 0x10000, applique := none,
    deadline := some (late + 100000), doorbell := late, guard := 2000, hemPolicy := 1, minHem := 0, deepest := 1, charged := 100,
    used := 10, counted := 0, number := 0, seqIdx := none, baseLen := 0, inUnits := 1, genTokens := 0, cands := 0, verify := none, adapt := none,
    keyGen := 1, bufFlags := 0, inCrc := 0, inOk := true, outAddr := 0, ioAddr := 0, picture := none, cores := [0],
    result := none, final := none, stopped := false, ran := true, partner := false, fast := false, table := false, empties := 0, lent := false }

def entryAs : SEntry :=
  { gen := 1, seqHandle := 0, queue := 1, tag := 7, seqNo := 3, fallback := some (late + 98000), cutoff := some (late + 97900),
    deepest := 1, final := false, mirror := false, armed := true, lost := false }

/-- One request in slot 5, watched. -/
def busy (r : Req) : State :=
  { pinned with
    reqs := [(5, r)], reqGens := [(5, 1)], nextReq := 1, sent := { Sentinel.reset with alive := true, entries := [(5, entryAs)] } }

/-- A sequence of pattern 0 in a state. -/
def seqAs (st : SeqState) (prov : Option Provisional) : Sequence :=
  { gen := 1, pattern := 0, tenant := 0, applique := none, st := st, committed := 10, prov := prov, mirrored := false,
    closer := none, freed := 0 }

/-- A module of a bound pair. -/
def paired (m : PairMode) (r : Role) : State :=
  { live with pair := { Pair.reset with mode := m, role := r, pairId := 9, linkUp := true } }

/-- A module under reset, its start due. -/
def booting : State := { State.reset with link := { Link.reset with perst := false } }

/-- Core 0 changed. -/
def core0 (f : Core → Core) (s : State) : State := modCore 0 f s

/-- The state a command leaves. -/
def nx (i : Instr) (s : State) : State :=
  match exec i s with
  | .next t => t
  | _ => s
/-! ### States for single statements -/

def unread3 : State := { live with queues := [(0, queueAs), (1, { queueAs with tail := 3, unread := [false, false, false] })] }
def upBooting : State := { live with dev := Dev.reset }
def adminOff : State := { live with bar := Bar.reset }
def ring1pend : Ring := { ringAs (some 0) 1 with visible := 2, pending := true, stamps := [(2, 5)] }
def doorbelled : State := { live with rings := [(0, ringAs none 0), (1, ring1pend)] }
def reading : State := { doorbelled with reads := [{ ring := 1, order := 0, doorbell := 5, isReq := false }] }

def candAs : Cand :=
  { target := .cmd 1, gen := 0, queue := 1, tag := 0, seqNo := 0, status := .done, flags := 0, detail := 0, value := 0, tick := late,
    sweep := false, act := .none }
def reqCandAs (st : Status) : Cand := { candAs with target := .req 5, gen := 1, status := st }
def eventAs : Event := { code := 3, object := 0, status := .done, detail := 0, value := 0 }
def waiting : State := on { c1 1 [] with phase := .replied } { live with arb := { live.arb with cands := [candAs] } }
def eventful : State := { live with arb := { live.arb with events := [eventAs] } }
/-- The backlog of events with some discarded, and with more than there is room for. -/
def lostBacked : State := { live with arb := { live.arb with backlog := [eventAs], lost := 4 } }
def fullBacked : State :=
  { live with
    arb := { live.arb with backlog := List.replicate 66 eventAs },
    health := { live.health with bits := 0x800 } }
def backed : State := { live with arb := { live.arb with backlog := [eventAs] } }

/-- A pattern whose layer takes a REQUEST pricking at 0x40 of the input, and a BULK request on a module of a pair. -/
def layerPrick : AttnLayer :=
  { headDim := 64, kvBytes := 512, heads := 2, kv := .fp16, blocked := false, pv := .fp16, half := 0, source := .request,
    image := (0, 0), offset := 0x40 }
def patPrick : Pattern := { patAs with staged := true, res := .pinned, sram := true, plan := { planAs with attn := [layerPrick] } }
def pricked (slot : Nat) : State := { busy (reqAs .queued) with pats := [(0, patPrick)], reqs := [(slot, reqAs .queued)] }
def bulk (st : ReqState) : Req := { reqAs st with cls := 3, mirror := true }
def lending (r : Role) (q : Req) : State := { busy q with pair := (paired .activeStandby r).pair }

def verifyAs : Verify := { greedy := false, tokens := [4], parents := [0xFF], path := [], bonus := 0xFFFFFFFF, rows := [] }
def workAs : WorkResult :=
  { outBytes := 4, data := 0x04030201, loss := 0, positions := 0, ops := [], grads := [], empties := 0 }
def twoWait : State :=
  { busy (reqAs .running) with arb := { live.arb with cands := [reqCandAs .cancelled, reqCandAs .done] } }
def lateEntry : SEntry := { entryAs with fallback := some late, cutoff := some (late - 100) }
def overdue : State :=
  { busy (reqAs .running) with sent := { Sentinel.reset with alive := true, entries := [(5, lateEntry)] } }
def sweeping : State := { live with sent := { live.sent with sweep := some .cutHub } }
def crowded (t : Tick) : State :=
  let big : Pattern := { patAs with
    staged := true, res := .rotating, summary := patAs.summary ||| BitVec.ofNat 1024 (0x1F400000 * 2 ^ 128) }
  { live with clk := { live.clk with localTime := t }, pats := [(0, { big with sram := true }), (1, big)], sliceAt := some 0 }
def leaving : State := { live with pats := [(0, { patAs with staged := true, res := .rotating, sram := true, leaving := true })] }

/-- REQ_SUBMIT, REQ_APPEND, REQ_VERIFY and ADAPT_STEP against pattern 0, and blocks for them. -/
def submit1 : Cmd := { c1 0x0201 [(20, 0x10000), (24, 1000000), (28, 0xFFFF), (36, 100)] with doorbell := late }
def append1 : Cmd := { c1 0x0202 [(20, 0x10000), (24, 1000000), (28, 0xFFFF), (32, 0x40000), (36, 100)] with doorbell := late }
def verify1 : Cmd :=
  { c1 0x0203 [(20, 0x10000), (24, 1000000), (28, 0xFFFF), (32, 0x40000), (36, 100), (40, 1), (44, 1)] with doorbell := late }
def adapt1 : Cmd :=
  { c1 0x0208 [(20, 0x10000), (24, 1000000), (28, 0x400), (32, 1), (36, 100), (40, 1), (56, 0x3F800000)] with doorbell := late }
def blocksAs : Blocks := { io := BitVec.ofNat 768 (4096 * 2 ^ 192), tree := 0 }
def treeAs : Blocks := { io := BitVec.ofNat 768 (4096 * 2 ^ 192), tree := BitVec.ofNat 2816 (4 + 0xFF * 2 ^ 2048) }

def provAs : Provisional := { base := 10, parents := [0xFF], slot := 5, gen := 1 }
def opened (st : SeqState) : State := { pinned with seqs := [(0, seqAs st (some provAs))] }
def closingSeq : State := { pinned with seqs := [(0, { seqAs .closing none with closer := some 1 })] }

/-- Pattern 0 with a vocabulary, and with a training head and an appliqué. -/
def patVerify : Pattern :=
  { patAs with
    staged := true, res := .pinned, sram := true, plan := { planAs with vocab := 16 },
    summary := patAs.summary ||| BitVec.ofNat 1024 (64 * 2 ^ (8 * 0x3C)) }
def verifiableSeq : State := { live with pats := [(0, patVerify)], seqs := [(0, seqAs .open none)] }
def patTrain : Pattern :=
  { patAs with staged := true, res := .pinned, sram := true, summary := patAs.summary ||| BitVec.ofNat 1024 (9 * 2 ^ (8 * 0x44)) }
def appAs : Applique :=
  { gen := 1, pattern := 0, tenant := 0, bytes := 65536, prevBytes := 0, nextBytes := 0, fmt := .fp16, current := 1, weights := [0],
    previous := none, place := none, next := none, loading := false, retiring := false, tag := 1, grads := [0], momenta := [0] }
def trainable : State := { live with pats := [(0, patTrain)], apps := [(0, appAs)] }
def commit1 : Cmd := c1 0x0204 [(20, 0x40000)]

def ringNew : Cmd := c0 6 [(20, 2), (32, 8), (33, 1), (36, 1), (38, 1)]
def dying1 : State := { live with rings := [(0, ringAs none 0), (1, { ringAs (some 0) 1 with st := .destroying, destroyers := [1] })] }
def acct (n flags : Nat) : Cmd := c0 8 [(20, n), (23, flags), (24, 10), (28, 100), (36, 10)]
def noRings : State := { live with rings := [(0, ringAs none 0)] }
def heldEast : State := { live with halves := [Half.reset, { Half.reset with heldBy := some 1 }] }
def stoppingBy (b : StopBy) : State := { live with dev := { live.dev with stopping := some b } }
def fenceAs : Fence := { gen := 2, tenant := 0, value := 0xFFFFFFFFFFFFFFFE }
def fenced : State := { live with fences := [(0, fenceAs)], fenceGens := [(0, 2)] }
def signal (mode : Nat) : Cmd := c1 0x0403 [(20, 0x02000000), (24, mode), (32, 9)]
def wait1 (target : Nat) : Cmd := c1 0x0404 [(20, 0x02000000), (24, target), (32, 100)]

def store1 : Cmd := c1 0x0104 [(32, 131072)]
def imageAs : ImageRead :=
  { header := BitVec.ofNat 1536 (0x54504B53 + 1 * 2 ^ 32 + 2 * 2 ^ 64 + 7 * 2 ^ 128),
    blocks := [{ block := 0, imageId := 7, crc := 1, computed := 1 }, { block := 1, imageId := 7, crc := 2, computed := 2 }],
    digest := 7 }
def patCmd (n : Nat) : Cmd := c1 (0x0100 + n) [(20, 0x10000)]
def pinCmd : Cmd := c1 0x0102 [(20, 0x10000), (24, 1)]
def evict (target : Nat) : Cmd := c1 0x0103 [(20, 0x10000), (24, target)]
def stagingNow : State := { live with pats := [(0, { patAs with staging := some 1 })] }
def pinningNow : State := { live with pats := [(0, { patAs with staged := true, loading := some 1 })] }
def load (n handle : Nat) : Cmd := c1 (0x0100 + n) [(20, handle), (32, 65536), (36, 9)]
def loadingFirst : State := { staged with apps := [(0, newApplique 1 0 0 65536 1)] }

def streamNew : Cmd := c1 0x0301 [(22, 40), (24, 64), (26, 64), (28, 1000), (32, 8), (33, 1), (34, 3)]
def streamAs : Stream :=
  { gen := 1, ring := 1, tenant := 0, codec := 0, profile := 0, level := 0, half := 0, width := 64, height := 64, bits := 8,
    maxRef := 1, allowDrop := false, engine := 0, rate := 4096, sets := [], bufs := List.replicate 3 emptyBuf, slots := List.replicate 8 none,
    nextPic := 0, named := none, picked := none, dropsReply := 0, dropsReport := 0, feeds := [], closing := none }
def withStream : State := { live with streams := [(0, streamAs)], streamGens := [(0, 1)] }
def feed (bytes flags : Nat) : Cmd := c1 0x0302 [(20, 0x10000), (32, bytes), (40, flags)]
def closingStream : State := { withStream with streams := [(0, { streamAs with closing := some 1 })] }
def fedStream : State := on (begunAs [] (feed 100 0)) { withStream with streams := [(0, { streamAs with feeds := [1] })] }
def setAs : ParamSet :=
  { profile := 0, width := 64, height := 64, bits := 8, refs := 1, unit := 16, highTier := false, interlaced := false, mono := false,
    fullRange := false, colour := 0, window := 0 }
def headAs : PictureHead :=
  { sets := [{ id := 3, layer := 0, elems := [], body := setAs }], set := 3, order := 0, ptype := 0, output := true, grain := false,
    largeScale := false, refs := [], slots := [], marks := [], showExisting := none }
def decAs : Decoding :=
  { stream := 0, cid := 1, buffer := 0, picture := 0, start := late, generated := 0, showing := false, known := true,
    head := headAs, set := setAs }
def decodingNow : State := { fedStream with engines := [(0, decAs)] }
def doneAs (last : Bool) : PictureDone :=
  { slices := [{ layer := 0, units := [] }], marks := [], shortRef := true, longRef := false, refresh := 0, last := last }

def encNew : Cmd := c1 0x0304 [(24, 128), (26, 128), (28, 1000), (32, 8), (35, 51), (48, 100), (52, 1)]
def encAs : Encoder :=
  { gen := 1, ring := 1, tenant := 0, codec := 0, profile := 0, level := 0, half := 0, width := 128, height := 128, bits := 8, rc := 0,
    qpMin := 0, qpMax := 51, qpI := 0, qpP := 0, idrEvery := 0, target := 0, maxKbps := 0, vbvMs := 100, slices := 1, engine := 0,
    rate := 16384, frameNo := 0, sinceIdr := 0, frames := [], closing := none }
def withEnc : State := { live with encs := [(0, encAs)], encGens := [(0, 1)] }
def frame1 : Cmd := c1 0x0305 [(20, 0x10000), (36, 128), (48, 4096)]
def frameOne : Frame := { cid := 1, samples := [], rois := [] }
def framing : State := { withEnc with encs := [(0, { encAs with frames := [frameOne] })] }

def auAs (n : Nat) : AccessUnit := { delimiter := (2, 0x0A09), vps := (4, 1), sps := (4, 2), pps := (4, 3), slices := [(n, 5)] }
def closeBoth : State :=
  { withEnc with
    cmds := [(1, begunAs [] frame1), (2, begunAs [] frame1), (5, c1 0x0306 [(20, 0x10000), (24, 1)])],
    encs := [(0, { encAs with frames := [frameOne, { frameOne with cid := 2 }] })] }
def closeFed : State := { fedStream with cmds := [(1, begunAs [] (feed 100 0)), (5, c1 0x0303 [(20, 0x10000), (24, 1)])] }

def bare : State := { live with tenants := [], rings := [(0, ringAs none 0)], accts := [] }
def removing : State :=
  on (begunAs [0, 0] (c0 0x0502 [])) { live with tenants := [(0, { tenantAs with st := .removing, remover := some 1 })] }
def pageAs : Page := { tenant := 0, epoch := 0, parity := 1, restitching := true, use := .pattern 0 }
def restitching : State :=
  { live with
    tenants := [(0, { tenantAs with cur := some { genOne with num := 2 }, prev := some genOne })], pages := [(3, pageAs)] }


/-! ### Pair, firmware, tests -/

def bind1 : Cmd := c0 0x0601 [(20, 1), (24, 9), (28, 5)]
def linked : State := { live with pair := { Pair.reset with linkUp := true } }
def answer (role : Nat) : PartnerQuote :=
  { serial := 5, pairId := 9, role := role, pairPolicy := 0, verified := true, signer := BitVec.ofNat 256 (ownSigner live),
    fwMajor := runningMajor live, isoPolicy := isoPolicy live, maxParts := maxPartitions live, secretA := 1, secretB := 2 }
def resilvering (phase : Nat) : State :=
  let s := paired .resilvering .active
  on (begunAs [100] (c0 0x0603 [])) { s with pair := { s.pair with phase := phase, resilver := some 1 } }
def sparing (phase : Nat) : State := let s := paired .resilvering .spare; { s with pair := { s.pair with phase := phase } }
def phase4 : State := let s := paired .activeStandby .active; { s with pair := { s.pair with phase := 4 } }
def mirrored : State := paired .activeStandby .active
def mirroredBusy : State := { busy (reqAs .running) with pair := mirrored.pair }
def recordAs (n : Nat) (b : RecBody) : Record :=
  { key := 1, commitSeq := n, burgee := 0, slot := 0, crc := 7, tagOk := true, crcOk := true, body := b }
def switched1 : State :=
  on (begunAs [] (c0 0x0604 []))
    { mirrored with pair := { mirrored.pair with switching := some 1, handover := true, partnerRole := .active } }

def write1 (crc : Nat) : Cmd := c0 0x0701 [(20, 2), (36, crc)]
def fwSlotAs : FwSlot := { blocks := [(0, 0, 0)], verified := false, busy := some 1 }
def withSlotB (x : FwSlot) : State := { live with nor := { live.nor with slotB := x } }
def failedB : State :=
  { live with
    nor := { live.nor with
      act := some { seqNo := 4, slot := 0, trial := false, aFailed := false, bFailed := true },
      slotB := { fwSlotAs with blocks := [] } } }
def actB (mode : Nat) : Cmd := c0 0x0703 [(20, 2), (21, mode)]
def readyB : State := withSlotB { blocks := [], verified := true, busy := none }
def updatingNow (t0 : Tick) : State :=
  on (begunAs [1] (actB 0)) { readyB with dev := { readyB.dev with state := .updating, update := some (1, t0) } }
def trialAs : ActRecord := { seqNo := 4, slot := 0, trial := true, aFailed := false, bFailed := false }
def onTrial (t0 : Tick) : State :=
  { live with nor := { live.nor with act := some trialAs }, dev := { live.dev with serviceSince := some t0 } }

def loop1 : Cmd := c0 0x0801 [(20, 3), (21, 1), (28, 10)]
def loopAs (t : Tick) : Loop := { cid := 1, iface := 3, depth := 1, target := 0, until_ := t }
def looping (t : Tick) : State := on (begunAs [] loop1) { live with svc := { live.svc with loops := [loopAs t] } }
def parted : State := { live with parts := some [] }
def halted7 (h : HaltCause) : State := modCore 7 (fun k => { k with halted := some h }) live
def test7 : Cmd := c0 0x0806 [(20, 0), (21, 7)]

/-! ### Starts, link, halyards -/

def dark : State := { State.reset with clk := { Clocks.reset with sclk := false, syspll := false }, dev := { Dev.reset with on := false } }
def envAs (overrun : Option Nat) : StartEnv :=
  { channelsFailed := [], halvesFaulted := [], bridgeDown := false, arrayFail := false, attnFail := false, orFault := false, overrun := overrun }
def startedAs (r : StartRun) : State := { booting with dev := { booting.dev with start := some r, startDue := false } }
def badFuses : State :=
  let f : BitVec 4096 := BitVec.ofNat 4096 (2 ^ 1226)
  { booting with fuses := { cellA := f, cellB := f, cellC := f, shadow := 0 } }
def runOk : StartRun := { t1 := 0, fail := none, overrun := none }
def failing (x : Reason) (n : Nat) : State :=
  let s := startedAs { runOk with fail := some x }
  { s with nor := { s.nor with startFails := n } }
def overrunning (t : Tick) : State :=
  let s := startedAs { runOk with overrun := some 5 }
  { s with clk := { s.clk with localTime := t } }
def retrying (t : Tick) : State := { live with dev := { live.dev with retryAt := some t } }
def servingSince (t : Tick) : State := { live with dev := { live.dev with serviceSince := some t } }

def quiet : State := { live with clk := { Clocks.reset with localTime := late, sclk := false, syspll := false } }
def inPerst : State := { live with link := { live.link with perst := true, up := false } }
def linkDown : State := { live with link := { live.link with up := false } }
def inD (d : DState) : State := { live with link := { live.link with dstate := d } }
def latched (b : Bool) : State := { live with link := { live.link with latchOpen := b } }
def inState (d : DevState) : State := { live with dev := { live.dev with state := d } }

def marked (l : List Nat) : State := { live with pair := { live.pair with marks := l, lastAdvance := late } }
def frameBytes32 : Nat := 1 + 0x09 * 2 ^ 8 + 6 * 2 ^ 16 + 2 * 2 ^ 24 + 9 * 2 ^ 32 + 77 * 2 ^ 128
def frameA1 : BitVec 256 := BitVec.ofNat 256 (frameBytes32 + crc32c 28 frameBytes32 * 2 ^ 224)
def frameBytes16 : Nat := 0x08 + 9 * 2 ^ 16 + 77 * 2 ^ 32
def frameB1 : BitVec 128 := BitVec.ofNat 128 (frameBytes16 + crc32c 12 frameBytes16 * 2 ^ 96)
def charsOf (f : BitVec 128) : List (Bool × Byte) := (bytesOf 16 f.toNat).map fun b => (false, BitVec.ofNat 8 b)
def orphan (r : Role) : State :=
  let s := paired .activeStandby r
  { s with
    pair := { s.pair with partnerDying := true },
    sent := { s.sent with entries := [(5, { entryAs with mirror := true, armed := false })] } }
def copyHeld (n : Nat) : State :=
  let s := paired .activeStandby .standby
  { s with pair := { s.pair with held := [(objKey 7 1, (n, 7))] } }
def unackedAs (t : Tick) : Unacked := { commitSeq := 4, tick := t, onAck := none, fence := none, cid := none }
def unacknowledged (t : Tick) : State := { mirrored with pair := { mirrored.pair with unacked := [unackedAs t] } }
def awaitingSetup : State :=
  on { c1 1 [] with phase := .begun } { mirrored with pair := { mirrored.pair with awaiting := [(1, candAs)] } }
def heardNow : State :=
  let s := paired .activeStandby .standby
  { s with pair := { s.pair with heardB := [(late - 1, 5), (late - 401, 4)] } }
def recovering : State := { live with halves := [{ Half.reset with window := true }, Half.reset] }

/-! ### Power, heat, memory, errors, ports -/

def feeds (a b : Bool) (hold : Option Tick) : State :=
  { live with power := { live.power with feedA := { present := a, mv := 54000 }, feedB := { present := b, mv := 54000 }, holdUp := hold } }
def stepping : State := { live with power := { live.power with stepping := true, coreW := [3, 9, 2, 1, 1, 1, 1, 1] } }
def steppedAt (t : Tick) : State := { stepping with power := { stepping.power with steppedAt := some t } }
def under (t : Tick) : State :=
  let s := modCore 2 (fun k => { k with powerDiv := 6 }) live
  { s with power := { s.power with underSince := some t } }
def warm (v : Int) : List (Option Int) := (List.range 52).map fun i => some (if i = 0 then v else 1600)
def cooling (t : Tick) (h : Option HaltCause) (c : Nat) : State :=
  modCore 3 (fun k => { k with below := some t, halted := h, ceiling := c }) live
def flowing : State := { live with thermal := { live.thermal with flows := [(late - 1000, 3000)] } }
def draining (t : Tick) : State := { live with thermal := { live.thermal with drain := some t } }
def drainingBusy : State := { busy (reqAs .running) with thermal := (draining late).thermal }
def holdAs (t0 : Tick) (ok : Option Tick) : Hold := { t0 := t0, bound := false, okSince := ok }
def holding (t0 : Tick) (ok : Option Tick) : State :=
  { live with thermal := { live.thermal with hold := some (holdAs t0 ok) } }
def chan0 (c : Channel → Channel) : State := modChannel 0 c live
def noChannel : State := { live with mem := { live.mem with inService := 0 } }
def pagedSeq : State :=
  { live with
    seqs := [(0, seqAs .open none)], pats := [(0, patAs)],
    pages := [(0, { tenant := 0, epoch := 0, parity := 1, restitching := false, use := .kv 0 0 0 0 0 })] }
def badPattern : State :=
  { stored with
    mem := { live.mem with badLines := [(0, 7)] }, pages := [(0, { tenant := 0, epoch := 0, parity := 1, restitching := false, use := .pattern 0 })] }
def refreshed : State := chan0 fun c => { c with refreshAt := late }
def failedOnce : State := chan0 fun c => { c with refreshAt := late, retrainFails := 1 }
def fewChannels : State := { live with mem := { live.mem with inService := BitVec.ofNat 128 (2 ^ 56 - 1) } }
def rebuilding : State := { live with halves := [{ Half.reset with rebuilding := true }, Half.reset] }
def windowAt (t : Tick) : State := { live with mem := { live.mem with eccWindow := t } }
def struck : State := on (begunAs [] (c1 0x0404 [])) live

def convAs : ConvLayer :=
  { v := { extent := 16, k := 3, s := 1, d := 1, before := 1, after := 1 }, h := { extent := 64, k := 3, s := 1, d := 1, before := 1, after := 1 },
    cin := 32, cout := 32, groups := 1, pad := .zero, act := .e4m3, actBlocked := false, wgt := .e4m3, wgtBlocked := false, mode := .bits8,
    input := .planar, output := .cores, picot := none, bandRows := [8, 8], slots := [2], cutSlots := 0 }
def patConv : Pattern := { patAs with staged := true, res := .pinned, sram := true, plan := { planAs with cores := [0, 1], conv := [convAs], banded := true, heights := [8, 8] } }
def rowAs : HaloRow := { frame := 0, row := 7, layer := 0, bytes := 64, down := true, data := 5 }
def stageAs : Stage :=
  { frame := 0, heights := [8, 8], reduced := none, began := some late, waited := [], waits := [], flushed := false }
def pathAs (q : List HaloRow) (credits : Nat) : HaloPath := { slots := 2, full := q, credits := credits, last := none }
def visionOn (q : List HaloRow) (credits : Nat) : State :=
  { busy (reqAs .running) with
    pats := [(0, patConv)], stages := [(0, stageAs)], halo := [(0, pathAs q credits)] }
def visionFlushed : State := { visionOn [] 2 with stages := [(0, { stageAs with flushed := true })] }

def challenged : State := { live with sec := { live.sec with challenge := some 5 } }
def portOpen : State := { live with sec := { live.sec with jtagOpen := true } }
def openFused : State := { live with fuses := { live.fuses with shadow := 0 } }
def alerting : State := { live with health := { live.health with alert := true } }
def traceAs (t : Tick) : Trace :=
  { on := true, flags := 2, mask := 0xFFFFFFFF, period := 100000, sent := 0, dropped := 0, nextSync := t, nextSample := t }
def tracing (t : Tick) : State := { live with svc := { live.svc with trace := traceAs t, prof := some [] } }

/-! ### Ill-formed commands, one for each check, are refused by name -/

theorem test_check_cid : faults (.nop 0) = [.cid] := by decide +kernel
theorem test_check_slot : faults (.fallbackTick 65536) = [.slot] := by decide +kernel
theorem test_check_ring : faults (.fetchReadFailed 1048576) = [.ring] := by decide +kernel
theorem test_check_queue : faults (.replyAccept 2048) = [.queue] := by decide +kernel
theorem test_check_visit : faults (.ringFetchVisit [(1, List.replicate 9 false)]) = [.visit] := by decide +kernel
theorem test_check_hem : faults (.hemComplete 0 8 []) = [.hem] := by decide +kernel
theorem test_check_rows : faults (.verifyPassComplete 0 (List.replicate 66 []) []) = [.rows] := by decide +kernel
theorem test_check_account : faults (.budgetRefill 4096) = [.account] := by decide +kernel
theorem test_check_pattern : faults (.patternSramRelease 4096) = [.pattern] := by decide +kernel
theorem test_check_seqIndex : faults (.seqCloseComplete 262144) = [.seqIndex] := by decide +kernel
theorem test_check_engine : faults (.decodeWatchdog 8 0 (doneAs true)) = [.engine] := by decide +kernel
theorem test_check_stream : faults (.streamCloseComplete 64) = [.stream] := by decide +kernel
theorem test_check_half : faults (.halfFault 2) = [.half] := by decide +kernel
theorem test_check_page : faults (.restitchPage 1 2097152) = [.page] := by decide +kernel
theorem test_check_core : faults (.droopStretch 8) = [.core] := by decide +kernel
theorem test_check_channel : faults (.lpddrRefresh 128) = [.channel] := by decide +kernel
theorem test_check_block : faults (.patternStageComplete 1 (.ldpcFail 16777216)) = [.block] := by decide +kernel
theorem test_check_unit : faults (.sramScrub 30 0 .clean none) = [.unit] := by decide +kernel
theorem test_check_processor : faults (.livenessMark 5) = [.processor] := by decide +kernel
theorem test_check_bounds :
    faults (.pictureDecodeStart 0 { headAs with sets := [{ id := 3, layer := 0, elems := [(0, 2, 1)], body := setAs }] }) = [.bounds] := by
  decide +kernel
theorem test_check_chars : faults (.halyardBFrameRx 2 (List.replicate 17 (false, 0))) = [.chars] := by decide +kernel
theorem test_check_samples : faults (.sensorSample []) = [.samples] := by decide +kernel
theorem test_check_link : faults (.linkUp 6 8) = [.link] := by decide +kernel
theorem test_check_byte : faults (.smbusSensors 0 256) = [.byte] := by decide +kernel
theorem test_check_jtag : faults (.jtagUnlock 256 0 0) = [.jtag] := by decide +kernel
theorem test_check_fuse : faults (.jtagFuseProgram 4096 1) = [.fuse] := by decide +kernel
theorem test_well_formed : wellFormed (.nop 1) = true ∧ wellFormed (.linkUp 5 8) = true := by decide +kernel

/-- No row of the opcode table gives bits, so no word spells a command, and nothing is put in front of the queue. -/
theorem test_no_word (n w : Nat) (s : State) : decodeTableWord n w = none ∧ s.withFetchWord n w = s := ⟨rfl, rfl⟩

/-! ### The spec's worked examples -/

/-- 00: the check value of CRC-32C, of the characters 1 to 9 (08 R264). -/
theorem test_crc32c : crc32c 9 0x393837363534333231 = 0xE3069283 := by decide +kernel

/-- 02: on the second module of 01 Table 1-4 CORE_MAP is 0x0088_88C8. -/
theorem test_core_map :
    coreMap { live with fuses := { live.fuses with shadow := BitVec.ofNat 4096 (2 ^ 1234 + 2 ^ 1240) } } = 0x008888C8 := by
  decide +kernel

/-- 02: DOORBELL 0x0000_0000_0200_0025 on ring 37 with its tail at 250 of 256 shows eight new commands, one doorbell time for all. -/
theorem test_doorbell :
    (tget (nx (.doorbellWrite true 0x0000000002000025)
      { live with rings := [(37, { ringAs (some 0) 1 with fetched := 250, visible := 250 })] }).rings 37).map
        (fun r => (r.visible - r.fetched, r.stamps.map (·.2))) = some (8, [late]) := by decide +kernel

/-- 04: the MXFP4 block of 1.0, -0.5 and 6.0 with scale 2^3, element codes and values. -/
theorem test_mxfp4_codes :
    ([0x2, 0x9, 0x7].map fun k => round32 (scaled .e2m1 0x82 k)) = [0x41000000, 0xC0800000, 0x42400000] := by decide +kernel

/-- 04: three products 2^31, -2^31 and 1.0 sum to 1.0 in every order. -/
theorem test_exact_dot :
    dotNarrow .e4m3 .e4m3 [(0x8F, 0x38), (0x8F, 0x38), (0x7F, 0x38)] [(0x8E, 0x38), (0x8E, 0xB8), (0x7F, 0x38)] = 0x3F800000 := by
  decide +kernel

/-- 04: with the last scales at 0x5F the result is exactly 2^-64. -/
theorem test_exact_dot_far :
    dotNarrow .e4m3 .e4m3 [(0x8F, 0x38), (0x8F, 0x38), (0x5F, 0x38)] [(0x8E, 0x38), (0x8E, 0xB8), (0x5F, 0x38)] = 0x1F800000 := by
  decide +kernel

/-- Logits of a vocabulary of 80 whose largest is at one token. -/
def peak (k : Nat) : List (BitVec 32) := (List.replicate 80 0).set k 0x3F800000

/-- 05 Table 5-10: the tree's GREEDY pass accepts candidates 0, 2 and 4, with BONUS 70. -/
theorem test_greedy_tree :
    acceptFrom [0xFF, 0xFF, 0, 0, 2, 1, 4, 3] [41, 77, 12, 90, 5, 33, 61, 18]
      [peak 41, peak 12, peak 0, peak 5, peak 0, peak 70, peak 0, peak 0, peak 0] 64 0xFF = ([0, 2, 4], 70) := by decide +kernel

/-- 06 Table 6-7: the West half moves to 152, 144, 104 and 144 rows, and then stays. -/
theorem test_rebalance :
    rebalance [8, 8, 8, 8] [136, 136, 136, 136] [136, 136, 136, 136] [100000, 100000, 150000, 100000] = some [152, 144, 104, 144] ∧
    rebalance [8, 8, 8, 8] [152, 144, 104, 144] [136, 136, 136, 136] [111765, 105882, 114706, 105882] = none := by decide +kernel

/-- 07: a 1920 × 1088 buffer at 8 bits has 50 units. -/
theorem test_buffer_units : bufferUnits 1920 1088 8 = 50 := by decide +kernel

/-- 07 R231: the watchdog of a 1920 × 1088 picture runs 773,692 ticks. -/
theorem test_watchdog :
    (nx (.decodeWatchdog 0 0 (doneAs true)) { decodingNow with
      engines := [(0, { decAs with set := { setAs with width := 1920, height := 1088 }, start := late - 773691 })] }).engines.length = 1 ∧
    (nx (.decodeWatchdog 0 0 (doneAs true)) { decodingNow with
      engines := [(0, { decAs with set := { setAs with width := 1920, height := 1088 }, start := late - 773692 })] }).engines = [] := by decide +kernel

/-- 08: page 0x1234 of West begins on channel 38 at granule 37,280, in bank 3 at row 310, at slots 5 to 12 of row 2,485. -/
theorem test_address_map :
    granuleAt 64 0x12340000 = (38, 37280) ∧ rowOf 37280 = 2485 ∧ bankOf 37280 = 3 ∧ bankRowOf 37280 = 310 ∧
    columnOf 37280 = 128 * 5 ∧ checkColumnOf 37280 = 1960 ∧ checkColumnOf 37287 + 8 = 2024 := by decide +kernel

/-- 12 R377: the power cap at 2.0, 1.6 and 1.2 L/min. -/
theorem test_power_cap : capFor 2000 = 1300000 ∧ capFor 1600 = 950000 ∧ capFor 1200 = 600000 := by decide +kernel


/-! ### A state and operands that meet each statement's hypotheses -/

theorem wit_StepRunsFrontCommand :
    ({ live with pending := [.nop 1] } : State).pending = .nop 1 :: [] := by decide +kernel

theorem wit_EmptyQueueTicks :
    live.pending = [] := by decide +kernel

theorem wit_DoorbellsTaken_1 :
    reachable live = true ∧
    live.dev.state ≠ .booting ∧
    tget live.rings (bitsOf (0x0000000002000001 : BitVec 64).toNat 19 0) = some (ringAs (some 0) 1) ∧
    (ringAs (some 0) 1).st = .active ∧
    bitsOf (0x0000000002000001 : BitVec 64).toNat 47 24 < 2 ^ (ringAs (some 0) 1).sizeLog2 := by decide +kernel
theorem wit_DoorbellsTaken_2 :
    tget unread3.queues (bitsOf (0x0000000002000001 : BitVec 64).toNat 10 0) = some { queueAs with tail := 3, unread := [false, false, false] } ∧
    reachable unread3 = true ∧
    bitsOf (0x0000000002000001 : BitVec 64).toNat 43 24 < 2 ^ queueAs.sizeLog2 := by decide +kernel
theorem wit_DoorbellsTaken_3 :
    (2 + 2 ^ 8 - headIndex { queueAs with tail := 3, unread := [false, false, false] }) % 2 ^ 8 ≤ 3 := by decide +kernel

theorem wit_DoorbellsIgnored_1 :
    reachable live = true ∧
    doorbellCause false 0 live = some 5 ∧
    doorbellCause true 0x25 live = some 1 ∧
    doorbellCause true 0x0000010000000001 live = some 2 := by decide +kernel
theorem wit_DoorbellsIgnored_2 :
    reachable upBooting = true ∧
    doorbellCause true 1 upBooting = some 4 := by decide +kernel
theorem wit_DoorbellsIgnored_3 :
    doorbellCause true 1 { live with rings := [(1, { ringAs (some 0) 1 with st := .error })] } = some 3 := by decide +kernel
theorem wit_DoorbellsIgnored_4 :
    replyDoorbellCause false 0 live = some 5 ∧
    replyDoorbellCause true 5 live = some 6 ∧
    replyDoorbellCause true 0x0000000005000001 live = some 7 := by decide +kernel

theorem wit_AdminRegisters_1 :
    reachable adminOff = true ∧
    adminOff.bar.enable = false ∧
    adminOff.dev.state ≠ .booting ∧
    (tget adminOff.queues 0).isSome = true := by decide +kernel
theorem wit_AdminRegisters_2 :
    reachable live = true ∧
    live.bar.enable = true := by decide +kernel
theorem wit_AdminRegisters_3 :
    (5 : BitVec 16).toNat % (if true then 8 else 4) ≠ 0 := by decide +kernel

theorem wit_LocalTimeRead_1 :
    reachable live = true ∧
    live.clk.shadow = none := by decide +kernel
theorem wit_LocalTimeRead_2 :
    reachable { live with clk := { live.clk with shadow := some 7 } } = true := by decide +kernel

theorem wit_Fetching_1 :
    fetching doorbelled = true ∧
    nextRing doorbelled [(1, List.replicate 9 false)] = some (1, ring1pend) := by decide +kernel
theorem wit_Fetching_2 :
    reading.reads.find? (fun x => x.ring = 1) = some { ring := 1, order := 0, doorbell := 5, isReq := false } ∧
    tget reading.rings 1 = some ring1pend ∧
    hubRuns reading = true ∧
    ending reading = false ∧
    releaseLate reading (pk 0x0001 []) = false ∧
    fetchFault reading 1 ring1pend (pk 0x0001 []) = none ∧
    openParams reading ring1pend (pk 0x0001 []) 0 = .inl (pk 0x0001 []) := by decide +kernel
theorem wit_Fetching_3 :
    ring1pend.st = .active := by decide +kernel
theorem wit_Fetching_4 :
    tget (on (c1 1 []) live).cmds 1 = some (c1 1 []) ∧
    (c1 1 []).phase ≠ .replied := by decide +kernel
theorem wit_Fetching_5 :
    hubRuns (on { c1 1 [] with phase := .ordered } live) = true ∧
    tget (on { c1 1 [] with phase := .ordered } live).cmds 1 = some { c1 1 [] with phase := .ordered } ∧
    earlierDone (on { c1 1 [] with phase := .ordered } live) 1 1 = true := by decide +kernel

theorem wit_FinalReplyCandidates_1 :
    tget (on (c1 1 []) live).cmds 1 = some (c1 1 []) ∧
    (c1 1 []).given = none ∧
    (mirroring (on (c1 1 []) live) && pairApplied (opcodeOf (c1 1 []).pkt)) = false := by decide +kernel
theorem wit_FinalReplyCandidates_2 :
    ({ c1 1 [] with given := some (.done, 0, 0) } : Cmd).given.isSome = true := by decide +kernel
theorem wit_FinalReplyCandidates_3 :
    (mirroring (on (c1 0x0401 []) (paired .activeStandby .active)) && pairApplied (opcodeOf (c1 0x0401 []).pkt)) = true := by decide +kernel

theorem wit_RepliesAccepted_1 :
    tget waiting.queues 1 = some queueAs ∧
    hubOn waiting = true ∧
    looped waiting 0 0 = false ∧
    queueAs.lastTick ≠ some waiting.clk.localTime ∧
    waiting.link.busMaster = true := by decide +kernel
theorem wit_RepliesAccepted_2 :
    waiting.arb.cands.find? (fun e => e.queue = 1) = some candAs ∧
    candAs = bestOf candAs (rivals candAs waiting.arb.cands) ∧
    candAs.target = .cmd 1 ∧
    candAs.queue = 1 ∧
    (tget waiting.cmds 1).isSome = true := by decide +kernel
theorem wit_RepliesAccepted_3 :
    tget eventful.queues 0 = some queueAs ∧
    eventful.arb.cands.find? (fun e => e.queue = 0) = none ∧
    eventful.arb.events = [eventAs] := by decide +kernel
theorem wit_RepliesAccepted_4 :
    tget backed.queues 0 = some queueAs ∧
    backed.arb.backlog = [eventAs] ∧
    backed.arb.backlog.length < 64 - eventsHeld backed ∧
    lostBacked.arb.backlog.length < 64 - eventsHeld lostBacked ∧
    lostBacked.arb.lost ≠ 0 ∧
    tget fullBacked.queues 0 = some queueAs ∧
    64 - eventsHeld fullBacked < fullBacked.arb.backlog.length ∧
    fullBacked.health.bits.getLsbD 11 = true := by decide +kernel

theorem wit_OneFinalReply :
    tget twoWait.queues 1 = some queueAs ∧
    hubOn twoWait = true ∧
    looped twoWait 0 0 = false ∧
    twoWait.arb.cands.find? (fun e => e.queue = 1) = some (reqCandAs .cancelled) ∧
    bestOf (reqCandAs .cancelled) (rivals (reqCandAs .cancelled) twoWait.arb.cands) = reqCandAs .done ∧
    twoWait.link.busMaster = true ∧
    (reqCandAs .done).queue = 1 := by decide +kernel

theorem wit_RequestsScheduled_1 :
    tget (busy (reqAs .admitted)).reqs 5 = some (reqAs .admitted) ∧
    tget (busy (reqAs .admitted)).pats 0 = some { patAs with staged := true, res := .pinned, sram := true } ∧
    canLeaveAdmitted (busy (reqAs .admitted)) 5 (reqAs .admitted) = true := by decide +kernel
theorem wit_RequestsScheduled_2 :
    dispatchable (busy (reqAs .queued)) (reqAs .queued) = true ∧
    coresPowered (busy (reqAs .queued)) = true ∧
    inFlight (busy (reqAs .queued)) < 1024 ∧
    (busy (reqAs .queued)).pair.role ≠ .standby ∧
    (∀ e ∈ reqPricks { patAs with staged := true, res := .pinned, sram := true } [], prickOk e.2.1 e.2.2 = true) ∧
    (coreSets (busy (reqAs .queued)) { patAs with staged := true, res := .pinned, sram := true }).find? (fun l => setFree (busy (reqAs .queued)) 1 l && !outranked (busy (reqAs .queued)) l (reqAs .queued)) = some [0] := by decide +kernel
theorem wit_RequestsScheduled_3 :
    tget (pricked 5).reqs 5 = some (reqAs .queued) ∧
    tget (pricked 5).pats 0 = some patPrick ∧
    dispatchable (pricked 5) (reqAs .queued) = true ∧
    (reqPricks patPrick [(5, 0)]).find? (fun e => !prickOk e.2.1 e.2.2) = some ((layerPrick, 0), 5, 0) ∧
    (reqAs .queued).final = none ∧
    leftToPartner (pricked 5) false = false := by decide +kernel
theorem wit_RequestsScheduled_4 :
    dispatchable (lending .active (bulk .queued)) (bulk .queued) = true ∧
    lendable (lending .active (bulk .queued)) (bulk .queued) = true ∧
    (lending .active (bulk .queued)).pair.role = .active ∧
    serving (lending .active (bulk .queued)) = true ∧
    hubRuns (lending .active (bulk .queued)) = true ∧
    inFlight (lending .active (bulk .queued)) < 1024 := by decide +kernel
theorem wit_RequestsScheduled_5 :
    (lending .standby (bulk .admitted)).pair.role = .standby ∧
    lendable (lending .standby (bulk .admitted)) (bulk .admitted) = true ∧
    coresPowered (lending .standby (bulk .admitted)) = true ∧
    halvesClear (lending .standby (bulk .admitted)) { patAs with staged := true, res := .pinned, sram := true } = true ∧
    pagesRoom (lending .standby (bulk .admitted)) 5 (bulk .admitted) = true ∧
    (coreSets (lending .standby (bulk .admitted)) { patAs with staged := true, res := .pinned, sram := true }).find? (setFree (lending .standby (bulk .admitted)) 3) = some [0] := by decide +kernel
theorem wit_RequestsScheduled_6 :
    setServes (busy (reqAs .preempted)) [0] = true ∧
    coresPowered (busy (reqAs .preempted)) = true ∧
    occupants (busy (reqAs .preempted)) [0] = [] ∧
    higherWaits (busy (reqAs .preempted)) (reqAs .preempted) = false ∧
    (reqAs .preempted).stopped = false := by decide +kernel

theorem wit_RequestResults_1 :
    busy (reqAs .running) = runUnits 5 [] (busy (reqAs .running)) ∧
    tget (busy (reqAs .running)).reqs 5 = some (reqAs .running) ∧
    (reqAs .running).st = .running ∧
    (reqAs .running).stopped = false ∧
    holdsCopy (busy (reqAs .running)) = false ∧
    tget (busy (reqAs .running)).pats 0 = some { patAs with staged := true, res := .pinned, sram := true } ∧
    (reqAs .running).hemPolicy ≠ 0 ∧
    (reqAs .running).deepest < 2 ∧
    2 ≤ hemCount { patAs with staged := true, res := .pinned, sram := true } ∧
    coresClocked (busy (reqAs .running)) = true ∧
    tget (busy (reqAs .running)).sent.entries 5 = some entryAs := by decide +kernel
theorem wit_RequestResults_2 :
    coresClocked (busy (reqAs .running)) = true ∧
    occupies (reqAs .running) = true ∧
    tenantActive (busy (reqAs .running)) 0 = true ∧
    (reqAs .running).cores.contains 0 = true ∧
    0 < (busy (reqAs .running)).cores.length ∧
    (coreOf (busy (reqAs .running)) 0).halted = none ∧
    0x100 + 4 ≤ 64 * 2 ^ 20 ∧
    bytesWf (coreOf (busy (reqAs .running)) 0).store = true := by decide +kernel
theorem wit_RequestResults_3 :
    ({ reqAs .running with verify := some verifyAs } : Req).verify = some verifyAs ∧
    coresClocked (busy { reqAs .running with verify := some verifyAs }) = true := by decide +kernel
theorem wit_RequestResults_4 :
    (reqAs .running).verify = none ∧
    (reqAs .running).lent = false ∧
    tenantActive (busy (reqAs .running)) 0 = true ∧
    holdsCopy (busy (reqAs .running)) = false ∧
    (reqAs .running).result = none ∧
    (reqAs .running).inOk = true ∧
    (reqAs .running).final = none ∧
    sealedOut (reqAs .running) = false ∧
    leftToPartner (busy (reqAs .running)) false = false := by decide +kernel
theorem wit_RequestResults_5 :
    liveState .running = true ∧
    hubRuns (busy (reqAs .running)) = true ∧
    ({ reqAs .running with inOk := false, bufFlags := 2, inCrc := 7 } : Req).bufFlags.getLsbD 1 = true ∧
    sealedOut { reqAs .running with inOk := false, bufFlags := 2, inCrc := 7 } = false := by decide +kernel

theorem wit_Fallbacks_1 :
    tget overdue.sent.entries 5 = some lateEntry ∧
    lateEntry.fallback = some late ∧
    sentinelRuns overdue = true ∧
    armedEntry lateEntry = true ∧
    late ≤ overdue.clk.localTime ∧
    tget overdue.reqs 5 = some (reqAs .running) ∧
    (reqAs .running).gen = lateEntry.gen ∧
    leftToPartner overdue false = false := by decide +kernel
theorem wit_Fallbacks_2 :
    (busy (reqAs .running)).clk.localTime < late + 98000 := by decide +kernel
theorem wit_Fallbacks_3 :
    tget overdue.pats 0 = some { patAs with staged := true, res := .pinned, sram := true } ∧
    lateEntry.cutoff = some (late - 100) ∧
    hubRuns overdue = true ∧
    tenantActive overdue 0 = true ∧
    (qualifies (reqAs .running) && inFlightState .running) = true ∧
    sealedOut (reqAs .running) = false := by decide +kernel
theorem wit_Fallbacks_4 :
    (qualifies { reqAs .running with deepest := 0 } && inFlightState .running) = false := by decide +kernel
theorem wit_Fallbacks_5 :
    sweeping.sent.sweep = some .cutHub ∧
    sweepDone sweeping = true := by decide +kernel

theorem wit_RequestsRetired_1 :
    tget (busy (reqAs .replied)).reqs 5 = some (reqAs .replied) ∧
    holdsCopy (busy (reqAs .replied)) = false ∧
    hubRuns (busy (reqAs .replied)) = true := by decide +kernel
theorem wit_RequestsRetired_2 :
    tget (busy (reqAs .retiring)).reqs 5 = some (reqAs .retiring) ∧
    admittedThisTick (busy (reqAs .retiring)) 1 = false ∧
    hubRuns (busy (reqAs .retiring)) = true := by decide +kernel

theorem wit_WindowsAndSlices_1 :
    tget live.accts 1 = some acctAs ∧
    acctAs.window + acctAs.fig.windowMs * 100000 ≤ live.clk.localTime := by decide +kernel
theorem wit_WindowsAndSlices_2 :
    early.clk.localTime < acctAs.window + acctAs.fig.windowMs * 100000 := by decide +kernel
theorem wit_WindowsAndSlices_3 :
    ({ live with sliceAt := some 0 } : State).sliceAt = some 0 ∧
    0 < live.clk.localTime ∧
    (live.clk.localTime - 0) % (live.cfg.live.slice * 100000) = 0 := by decide +kernel
theorem wit_WindowsAndSlices_4 :
    (late + 1 - 0) % (live.cfg.live.slice * 100000) ≠ 0 := by decide +kernel
theorem wit_WindowsAndSlices_5 :
    tget leaving.pats 0 = some { patAs with staged := true, res := .rotating, sram := true, leaving := true } ∧
    patBusy leaving 0 = false ∧
    { patAs with staged := true, res := .rotating, sram := true, leaving := true }.want = none := by decide +kernel
theorem wit_WindowsAndSlices_6 :
    (crowded late).sliceAt = some 0 ∧
    mustSlice (crowded late) = true ∧
    (chosen (crowded late) (patsWith (crowded late) pinning) (ranking (crowded late))).contains 1 = false := by decide +kernel

theorem wit_RequestsAdmitted_1 :
    begins (on submit1 pinned) 1 0x0201 = some submit1 ∧
    firstUnadmitted (on submit1 pinned) 1 1 = true ∧
    namesPicked (on submit1 pinned) submit1 (ringAs (some 0) 1) blocksAs = false ∧
    tget pinned.rings 1 = some (ringAs (some 0) 1) ∧
    stopping pinned = false ∧
    heldUnbound pinned = false := by decide +kernel
theorem wit_RequestsAdmitted_2 :
    (match admitCheck (budgetRefill 1 (on submit1 pinned)) submit1 (ringAs (some 0) 1) blocksAs with | .inl x => decide (x.1 = 0 ∧ x.2.1 = { patAs with staged := true, res := .pinned, sram := true }) | .inr _ => false) = true := by decide +kernel
theorem wit_RequestsAdmitted_3 :
    begins (on append1 (opened .open)) 1 0x0202 = some append1 ∧
    (match admitCheck (budgetRefill 1 (on append1 (opened .open))) append1 (ringAs (some 0) 1) blocksAs with | .inl _ => true | .inr _ => false) = true := by decide +kernel
theorem wit_RequestsAdmitted_4 :
    begins (on verify1 verifiableSeq) 1 0x0203 = some verify1 ∧
    (match admitCheck (budgetRefill 1 (on verify1 verifiableSeq)) verify1 (ringAs (some 0) 1) treeAs with | .inl _ => true | .inr _ => false) = true := by decide +kernel
theorem wit_RequestsAdmitted_5 :
    begins (on adapt1 trainable) 1 0x0208 = some adapt1 ∧
    (match admitCheck (budgetRefill 1 (on adapt1 trainable)) adapt1 (ringAs (some 0) 1) blocksAs with | .inl _ => true | .inr _ => false) = true := by decide +kernel

theorem wit_RequestsRefused :
    begins (on submit1 live) 1 0x0201 = some submit1 ∧
    tget live.rings 1 = some (ringAs (some 0) 1) ∧
    firstUnadmitted (on submit1 live) 1 1 = true ∧
    namesPicked (on submit1 live) submit1 (ringAs (some 0) 1) blocksAs = false ∧
    admitCheck (budgetRefill 1 (on submit1 live)) submit1 (ringAs (some 0) 1) blocksAs = .inr (.badParam, 20, 0) := by decide +kernel

theorem wit_SequenceCommands_1 :
    Ready (on commit1 (opened .awaitingCommit)) 1 0x0204 commit1 ∧
    ownSeq (opened .awaitingCommit) commit1 = some (0, seqAs .awaitingCommit (some provAs)) ∧
    le commit1.pkt 24 1 < provAs.parents.length := by decide +kernel
theorem wit_SequenceCommands_2 :
    Begun (on (begunAs [0, 5, 1] commit1) (opened .awaitingCommit)) 1 0x0204 (begunAs [0, 5, 1] commit1) ∧
    producerFree (opened .awaitingCommit) 5 1 = true := by decide +kernel
theorem wit_SequenceCommands_3 :
    Ready (on (c1 0x0205 [(20, 1)]) live) 1 0x0205 (c1 0x0205 [(20, 1)]) ∧
    ringForeign live (c1 0x0205 [(20, 1)]) = false ∧
    matching live (c1 0x0205 [(20, 1)]) = [] := by decide +kernel
theorem wit_SequenceCommands_4 :
    matching (busy (reqAs .running)) (c1 0x0205 [(20, 1), (24, 7)]) = [(5, reqAs .running)] := by decide +kernel
theorem wit_SequenceCommands_5 :
    Ready (on (c1 0x0206 [(20, 1), (24, 7)]) (busy (reqAs .running))) 1 0x0206 (c1 0x0206 [(20, 1), (24, 7)]) ∧
    earliest (matching (busy (reqAs .running)) (c1 0x0206 [(20, 1), (24, 7)])) = some (5, reqAs .running) ∧
    (tget (countSoFar 5 (busy (reqAs .running))).reqs 5).isSome = true ∧
    matching live (c1 0x0206 [(20, 1)]) = [] := by decide +kernel
theorem wit_SequenceCommands_6 :
    Ready (on (c1 0x0207 [(20, 0x40000)]) (opened .open)) 1 0x0207 (c1 0x0207 [(20, 0x40000)]) ∧
    ownSeq (opened .open) (c1 0x0207 [(20, 0x40000)]) = some (0, seqAs .open (some provAs)) := by decide +kernel
theorem wit_SequenceCommands_7 :
    tget closingSeq.seqs 0 = some { seqAs .closing none with closer := some 1 } ∧
    seqReqs closingSeq 0 = [] := by decide +kernel

theorem wit_Nop :
    Ready (on (c0 1 []) live) 1 0x0001 (c0 1 []) := by decide +kernel

theorem wit_Information_1 :
    Ready (on (c0 2 []) live) 1 0x0002 (c0 2 []) ∧
    Ready (on (c0 3 []) live) 1 0x0003 (c0 3 []) ∧
    Ready (on (c0 4 [(20, 1), (24, 500)]) live) 1 0x0004 (c0 4 [(20, 1), (24, 500)]) ∧
    Ready (on (c0 5 []) live) 1 0x0005 (c0 5 []) := by decide +kernel
theorem wit_Information_2 :
    ({ live with nor := { live.nor with copies := [.valid 1 0 [], .valid 1 0 [], .valid 1 0 []] } } : State).nor.copies.head? = some (.valid 1 0 []) := by decide +kernel

theorem wit_RingsAndAccounts_1 :
    Ready (on ringNew live) 1 0x0006 ringNew ∧
    ringFaults ringNew live = [] ∧
    tget live.rings (le ringNew.pkt 20 4) = none ∧
    ((tget live.accts (ringOf ringNew.pkt).account).map (·.tenant)) = (ringOf ringNew.pkt).tenant ∧
    ((ringOf ringNew.pkt).fast && decide (65536 ≤ fastRings live)) = false ∧
    (tget live.queues (ringOf ringNew.pkt).queue).isSome = true := by decide +kernel
theorem wit_RingsAndAccounts_2 :
    Ready (on (c0 7 [(20, 1)]) live) 1 0x0007 (c0 7 [(20, 1)]) ∧
    tget live.rings (le (c0 7 [(20, 1)]).pkt 20 4) = some (ringAs (some 0) 1) := by decide +kernel
theorem wit_RingsAndAccounts_3 :
    tget dying1.rings 1 = some { ringAs (some 0) 1 with st := .destroying, destroyers := [1] } ∧
    ringQuiet dying1 1 = true := by decide +kernel
theorem wit_RingsAndAccounts_4 :
    Ready (on (acct 3 0) live) 1 0x0008 (acct 3 0) ∧
    accountFaults (acct 3 0) live = [] ∧
    tget live.accts (le (acct 3 0).pkt 20 2 % 4096) = none := by decide +kernel
theorem wit_RingsAndAccounts_5 :
    accountFaults (acct 1 0) live = [] ∧
    tget live.accts (le (acct 1 0).pkt 20 2 % 4096) = some acctAs ∧
    acctAs.tenant = le (acct 1 0).pkt 22 1 % 8 ∧
    (acct 1 0).pkt.getLsbD 184 = false := by decide +kernel
theorem wit_RingsAndAccounts_6 :
    Ready (on (acct 1 1) noRings) 1 0x0008 (acct 1 1) ∧
    accountFaults (acct 1 1) noRings = [] ∧
    (acct 1 1).pkt.getLsbD 184 = true ∧
    (noRings.rings.any fun e => e.1 != 0 && e.2.account = 1) = false := by decide +kernel

theorem wit_ResetUnitAndShutdown_1 :
    Ready (on (c0 9 []) live) 1 0x0009 (c0 9 []) ∧
    le (c0 9 []).pkt 20 1 = 0 := by decide +kernel
theorem wit_ResetUnitAndShutdown_2 :
    Ready (on (c0 9 [(20, 1), (21, 1)]) live) 1 0x0009 (c0 9 [(20, 1), (21, 1)]) ∧
    guarded 1 0x0009 (fun p => le p 20 1 = 0) (on (c0 9 [(20, 1), (21, 1)]) live) = none ∧
    (halfOf live 1).heldBy = none := by decide +kernel
theorem wit_ResetUnitAndShutdown_3 :
    Ready (on (c0 9 [(20, 2), (21, 7)]) live) 1 0x0009 (c0 9 [(20, 2), (21, 7)]) ∧
    guarded 1 0x0009 (fun p => le p 20 1 = 0) (on (c0 9 [(20, 2), (21, 7)]) live) = none ∧
    (coreOf live 7).halted = none := by decide +kernel
theorem wit_ResetUnitAndShutdown_4 :
    Begun (on (begunAs [1, 1] (c0 9 [(20, 1), (21, 1)])) heldEast) 1 0x0009 (begunAs [1, 1] (c0 9 [(20, 1), (21, 1)])) ∧
    heldEast.halves.length = 2 ∧
    (halfOf heldEast 1).heldBy = some 1 ∧
    (halfOf heldEast 1).faulted = false ∧
    (halfOf heldEast 1).rebuilding = false := by decide +kernel
theorem wit_ResetUnitAndShutdown_5 :
    Ready (on (c0 10 []) live) 1 0x000A (c0 10 []) ∧
    stopping live = false ∧
    live.dev.state ≠ .shutdown ∧
    le (c0 10 []).pkt 20 1 = 0 := by decide +kernel
theorem wit_ResetUnitAndShutdown_6 :
    Begun (on (begunAs [2, 7] (c0 9 [(20, 2), (21, 7)])) (halted7 (.reset 1))) 1 0x0009 (begunAs [2, 7] (c0 9 [(20, 2), (21, 7)])) ∧
    (halted7 (.reset 1)).cores.length = 8 ∧
    (coreOf (halted7 (.reset 1)) 7).halted = some (.reset 1) ∧
    Ready (on (c0 10 [(20, 1)]) live) 1 0x000A (c0 10 [(20, 1)]) ∧
    le (c0 10 [(20, 1)]).pkt 20 1 = 1 := by decide +kernel
theorem wit_ResetUnitAndShutdown_7 :
    Begun (on (begunAs [] (c0 10 [])) (stoppingBy (.cmd 1))) 1 0x000A (begunAs [] (c0 10 [])) ∧
    stopQuiet (on (begunAs [] (c0 10 [])) (stoppingBy (.cmd 1))) 1 = true := by decide +kernel
theorem wit_ResetUnitAndShutdown_8 :
    (stoppingBy .latch).dev.stopping = some .latch ∧
    stopQuiet (stoppingBy .latch) 0 = true := by decide +kernel

theorem wit_FenceCommands_1 :
    Ready (on (c1 0x0401 []) live) 1 0x0401 (c1 0x0401 []) ∧
    tfree live.fences 16384 = some 0 ∧
    fencesFull live 0 = false ∧
    mirroring live = false := by decide +kernel
theorem wit_FenceCommands_2 :
    Ready (on (c1 0x0402 [(20, 0x02000000)]) fenced) 1 0x0402 (c1 0x0402 [(20, 0x02000000)]) ∧
    tget fenced.fences (fenceIndex (c1 0x0402 [(20, 0x02000000)]).pkt) = some fenceAs ∧
    fenceAs.gen = fenceGen (c1 0x0402 [(20, 0x02000000)]).pkt ∧
    mirroring fenced = false := by decide +kernel
theorem wit_FenceCommands_3 :
    Begun (on (begunAs [] (c1 0x0402 [(20, 0x02000000)])) fenced) 1 0x0402 (begunAs [] (c1 0x0402 [(20, 0x02000000)])) := by decide +kernel
theorem wit_FenceCommands_4 :
    Ready (on (signal 0) fenced) 1 0x0403 (signal 0) ∧
    Ready (on (signal 1) fenced) 1 0x0403 (signal 1) ∧
    tget fenced.fences (fenceIndex (signal 0).pkt) = some fenceAs ∧
    fenceAs.gen = fenceGen (signal 0).pkt ∧
    le (signal 0).pkt 24 1 = 0 ∧
    le (signal 1).pkt 24 1 = 1 := by decide +kernel

theorem wit_FenceWaits_1 :
    Ready (on (wait1 9) fenced) 1 0x0404 (wait1 9) ∧
    tget fenced.fences (fenceIndex (wait1 9).pkt) = some fenceAs ∧
    fenceAs.gen = fenceGen (wait1 9).pkt := by decide +kernel
theorem wit_FenceWaits_2 :
    Begun (on (begunAs [0, 2, 9, 100] (wait1 9)) fenced) 1 0x0404 (begunAs [0, 2, 9, 100] (wait1 9)) ∧
    9 ≤ fenceAs.value.toNat := by decide +kernel
theorem wit_FenceWaits_3 :
    fenceAs.value.toNat < 0xFFFFFFFFFFFFFFFF ∧
    (wait1 9).since + 100 ≤ fenced.clk.localTime := by decide +kernel
theorem wit_FenceWaits_4 :
    ({ wait1 9 with since := late } : Cmd).since + 100 > fenced.clk.localTime := by decide +kernel

theorem wit_PatternsStoredAndStaged_1 :
    Ready (on store1 live) 1 0x0104 store1 ∧
    storeFault (on store1 live) (le store1.pkt 32 8) imageAs = none := by decide +kernel
theorem wit_PatternsStoredAndStaged_2 :
    Begun (on (begunAs [2, 0, 0] store1) live) 1 0x0104 (begunAs [2, 0, 0] store1) ∧
    (begunAs [2, 0, 0] store1).given = none ∧
    flashLooped live = false ∧
    tfree live.pats 4096 = some 0 := by decide +kernel
theorem wit_PatternsStoredAndStaged_3 :
    Ready (on (patCmd 1) stored) 1 0x0101 (patCmd 1) ∧
    findPattern stored (le (patCmd 1).pkt 20 4) = some (0, patAs) ∧
    (patCmd 1).tenant = some patAs.tenant ∧
    fwMajor patAs = runningMajor stored ∧
    coresAllowed stored patAs = true ∧
    planFault patAs.plan = none ∧
    halfOut stored patAs = false := by decide +kernel
theorem wit_PatternsStoredAndStaged_4 :
    Begun (on (begunAs [0] (patCmd 1)) stagingNow) 1 0x0101 (begunAs [0] (patCmd 1)) ∧
    flashLooped stagingNow = false ∧
    tget stagingNow.pats 0 = some { patAs with staging := some 1 } ∧
    roomFor stagingNow 0 (stagePages { patAs with staging := some 1 }) = true := by decide +kernel

theorem wit_PatternsResidentAndEvicted_1 :
    Ready (on (patCmd 2) staged) 1 0x0102 (patCmd 2) ∧
    findPattern staged (le (patCmd 2).pkt 20 4) = some (0, { patAs with staged := true }) ∧
    halfOut staged { patAs with staged := true } = false ∧
    (patCmd 2).pkt.getLsbD 192 = false ∧
    tooLarge (on (patCmd 2) staged) 0 { patAs with staged := true } = false := by decide +kernel
theorem wit_PatternsResidentAndEvicted_2 :
    Ready (on pinCmd staged) 1 0x0102 pinCmd ∧
    pinCmd.pkt.getLsbD 192 = true ∧
    pinFault (on pinCmd staged) 0 { patAs with staged := true } = none := by decide +kernel
theorem wit_PatternsResidentAndEvicted_3 :
    Ready (on pinCmd pinned) 1 0x0102 pinCmd ∧
    findPattern pinned (le pinCmd.pkt 20 4) = some (0, { patAs with staged := true, res := .pinned, sram := true }) := by decide +kernel
theorem wit_PatternsResidentAndEvicted_4 :
    Begun (on (begunAs [0] pinCmd) pinningNow) 1 0x0102 (begunAs [0] pinCmd) ∧
    ({ patAs with staged := true, loading := some 1 }.sram || (pinFits pinningNow ((patsWith pinningNow fun q => q.sram).filter fun j => j != 0) 0 0 && pinFits pinningNow ((patsWith pinningNow fun q => q.sram).filter fun j => j != 0) 0 1 && fitsSelvage pinningNow ((patsWith pinningNow fun q => q.sram).filter fun j => j != 0) 0)) = true := by decide +kernel
theorem wit_PatternsResidentAndEvicted_5 :
    Ready (on (evict 2) staged) 1 0x0103 (evict 2) ∧
    evictFault (on (evict 2) staged) 0 { patAs with staged := true } (le (evict 2).pkt 24 1) = none := by decide +kernel
theorem wit_PatternsResidentAndEvicted_6 :
    Begun (on (begunAs [0] (evict 2)) staged) 1 0x0103 (begunAs [0] (evict 2)) ∧
    reqsOf staged 0 = [] := by decide +kernel
theorem wit_PatternsResidentAndEvicted_7 :
    reqsOf (busy (reqAs .running)) 0 ≠ [] ∧
    Begun (on (begunAs [0] (evict 2)) (busy (reqAs .running))) 1 0x0103 (begunAs [0] (evict 2)) := by decide +kernel

theorem wit_Appliques_1 :
    Ready (on (load 5 0x10000) staged) 1 0x0105 (load 5 0x10000) ∧
    findPattern staged (le (load 5 0x10000).pkt 20 4) = some (0, { patAs with staged := true }) ∧
    halfOut staged { patAs with staged := true } = false ∧
    appsFull staged 0 = false ∧
    pinnedFull staged 0 { patAs with staged := true } 65536 = false ∧
    tfree staged.apps 1024 = some 0 := by decide +kernel
theorem wit_Appliques_2 :
    Ready (on (load 6 0x400) trainable) 1 0x0106 (load 6 0x400) ∧
    findApplique trainable (le (load 6 0x400).pkt 20 2) = some (0, appAs) ∧
    tget trainable.pats appAs.pattern = some patTrain ∧
    (placeFree appAs = true ∨ appAs.place = some (.cmd 1)) ∧
    halfOut trainable patTrain = false ∧
    pinnedFull trainable 0 patTrain 65536 = false := by decide +kernel
theorem wit_Appliques_3 :
    tget (on (begunAs [0] (load 5 0x10000)) loadingFirst).cmds 1 = some (begunAs [0] (load 5 0x10000)) ∧
    tget loadingFirst.apps 0 = some (newApplique 1 0 0 65536 1) ∧
    (9 : BitVec 32) = BitVec.ofNat 32 (le (load 5 0x10000).pkt 36 4) ∧
    (roomFor loadingFirst 0 fun h => appPages loadingFirst (newApplique 1 0 0 65536 1) (le (load 5 0x10000).pkt 32 4) h + bufferPages loadingFirst (newApplique 1 0 0 65536 1) 1 h) = true := by decide +kernel
theorem wit_Appliques_4 :
    tget (on (begunAs [0] (load 6 0x400)) trainable).cmds 1 = some (begunAs [0] (load 6 0x400)) ∧
    opcodeOf (load 6 0x400).pkt = 0x0106 ∧
    appAs.current ≠ 0 ∧
    (roomFor trainable 0 fun h => appPages trainable appAs (le (load 6 0x400).pkt 32 4) h + bufferPages trainable appAs 1 h) = true ∧
    (8 : BitVec 32) ≠ BitVec.ofNat 32 (le (load 6 0x400).pkt 36 4) := by decide +kernel
theorem wit_Appliques_5 :
    Ready (on (c1 0x0107 [(20, 0x400)]) trainable) 1 0x0107 (c1 0x0107 [(20, 0x400)]) ∧
    appAs.retiring = false := by decide +kernel

theorem wit_Streams_1 :
    Ready (on streamNew live) 1 0x0301 streamNew ∧
    videoDenied live (le streamNew.pkt 23 1) = none ∧
    tfree live.streams 64 = some 0 ∧
    chooseEngine (decodeLoad live) 8 (videoRate 64 64 1000) = some 0 ∧
    streamsFull live 0 = false ∧
    bufferUnits (le streamNew.pkt 24 2) (le streamNew.pkt 26 2) (le streamNew.pkt 32 1) * le streamNew.pkt 34 1 ≤ freePages live (le streamNew.pkt 23 1) 0 := by decide +kernel
theorem wit_Streams_2 :
    Ready (on (feed 0 4) withStream) 1 0x0302 (feed 0 4) ∧
    findStream withStream (le (feed 0 4).pkt 20 4) = some (0, streamAs) ∧
    streamAs.ring = (feed 0 4).ring ∧
    le (feed 0 4).pkt 32 4 = 0 := by decide +kernel
theorem wit_Streams_3 :
    Ready (on (feed 100 0) withStream) 1 0x0302 (feed 100 0) ∧
    le (feed 100 0).pkt 32 4 ≠ 0 ∧
    feedBehind (on (feed 100 0) withStream) (feed 100 0).ring 1 (le (feed 100 0).pkt 20 4) = false ∧
    closedFault withStream streamAs 1 = none ∧
    feedDataFault withStream 0 (feed 100 0).pkt 0 0 false = none := by decide +kernel
theorem wit_Streams_4 :
    Ready (on (c1 0x0303 [(20, 0x10000)]) withStream) 1 0x0303 (c1 0x0303 [(20, 0x10000)]) ∧
    streamAs.closing = none := by decide +kernel
theorem wit_Streams_5 :
    tget closingStream.streams 0 = some { streamAs with closing := some 1 } ∧
    streamQuiet closingStream 0 { streamAs with closing := some 1 } = true := by decide +kernel
theorem wit_Streams_6 :
    Ready closeFed 5 0x0303 (c1 0x0303 [(20, 0x10000), (24, 1)]) ∧
    (c1 0x0303 [(20, 0x10000), (24, 1)]).pkt.getLsbD 192 = true ∧
    1 ∈ ({ streamAs with feeds := [1] } : Stream).feeds ∧
    tget closeFed.cmds 1 = some (begunAs [] (feed 100 0)) ∧
    findStream closeFed 0x10000 = some (0, { streamAs with feeds := [1] }) ∧
    (∀ e ∈ closeFed.engines, e.2.stream = 0 → e.2.cid ≠ 1) := by decide +kernel

theorem wit_Pictures_1 :
    tget fedStream.engines 0 = none ∧
    videoRuns fedStream = true ∧
    decodeLooped fedStream 0 = false ∧
    fedStream.dev.state ≠ .updating ∧
    nextFeed fedStream 0 = some (0, 1) ∧
    tget fedStream.streams 0 = some { streamAs with feeds := [1] } ∧
    unsupported (takeSets { streamAs with feeds := [1] } headAs) headAs = false ∧
    headAs.showExisting = none := by decide +kernel
theorem wit_Pictures_2 :
    (selectAll fedStream 1 (takeSets { streamAs with feeds := [1] } headAs) headAs).isSome = true := by decide +kernel
theorem wit_Pictures_3 :
    tget decodingNow.engines 0 = some decAs ∧
    expired decodingNow decAs = false ∧
    videoRuns decodingNow = true ∧
    tget decodingNow.cmds 1 = some (begunAs [] (feed 100 0)) ∧
    tget decodingNow.streams 0 = some { streamAs with feeds := [1] } ∧
    decAs.cid = 1 ∧
    decAs.stream = 0 ∧
    (begunAs [] (feed 100 0)).phase = .begun ∧
    tenantActive decodingNow streamAs.tenant = true ∧
    streamAs.closing = none ∧
    (streamAs.bufs[decAs.buffer]?).isSome = true := by decide +kernel
theorem wit_Pictures_4 :
    decAs.showing = false ∧
    (doneAs true).last = true ∧
    (doneAs false).last = false ∧
    streamAs.codec ≠ 2 ∧
    decodingNow.clk.localTime < decAs.start + 4 * ceilDiv (10 * (decAs.set.width * decAs.set.height)) 108 := by decide +kernel
theorem wit_Pictures_5 :
    { decAs with start := 0 }.start + 4 * ceilDiv (10 * (decAs.set.width * decAs.set.height)) 108 ≤ decodingNow.clk.localTime := by decide +kernel

theorem wit_Encoders_1 :
    Ready (on encNew live) 1 0x0304 encNew ∧
    videoDenied live (le encNew.pkt 23 1) = none ∧
    tfree live.encs 16 = some 0 ∧
    chooseEngine (encodeLoad live) 2 (videoRate (roundUp 128 16) (roundUp 128 16) 1000) = some 0 ∧
    encodersFull live 0 = false ∧
    16 * bufferUnits (roundUp (le encNew.pkt 24 2) 16) (roundUp (le encNew.pkt 26 2) 16) (le encNew.pkt 32 1) ≤ freePages live (le encNew.pkt 23 1) 0 := by decide +kernel
theorem wit_Encoders_2 :
    Ready (on frame1 withEnc) 1 0x0305 frame1 ∧
    encoderFaults frame1 withEnc = [] ∧
    findEncoder withEnc (le frame1.pkt 20 4) = some (0, encAs) ∧
    roiFault 0 (le frame1.pkt 26 1) = none ∧
    encAs.ring = frame1.ring ∧
    frameBehind (on frame1 withEnc) 1 frame1.ring (le frame1.pkt 20 4) = false ∧
    le frame1.pkt 24 1 ≠ 1 ∧
    videoDenied withEnc 0 = none ∧
    closedEnc withEnc encAs 1 = none ∧
    encAs.frames.length < 4 ∧
    frameFault withEnc encAs frame1 0 false = none := by decide +kernel
theorem wit_Encoders_3 :
    Begun (on (begunAs [] frame1) framing) 1 0x0305 (begunAs [] frame1) ∧
    (begunAs [] frame1).given = none ∧
    findEncoder framing (le frame1.pkt 20 4) = some (0, { encAs with frames := [frameOne] }) ∧
    [frameOne].find? (fun f => f.cid = 1) = some frameOne ∧
    encodingNow (on (begunAs [] frame1) framing) 0 = some 1 ∧
    videoRuns framing = true ∧
    encodeLooped framing 0 = false ∧
    frameBytes frame1 (unitBytes encAs true (auAs 100)).1 ≤ le frame1.pkt 48 4 ∧
    frame1.pkt.getLsbD 201 = false ∧
    framing.link.busMaster = true := by decide +kernel
theorem wit_Encoders_4 :
    le frame1.pkt 48 4 < frameBytes frame1 (unitBytes encAs true (auAs 5000)).1 := by decide +kernel
theorem wit_Encoders_5 :
    Ready (on (c1 0x0306 [(20, 0x10000)]) withEnc) 1 0x0306 (c1 0x0306 [(20, 0x10000)]) ∧
    encAs.closing = none ∧
    encAs.frames = [] ∧
    framesBefore withEnc 1 (le (c1 0x0306 [(20, 0x10000)]).pkt 20 4) 1 = false := by decide +kernel
theorem wit_Encoders_6 :
    Ready closeBoth 5 0x0306 (c1 0x0306 [(20, 0x10000), (24, 1)]) ∧
    findEncoder closeBoth (le (c1 0x0306 [(20, 0x10000), (24, 1)]).pkt 20 4) = some (0, { encAs with frames := [frameOne, { frameOne with cid := 2 }] }) ∧
    (c1 0x0306 [(20, 0x10000), (24, 1)]).pkt.getLsbD 192 = true ∧
    { frameOne with cid := 2 } ∈ [frameOne, { frameOne with cid := 2 }] ∧
    tget closeBoth.cmds 2 = some (begunAs [] frame1) ∧
    encodingNow (begun 5 [0] closeBoth) 0 ≠ some 2 := by decide +kernel

theorem wit_TenantsAndPartitions_1 :
    Ready (on (c0 0x0501 []) bare) 1 0x0501 (c0 0x0501 []) ∧
    tenantFaults (c0 0x0501 []) bare = [] ∧
    decommissioned bare = false ∧
    bare.sec.debugOpened = false ∧
    partDefined bare 0 = true ∧
    tenantState bare 0 = .absent := by decide +kernel
theorem wit_TenantsAndPartitions_2 :
    Ready (on (c0 0x0502 []) live) 1 0x0502 (c0 0x0502 []) ∧
    tenantState live 0 = .active := by decide +kernel
theorem wit_TenantsAndPartitions_3 :
    (removing.tenants.find? fun e => e.2.st == .removing && e.2.remover == some 1) = some (0, { tenantAs with st := .removing, remover := some 1 }) ∧
    tenantQuiet removing 0 1 = true := by decide +kernel
theorem wit_TenantsAndPartitions_4 :
    Ready (on (c0 0x0506 []) bare) 1 0x0506 (c0 0x0506 []) ∧
    partitionFaults (c0 0x0506 []) bare = [] ∧
    partFault bare 0 0 = none ∧
    (bare.tenants.any fun e => e.2.st != .absent) = false := by decide +kernel
theorem wit_TenantsAndPartitions_5 :
    tget restitching.pages (pageKey 0 3) = some pageAs ∧
    (tget restitching.tenants 0).bind (·.prev) = some genOne ∧
    (tget restitching.tenants 0).bind (·.cur) = some { genOne with num := 2 } ∧
    halfInService restitching 0 = true ∧
    pageAs.parity = genOne.num % 2 ∧
    (∀ e ∈ restitching.pages, e.1 / 2 ^ 21 = 0 → e.1 < pageKey 0 3 → stale restitching e.2 = false) := by decide +kernel

/-- An earlier page of the half is still tagged with the previous generation. -/
def restitchingTwo : State := { restitching with pages := [(pageKey 0 2, pageAs), (pageKey 0 3, pageAs)] }

theorem wit_TenantsAndPartitions_6 :
    tget restitchingTwo.pages (pageKey 0 3) = some pageAs ∧
    halfInService restitchingTwo 0 = true ∧
    (∃ e ∈ restitchingTwo.pages, e.1 / 2 ^ 21 = 0 ∧ e.1 < pageKey 0 3 ∧ stale restitchingTwo e.2 = true) := by decide +kernel

theorem wit_Keys_1 :
    Ready (on (c1 0x0503 [(32, 1)]) live) 1 0x0503 (c1 0x0503 [(32, 1)]) ∧
    (c1 0x0503 [(32, 1)]).given = none ∧
    keyDenied live = none ∧
    (tget live.tenants 0).bind (·.cur) = some genOne ∧
    genOne.bufKey = none := by decide +kernel
theorem wit_Keys_2 :
    Ready (on (c1 0x0504 []) live) 1 0x0504 (c1 0x0504 []) ∧
    tget live.tenants 0 = some tenantAs ∧
    tenantAs.prev = none ∧
    tenantAs.next = none ∧
    le (c1 0x0504 []).pkt 32 1 = 0 ∧
    Ready (on (c1 0x0504 [(32, 1)]) live) 1 0x0504 (c1 0x0504 [(32, 1)]) := by decide +kernel
theorem wit_Keys_3 :
    Ready (on (c0 0x0505 [(32, 65536)]) live) 1 0x0505 (c0 0x0505 [(32, 65536)]) ∧
    decommissioned live = false ∧
    (quotePlan (le (c0 0x0505 [(32, 65536)]).pkt 20 1) (packLen (quoteList live none) / 48)).total ≤ le (c0 0x0505 [(32, 65536)]).pkt 32 4 := by decide +kernel
theorem wit_Keys_4 :
    Ready (on (c0 0x0505 [(20, 1), (32, 4096)]) live) 1 0x0505 (c0 0x0505 [(20, 1), (32, 4096)]) ∧
    le (c0 0x0505 [(20, 1), (32, 4096)]).pkt 32 4 < (quotePlan (le (c0 0x0505 [(20, 1), (32, 4096)]).pkt 20 1) (packLen (quoteList live none) / 48)).total := by decide +kernel

theorem wit_PairBinding_1 :
    Ready (on bind1 live) 1 0x0601 bind1 ∧
    bindAllowed (on bind1 live) (le bind1.pkt 20 1) = true ∧
    bindBare (on bind1 live) (le bind1.pkt 20 1) = true := by decide +kernel
theorem wit_PairBinding_2 :
    Begun (on (begunAs [] bind1) linked) 1 0x0601 (begunAs [] bind1) ∧
    (on (begunAs [] bind1) linked).pair.linkUp = true ∧
    looped (on (begunAs [] bind1) linked) 2 0 = false ∧
    bindFault (on (begunAs [] bind1) linked) (begunAs [] bind1).pkt (answer 2) = none ∧
    (linked.reqs.all fun e => !e.2.lent) = true := by decide +kernel
theorem wit_PairBinding_3 :
    bindFault (on (begunAs [] bind1) linked) (begunAs [] bind1).pkt (answer 1) = some (.badParam, 24) := by decide +kernel
theorem wit_PairBinding_4 :
    (begunAs [] bind1).since + 100000000 ≤ linked.clk.localTime ∧
    linked.clk.localTime < ({ begunAs [] bind1 with since := late } : Cmd).since + 100000000 := by decide +kernel
theorem wit_PairBinding_5 :
    Ready (on (c0 0x0602 []) mirrored) 1 0x0602 (c0 0x0602 []) ∧
    Ready (on (c0 0x0606 []) mirrored) 1 0x0606 (c0 0x0606 []) ∧
    bound (on (c0 0x0606 []) mirrored) = true := by decide +kernel

theorem wit_PairMaintenance_1 :
    Ready (on (c0 0x0603 []) (paired .degraded .active)) 1 0x0603 (c0 0x0603 []) ∧
    (paired .degraded .active).pair.mode = .degraded ∧
    (paired .degraded .active).pair.role = .active ∧
    ((paired .degraded .active).reqs.all fun e => !e.2.lent) = true := by decide +kernel
theorem wit_PairMaintenance_2 :
    hubOn phase4 = true ∧
    phase4.pair.linkUp = true ∧
    phase4.pair.role = .active ∧
    phase4.pair.phase = 4 := by decide +kernel
theorem wit_PairMaintenance_3 :
    hubOn (resilvering 1) = true ∧
    (resilvering 1).pair.linkUp = true ∧
    (resilvering 1).pair.role = .active ∧
    (resilvering 1).pair.resilver = some 1 ∧
    Begun (resilvering 1) 1 0x0603 (begunAs [100] (c0 0x0603 [])) ∧
    (resilvering 1).pair.phase = 1 := by decide +kernel
theorem wit_PairMaintenance_4 :
    Begun (resilvering 2) 1 0x0603 (begunAs [100] (c0 0x0603 [])) ∧
    (resilvering 2).pair.phase = 2 ∧
    Begun (resilvering 3) 1 0x0603 (begunAs [100] (c0 0x0603 [])) ∧
    (resilvering 3).pair.phase = 3 := by decide +kernel
theorem wit_PairMaintenance_5 :
    hubOn (sparing 1) = true ∧
    (sparing 1).pair.linkUp = true ∧
    (sparing 1).pair.role = .spare ∧
    (sparing 1).pair.phase = 1 ∧
    (sparing 2).pair.phase = 2 ∧
    (sparing 2).pair.role = .spare ∧
    (sparing 2).pair.waiting = [] ∧
    (sparing 2).pair.awaiting = [] := by decide +kernel
theorem wit_PairMaintenance_6 :
    mirrored.pair.mode = .activeStandby ∧
    mirrored.pair.role = .active ∧
    Ready (on (c0 0x0605 []) mirrored) 1 0x0605 (c0 0x0605 []) ∧
    [recordAs 1 (.budget 0 0)] ≠ [] := by decide +kernel
theorem wit_PairMaintenance_7 :
    Ready (on (c0 0x0604 []) mirroredBusy) 1 0x0604 (c0 0x0604 []) ∧
    mirroredBusy.pair.switching = none ∧
    tget mirroredBusy.reqs 5 = some (reqAs .running) ∧
    (reqAs .running).st = .running ∧
    (reqAs .running).lent = false := by decide +kernel
theorem wit_PairMaintenance_8 :
    Begun switched1 1 0x0604 (begunAs [] (c0 0x0604 [])) ∧
    switched1.pair.handover = true ∧
    switched1.pair.partnerRole = .active := by decide +kernel

theorem wit_FirmwareSlots_1 :
    Ready (on (write1 0xFFFFFFFF) live) 1 0x0701 (write1 0xFFFFFFFF) ∧
    slotNamed live (le (write1 0xFFFFFFFF).pkt 20 1) = 1 ∧
    runningSlot live ≠ some 1 ∧
    le (write1 0xFFFFFFFF).pkt 24 4 = 0 ∧
    (slotOf live 1).busy = none ∧
    le (write1 0xFFFFFFFF).pkt 36 4 = 0xFFFFFFFF := by decide +kernel
theorem wit_FirmwareSlots_2 :
    Ready (on (write1 0) live) 1 0x0701 (write1 0) ∧
    le (write1 0).pkt 36 4 = 0 := by decide +kernel
theorem wit_FirmwareSlots_3 :
    Begun (on (begunAs [1, 0, 5] (write1 0)) failedB) 1 0x0701 (begunAs [1, 0, 5] (write1 0)) ∧
    (begunAs [1, 0, 5] (write1 0)).aux = [1, 0, 5] := by decide +kernel
theorem wit_FirmwareSlots_4 :
    Ready (on (c0 0x0702 [(20, 2)]) live) 1 0x0702 (c0 0x0702 [(20, 2)]) ∧
    (slotOf live (slotNamed live (le (c0 0x0702 [(20, 2)]).pkt 20 1))).busy = none ∧
    Ready (on (c0 0x0704 []) live) 1 0x0704 (c0 0x0704 []) := by decide +kernel
theorem wit_FirmwareSlots_5 :
    Ready (on (c0 0x0702 [(20, 2)]) (withSlotB fwSlotAs)) 1 0x0702 (c0 0x0702 [(20, 2)]) ∧
    (slotOf (withSlotB fwSlotAs) (slotNamed (withSlotB fwSlotAs) (le (c0 0x0702 [(20, 2)]).pkt 20 1))).busy.isSome = true := by decide +kernel
theorem wit_FirmwareSlots_6 :
    Begun (on (begunAs [1] (c0 0x0702 [(20, 2)])) (withSlotB fwSlotAs)) 1 0x0702 (begunAs [1] (c0 0x0702 [(20, 2)])) ∧
    (slotOf (withSlotB fwSlotAs) 1).busy = some 1 := by decide +kernel

theorem wit_Activation_1 :
    Ready (on (actB 0) readyB) 1 0x0703 (actB 0) ∧
    readyB.dev.update = none ∧
    slotNamed readyB (le (actB 0).pkt 20 1) = 1 ∧
    fullActivation readyB (actB 0).pkt = false ∧
    activateFault (on (actB 0) readyB) 1 false = none := by decide +kernel
theorem wit_Activation_2 :
    Ready (on (actB 1) readyB) 1 0x0703 (actB 1) ∧
    fullActivation readyB (actB 1).pkt = true ∧
    activateFault (on (actB 1) readyB) 1 true = none := by decide +kernel
theorem wit_Activation_3 :
    activateFault (on (actB 0) live) 1 false = some (.badState, 24) ∧
    activateFault (on (actB 1) live) 1 true = some (.badState, 24) := by decide +kernel
theorem wit_Activation_4 :
    (updatingNow late).dev.update = some (1, late) ∧
    tget (updatingNow late).cmds 1 = some (begunAs [1] (actB 0)) ∧
    (updatingNow late).dev.latchDue = false ∧
    (updatingNow late).clk.localTime < late + 200000000 ∧
    0 + 200000000 ≤ (updatingNow 0).clk.localTime := by decide +kernel
theorem wit_Activation_5 :
    (onTrial 0).nor.act = some trialAs ∧
    trialAs.trial = true ∧
    trialAs.slot = (onTrial 0).dev.activeSlot ∧
    serving (onTrial 0) = true ∧
    (onTrial 0).dev.serviceSince = some 0 ∧
    0 + 6000000000 ≤ (onTrial 0).clk.localTime ∧
    (onTrial late).clk.localTime < late + 6000000000 := by decide +kernel

theorem wit_LoopbacksTraceBobbins_1 :
    Ready (on loop1 live) 1 0x0801 loop1 ∧
    guarded 1 0x0801 (loopTaken (on loop1 live)) (on loop1 live) = none ∧
    loopFault (on loop1 live) loop1.pkt = none := by decide +kernel
theorem wit_LoopbacksTraceBobbins_2 :
    loopFault (on loop1 mirrored) loop1.pkt = some (.badState, 27) := by decide +kernel
theorem wit_LoopbacksTraceBobbins_3 :
    Begun (looping late) 1 0x0801 (begunAs [] loop1) ∧
    (looping late).svc.loops.find? (fun l => l.cid = 1) = some (loopAs late) ∧
    (loopAs late).until_ ≤ (looping late).clk.localTime ∧
    (looping late).clk.localTime < (loopAs (late + 1)).until_ := by decide +kernel
theorem wit_LoopbacksTraceBobbins_4 :
    Ready (on (c0 0x0802 [(28, 100000)]) parted) 1 0x0802 (c0 0x0802 [(28, 100000)]) ∧
    partitioned parted = true ∧
    partitioned live = false := by decide +kernel
theorem wit_LoopbacksTraceBobbins_5 :
    Ready (on (c0 0x0802 [(28, 100000)]) live) 1 0x0802 (c0 0x0802 [(28, 100000)]) ∧
    Ready (on (c0 0x0802 [(20, 1), (28, 100000)]) live) 1 0x0802 (c0 0x0802 [(20, 1), (28, 100000)]) := by decide +kernel
theorem wit_LoopbacksTraceBobbins_6 :
    Ready (on (c0 0x0803 [(20, 0x10), (24, 4)]) live) 1 0x0803 (c0 0x0803 [(20, 0x10), (24, 4)]) := by decide +kernel

theorem wit_CountersMarginsTests_1 :
    Ready (on (c0 0x0804 [(21, 1)]) live) 1 0x0804 (c0 0x0804 [(21, 1)]) ∧
    Ready (on (c0 0x0804 [(20, 1), (21, 1)]) live) 1 0x0804 (c0 0x0804 [(20, 1), (21, 1)]) ∧
    Ready (on (c0 0x0804 [(20, 2), (21, 1)]) live) 1 0x0804 (c0 0x0804 [(20, 2), (21, 1)]) ∧
    Ready (on (c1 0x0804 [(20, 1), (21, 1)]) live) 1 0x0804 (c1 0x0804 [(20, 1), (21, 1)]) := by decide +kernel
theorem wit_CountersMarginsTests_2 :
    Ready (on (c0 0x0805 []) live) 1 0x0805 (c0 0x0805 []) ∧
    Ready (on (c0 0x0805 [(20, 1)]) live) 1 0x0805 (c0 0x0805 [(20, 1)]) := by decide +kernel
theorem wit_CountersMarginsTests_3 :
    Begun (on (begunAs [] (c0 0x0805 [(20, 1)])) live) 1 0x0805 (begunAs [] (c0 0x0805 [(20, 1)])) ∧
    opticsOn live = true := by decide +kernel
theorem wit_CountersMarginsTests_4 :
    Ready (on test7 live) 1 0x0806 test7 ∧
    guarded 1 0x0806 testTaken (on test7 live) = none ∧
    (coreOf live 7).halted = none ∧
    heldUnbound live = false ∧
    le test7.pkt 20 1 < 0x10 := by decide +kernel
theorem wit_CountersMarginsTests_5 :
    Ready (on (c0 0x0806 [(20, 0x10)]) live) 1 0x0806 (c0 0x0806 [(20, 0x10)]) ∧
    guarded 1 0x0806 testTaken (on (c0 0x0806 [(20, 0x10)]) live) = none := by decide +kernel
theorem wit_CountersMarginsTests_6 :
    Begun (on (begunAs [] test7) (halted7 (.test 1))) 1 0x0806 (begunAs [] test7) ∧
    (halted7 (.test 1)).cores.length = 8 ∧
    le test7.pkt 21 1 < 8 ∧
    le test7.pkt 20 1 = 0 ∧
    (coreOf (halted7 (.test 1)) 7).halted = some (.test 1) := by decide +kernel
theorem wit_CountersMarginsTests_7 :
    Begun (on (begunAs [] (c0 0x0806 [(20, 0x10)])) live) 1 0x0806 (begunAs [] (c0 0x0806 [(20, 0x10)])) := by decide +kernel

theorem wit_Starts_1 :
    dark.dev.on = false ∧
    dark.clk.sclk = false ∧
    dark.thermal.tripped = none := by decide +kernel
theorem wit_Starts_2 :
    startRuns booting = true ∧
    startRuns live = false ∧
    (envAs (some 1)).overrun = some 1 ∧
    (envAs none).overrun = none ∧
    startRuns badFuses = true ∧
    debugPolicy (readShadow badFuses) = 2 := by decide +kernel
theorem wit_Starts_3 :
    (startedAs runOk).dev.start = some runOk ∧
    runOk.fail = none ∧
    runOk.overrun = none ∧
    (startedAs runOk).dev.latchDue = false := by decide +kernel
theorem wit_Starts_4 :
    (failing .selftestArray 0).dev.start = some { runOk with fail := some .selftestArray } ∧
    (failing .selftestArray 2).nor.startFails = 2 ∧
    immediate .selftestArray = false ∧
    immediate .fuseError = true := by decide +kernel
theorem wit_Starts_5 :
    (overrunning 100000000).dev.start = some { runOk with overrun := some 5 } ∧
    0 + 2 * rowBound (overrunning 100000000) 5 * 100000 ≤ (overrunning 100000000).clk.localTime ∧
    (overrunning 0).clk.localTime < 0 + 2 * rowBound (overrunning 0) 5 * 100000 := by decide +kernel
theorem wit_Starts_6 :
    (retrying late).dev.retryAt = some late ∧
    late ≤ (retrying late).clk.localTime ∧
    (retrying (late + 1)).clk.localTime < late + 1 := by decide +kernel
theorem wit_Starts_7 :
    (servingSince 0).dev.serviceSince = some 0 ∧
    serving (servingSince 0) = true ∧
    0 + 6000000000 ≤ (servingSince 0).clk.localTime ∧
    (servingSince late).clk.localTime < late + 6000000000 := by decide +kernel

theorem wit_LinkResets_1 :
    hubOn live = true ∧
    live.link.up = true ∧
    hubOn dark = false ∧
    linkDown.link.up = false := by decide +kernel
theorem wit_LinkResets_2 :
    live.link.perst = false ∧
    live.clk.sclk = true ∧
    quiet.link.perst = false ∧
    quiet.clk.sclk = false ∧
    inPerst.link.perst = true := by decide +kernel
theorem wit_LinkResets_3 :
    hubOn linkDown = true ∧
    linkDown.link.perst = false ∧
    linkDown.link.up = false := by decide +kernel

theorem wit_PowerStates_1 :
    hubOn live = true ∧
    live.link.up = true ∧
    live.link.dstate = .d0 ∧
    serving live = true ∧
    live.dev.stopping = none ∧
    (inState .shutdown).dev.state = .shutdown := by decide +kernel
theorem wit_PowerStates_2 :
    (inD (.entering late)).link.dstate = .entering late ∧
    stopQuiet (inD (.entering late)) 0 = true ∧
    hubOn (inD (.entering late)) = true := by decide +kernel
theorem wit_PowerStates_3 :
    stopQuiet { busy (reqAs .running) with link := (inD (.entering late)).link } 0 = false ∧
    late < late + 1000000 := by decide +kernel
theorem wit_PowerStates_4 :
    (inD .d3hot).link.up = true ∧
    (inD .d3hot).link.dstate ≠ .d0 ∧
    hubOn (inD .d3hot) = true := by decide +kernel

theorem wit_LatchPinsClocks_1 :
    (latched false).link.latchOpen = false ∧
    hubOn (latched false) = true ∧
    serving (latched false) = true ∧
    (latched false).dev.stopping = none ∧
    (inState .updating).link.latchOpen = false ∧
    (inState .halfMast).link.latchOpen = false ∧
    hubOn (inState .halfMast) = true := by decide +kernel
theorem wit_LatchPinsClocks_2 :
    (latched true).link.latchOpen = true ∧
    (5 : BitVec 4) ≠ live.link.slotPins ∧
    live.clk.syspll = true ∧
    live.clk.sclk = true := by decide +kernel

theorem wit_Liveness_1 :
    hubOn (marked [0, 1, 2, 3]) = true ∧
    (marked [0, 1, 2, 3]).clk.syspll = true ∧
    (marked [0, 1, 2, 3]).pair.marks.contains 4 = false ∧
    (marked [0, 1, 2, 3]).pair.marks.length = 4 ∧
    (marked []).pair.marks.length < 4 := by decide +kernel
theorem wit_Liveness_2 :
    bound mirrored = true ∧
    mirrored.pair.wedged = false ∧
    mirrored.pair.lastAdvance + 1200 ≤ mirrored.clk.localTime ∧
    hubOn mirrored = true := by decide +kernel
theorem wit_Liveness_3 :
    bound live = false ∧
    serving live = true ∧
    live.sent.sweep = none ∧
    live.pair.lastAdvance + 10000000 ≤ live.clk.localTime ∧
    (marked []).clk.localTime < (marked []).pair.lastAdvance + 10000000 := by decide +kernel

theorem wit_Halyards_1 :
    mirrored.clk.sclk = true ∧
    bound mirrored = true ∧
    mirrored.pair.nextBeat ≤ mirrored.clk.localTime ∧
    mirrored.pair.awaiting = [] := by decide +kernel
theorem wit_Halyards_2 :
    hubOn mirrored = true ∧
    mirrored.pair.linkUp = true ∧
    crc32c 28 ((frameA1 ^^^ 1).toNat % 2 ^ 224) ≠ bytesAt (frameA1 ^^^ 1) 0x1C 4 := by decide +kernel
theorem wit_Halyards_3 :
    crc32c 28 (frameA1.toNat % 2 ^ 224) = bytesAt frameA1 0x1C 4 ∧
    bytesAt frameA1 4 4 = mirrored.pair.pairId.toNat ∧
    mirrored.pair.role = .active ∧
    bytesAt frameA1 3 1 ≠ 0 ∧
    (bytesAt frameA1 1 1).testBit 0 = true ∧
    mirrored.pair.partnerDying = false := by decide +kernel
theorem wit_Halyards_4 :
    frameOf 2 (charsOf frameB1) = some frameB1 ∧
    crc32c 12 (frameB1.toNat % 2 ^ 96) = bytesAt frameB1 0xC 4 ∧
    bytesAt frameB1 2 2 = mirrored.pair.pairId.toNat % 2 ^ 16 ∧
    (bytesAt frameB1 0 1).testBit 1 = false ∧
    (bytesAt frameB1 0 1).testBit 0 = false := by decide +kernel
theorem wit_Halyards_5 :
    frameOf 2 (charsOf (frameB1 ^^^ 1)) = some (frameB1 ^^^ 1) ∧
    crc32c 12 ((frameB1 ^^^ 1).toNat % 2 ^ 96) ≠ bytesAt (frameB1 ^^^ 1) 0xC 4 := by decide +kernel
theorem wit_Halyards_6 :
    hubOn (orphan .standby) = true ∧
    partnerGone (orphan .standby) = true ∧
    (orphan .standby).pair.dyingSent = none ∧
    (orphan .standby).pair.mode = .activeStandby ∧
    tget (orphan .standby).sent.entries 5 = some { entryAs with mirror := true, armed := false } ∧
    partnerGone (orphan .active) = true ∧
    (orphan .standby).pair.awaiting = [] := by decide +kernel

theorem wit_Records_1 :
    ({ recordAs 5 (.budget 70 4) with tagOk := false } : Record).tagOk = false ∧
    ({ recordAs 5 (.budget 70 4) with crcOk := false } : Record).crcOk = false ∧
    intakeOpen live = false := by decide +kernel
theorem wit_Records_2 :
    (recordAs 5 (.budget 70 4)).tagOk = true ∧
    burgeeFits (copyHeld 4) 0 = true ∧
    intakeOpen (copyHeld 4) = true ∧
    waitsForPhase (copyHeld 4) (recordAs 5 (.budget 70 4)) = false ∧
    (copyHeld 4).pair.awaiting = [] ∧
    tget (copyHeld 4).pair.held (objKey (recKind (recordAs 5 (.budget 70 4)).body) 1) = some (4, 7) ∧
    (4 : Nat) < (recordAs 5 (.budget 70 4)).commitSeq := by decide +kernel
theorem wit_Records_3 :
    (recordAs 5 (.budget 70 4)).tagOk = true ∧
    (recordAs 5 (.budget 70 4)).crcOk = true ∧
    burgeeFits (sparing 1) 0 = true ∧
    intakeOpen (sparing 1) = true ∧
    (sparing 1).pair.awaiting = [] ∧
    waitsForPhase (sparing 1) (recordAs 5 (.budget 70 4)) = true := by decide +kernel
theorem wit_Records_4 :
    (recordAs 3 (.budget 70 4)).commitSeq < 4 ∧
    (recordAs 4 (.budget 70 4)).commitSeq = 4 ∧
    (recordAs 4 (.budget 70 4)).crc = 7 := by decide +kernel
theorem wit_Records_5 :
    (unacknowledged 0).pair.unacked.find? (fun u => u.commitSeq = 4) = some (unackedAs 0) ∧
    (unacknowledged 0).pair.switching = none ∧
    (unacknowledged 0).pair.mode = .activeStandby ∧
    (unacknowledged 0).pair.role = .active ∧
    (unackedAs 0).tick + 1200 ≤ (unacknowledged 0).clk.localTime ∧
    (unacknowledged late).clk.localTime < (unackedAs late).tick + 1200 := by decide +kernel
theorem wit_Records_6 :
    awaitingSetup.pair.awaiting.find? (fun w => w.1 = 1) = some (1, candAs) ∧
    candAs.target = .cmd 1 ∧
    tget awaitingSetup.cmds 1 = some { c1 1 [] with phase := .begun } ∧
    awaitingSetup.pair.role = .active ∧
    holdsCopy awaitingSetup = false ∧
    awaitingSetup.pair.switching = none := by decide +kernel
theorem wit_Records_7 :
    heardNow.pair.mode = .activeStandby ∧
    heardNow.pair.role = .standby ∧
    progressing heardNow.pair.heardB heardNow.clk.localTime = true ∧
    live.pair.mode ≠ .activeStandby ∧
    (heardNow.reqs.all fun e => !e.2.lent) = true := by decide +kernel
theorem wit_Records_8 :
    hubOn live = true ∧
    opticsOn live = true ∧
    opticsOn (inState .halfMast) = false ∧
    (halfOf recovering 0).window = true := by decide +kernel

theorem wit_Power_1 :
    (feedOf (feeds false true none) false).present = false ∧
    (feedOf (feeds true true none) false).present = true ∧
    (feedOf (feeds true true none) true).present = true := by decide +kernel
theorem wit_Power_2 :
    (feedOf (feeds true false none) false).present = true ∧
    (feedOf (feeds true false none) true).present = false ∧
    (feeds true false none).power.holdUp = none ∧
    hubOn (feeds true false none) = true := by decide +kernel
theorem wit_Power_3 :
    (feeds true false (some 0)).power.holdUp = some 0 ∧
    (feeds true false (some 0)).clk.sclk = true ∧
    0 + 200000 ≤ (feeds true false (some 0)).clk.localTime ∧
    (feeds true false (some 0)).power.feedA.present = true ∧
    (feeds true false (some late)).clk.localTime < late + 200000 ∧
    (feeds false false (some 0)).power.feedA.present = false := by decide +kernel
theorem wit_Power_4 :
    hubOn live = true ∧
    live.cores.length = 8 ∧
    (1450000 : Nat) < 1500000 := by decide +kernel
theorem wit_Power_5 :
    hubOn stepping = true ∧
    stepping.power.stepping = true ∧
    (1000 : Nat) < stepping.power.capMw ∧
    stepping.power.capMw ≤ 1400000 ∧
    hungriest stepping = some 1 ∧
    stepping.power.steppedAt = none ∧
    (steppedAt late).power.steppedAt = some late ∧
    (steppedAt late).clk.localTime < late + 10000 ∧
    0 + 10000 ≤ (steppedAt 0).clk.localTime := by decide +kernel
theorem wit_Power_6 :
    (under 0).power.underSince = some 0 ∧
    hubOn (under 0) = true ∧
    0 + 1000000 ≤ (under 0).clk.localTime ∧
    mostThrottled (under 0) = some 2 ∧
    (under late).clk.localTime < late + 1000000 := by decide +kernel

theorem wit_ThermalControl_1 :
    live.clk.sclk = true ∧
    live.thermal.tripped = none ∧
    tripSensor (takeReadings (warm 7400) live) = some 0 ∧
    live.dev.on = true ∧
    (live.reqs.all fun e => !e.2.lent) = true := by decide +kernel
theorem wit_ThermalControl_2 :
    tripSensor (takeReadings (warm 7100) live) = none ∧
    (inState .shutdown).dev.state = .shutdown ∧
    serving live = true ∧
    live.cores.length = 8 := by decide +kernel
theorem wit_ThermalControl_3 :
    (coreOf (cooling 0 (some .tj) 6) 3).below = some 0 ∧
    (coreOf (cooling 0 (some .tj) 6) 3).halted = some .tj ∧
    0 + 10000000 ≤ late ∧
    (coreOf (cooling 0 none 6) 3).halted ≠ some .tj ∧
    late < late + 1000000 ∧
    (cooling 0 none 6).cores.length = 8 := by decide +kernel
theorem wit_ThermalControl_4 :
    flowStops flowing 3000 = false ∧
    flowStops flowing 200 = true ∧
    flowGoverned flowing = true ∧
    flowing.thermal.hold = none ∧
    hubOn flowing = true := by decide +kernel
theorem wit_ThermalControl_5 :
    hubOn live = true ∧
    serving live = true ∧
    live.thermal.hold = none ∧
    live.thermal.drain = none ∧
    live.thermal.tripped = none ∧
    (1200 : Nat) ≤ 1600 ∧
    (1100 : Nat) < 1200 := by decide +kernel

theorem wit_CoolantAndMargins_1 :
    (draining 0).thermal.drain = some 0 ∧
    hubOn (draining 0) = true ∧
    drainOver (draining 0) 0 = true ∧
    drainingBusy.thermal.drain = some late ∧
    drainOver drainingBusy late = false := by decide +kernel
theorem wit_CoolantAndMargins_2 :
    (holding (late - 500000000) (some (late - 100000000))).thermal.hold = some (holdAs (late - 500000000) (some (late - 100000000))) ∧
    (late - 100000000) + 100000000 ≤ late ∧
    late ≤ (late - 500000000) + 1000000000 ∧
    (holding 0 none).thermal.hold = some (holdAs 0 none) ∧
    (holdAs 0 none).okSince = none := by decide +kernel
theorem wit_CoolantAndMargins_3 :
    hubOn live = true ∧
    (coreOf live 0).halted = none ∧
    live.cores.length = 8 ∧
    (List.replicate 8 700).length = 8 ∧
    (∃ v ∈ List.replicate 8 700, v < 705) ∧
    opticsOn live = true := by decide +kernel

theorem wit_Channels_1 :
    live.clk.sclk = true ∧
    live.mem.inService.getLsbD 0 = true ∧
    noChannel.mem.inService.getLsbD 0 = false ∧
    channelRuns live 0 = true ∧
    channelRuns noChannel 0 = false := by decide +kernel
theorem wit_Channels_2 :
    refreshing refreshed 0 = true ∧
    refreshing live 0 = false ∧
    channelRuns refreshed 0 = true ∧
    (chanOf refreshed 0).retrainFails = 0 ∧
    (chanOf failedOnce 0).retrainFails = 1 ∧
    refreshing failedOnce 0 = true ∧
    channelRuns failedOnce 0 = true ∧
    56 < channelsIn live 0 ∧
    channelRuns fewChannels 0 = true ∧
    channelsIn fewChannels 0 ≤ 56 ∧
    fewChannels.halves.length = 2 := by decide +kernel
theorem wit_Channels_3 :
    (chanOf live 0).retrainFails = 0 ∧
    1 ≤ (chanOf (chan0 fun c => { c with retrainFails := 1 }) 0).retrainFails ∧
    channelRuns (chan0 fun c => { c with retrainFails := 1 }) 0 = true := by decide +kernel
theorem wit_Channels_4 :
    tget pagedSeq.seqs 0 = some (seqAs .open none) ∧
    0 < seqPages pagedSeq 0 (0 / 64) ∧
    (seqAs .open none).st ≠ .closing ∧
    channelRuns pagedSeq 0 = true := by decide +kernel
theorem wit_Channels_5 :
    (halfOf rebuilding 0).rebuilding = true ∧
    (0 : Nat) < 2 ∧
    rebuilding.halves.length = 2 := by decide +kernel
theorem wit_Channels_6 :
    hubOn (windowAt 0) = true ∧
    0 + 360000000000 ≤ (windowAt 0).clk.localTime ∧
    (windowAt late).clk.localTime < late + 360000000000 := by decide +kernel

theorem wit_Errors_1 :
    channelRuns live 0 = true ∧
    looped live 1 0 = false ∧
    (chanOf live 0).corrected < 64 ∧
    (chanOf (chan0 fun c => { c with corrected := 64 }) 0).corrected = 64 ∧
    channelRuns (chan0 fun c => { c with corrected := 64 }) 0 = true ∧
    (chanOf live 0).uncorrectable < 16 ∧
    (0, 7) ∉ live.mem.badLines ∧
    (0, 7) ∈ badPattern.mem.badLines ∧
    channelRuns badPattern 0 = true := by decide +kernel
theorem wit_Errors_2 :
    repairable badPattern (64 * 0 + 0) 7 = true ∧
    repairable live (64 * 0 + 0) 7 = false := by decide +kernel
theorem wit_Errors_3 :
    hubOn pagedSeq = true ∧
    tget pagedSeq.seqs 0 = some (seqAs .open none) ∧
    (3 : Nat) < (seqAs .open none).committed ∧
    (seqAs .open none).st ≠ .closing ∧
    (chanOf pagedSeq 0).uncorrectable < 16 := by decide +kernel
theorem wit_Errors_4 :
    hubOn (busy (reqAs .running)) = true ∧
    tget (busy (reqAs .running)).sent.entries 5 = some entryAs := by decide +kernel
theorem wit_Errors_5 :
    tget stored.pats 0 = some patAs ∧
    diesOn stored = true ∧
    looped stored 5 (flashOf 0 1) = false := by decide +kernel
theorem wit_Errors_6 :
    hubOn struck = true ∧
    tget struck.cmds 1 = some (begunAs [] (c1 0x0404 [])) ∧
    (begunAs [] (c1 0x0404 [])).phase ≠ .replied := by decide +kernel
theorem wit_Errors_7 :
    diesOn live = true ∧
    (1 : Nat) < 2 ∧
    live.halves.length = 2 ∧
    (halfOf live 1).faulted = false ∧
    serving live = true := by decide +kernel

theorem wit_HaloRows_1 :
    pathAs [] 2 = haloOf (visionOn [] 2) 0 0 ∧
    runningFrame (visionOn [] 2) (pathPattern 0) (pathHalf 0) = some 0 ∧
    0 < (pathAs [] 2).credits ∧
    inOrder (pathAs [] 2) 7 = true ∧
    rowDue (visionOn [] 2) 0 7 0 = true := by decide +kernel
theorem wit_HaloRows_2 :
    pathAs [rowAs] 0 = haloOf (visionOn [rowAs] 0) 0 0 ∧
    (pathAs [rowAs] 0).credits = 0 ∧
    inOrder (pathAs [rowAs] 0) 7 = true ∧
    rowDue (visionOn [rowAs] 0) 0 7 0 = true ∧
    runningFrame (visionOn [rowAs] 0) (pathPattern 0) (pathHalf 0) = some 0 := by decide +kernel
theorem wit_HaloRows_3 :
    patBusy (visionOn [rowAs] 1) (pathPattern 0) = true ∧
    coresClocked (visionOn [rowAs] 1) = true ∧
    pathAs [rowAs] 1 = haloOf (visionOn [rowAs] 1) 0 0 ∧
    (pathAs [rowAs] 1).full = rowAs :: [] ∧
    rowAs.frame = 0 ∧
    rowAs.row = 7 ∧
    rowAs.layer = 0 ∧
    rowAs.row ≠ 8 ∧
    (coreOf (visionOn [rowAs] 1) (consumer (visionOn [rowAs] 1) 0)).halted = none := by decide +kernel
theorem wit_HaloRows_4 :
    (pathAs [] 2).full = [] ∧
    pathAs [] 2 = haloOf (visionOn [] 2) 0 0 ∧
    patBusy (visionOn [] 2) (pathPattern 0) = true ∧
    runningFrame (visionOn [] 2) (pathPattern 0) (halfOfCore (consumer (visionOn [] 2) 0)) = some 0 := by decide +kernel
theorem wit_HaloRows_5 :
    tget (visionOn [] 2).stages (stageKey 0 0) = some stageAs ∧
    tget (visionOn [] 2).pats 0 = some patConv ∧
    stageAs.flushed = false ∧
    stageAs.began.isSome = true ∧
    frameOver (visionOn [] 2) 0 true = true ∧
    frameOver (visionOn [] 2) 0 false = false := by decide +kernel
theorem wit_HaloRows_6 :
    (visionFlushed.stages.all fun e => e.2.flushed) = true ∧
    stageKey 0 0 / 2 = 0 ∧
    tget visionFlushed.stages (stageKey 0 0) = some { stageAs with flushed := true } := by decide +kernel

theorem wit_ServicePorts_1 :
    live.clk.sclk = true ∧
    alerting.health.alert = true ∧
    live.health.alert = false ∧
    alerting.clk.sclk = true ∧
    (0x33 : Nat) ≤ 0x33 ∧
    (0x1D : Nat) ≤ 0x1D := by decide +kernel
theorem wit_ServicePorts_2 :
    jtagRuns live = true ∧
    authPolicy live = true ∧
    live.sec.challengeAt ≤ live.clk.localTime ∧
    challenged.sec.challenge = some 5 ∧
    authPolicy challenged = true ∧
    jtagRuns challenged = true := by decide +kernel
theorem wit_ServicePorts_3 :
    jtagRuns openFused = true ∧
    debugPolicy openFused = 0 ∧
    openFused.sec.jtagOpen = false ∧
    jtagRuns portOpen = true ∧
    portOpen.sec.jtagOpen = true := by decide +kernel
theorem wit_ServicePorts_4 :
    hubOn (tracing late) = true ∧
    (tracing late).svc.trace.on = true ∧
    (tracing late).svc.trace.flags.testBit 1 = true ∧
    (tracing late).svc.prof.isSome = true ∧
    (tracing late).svc.trace.nextSample ≤ (tracing late).clk.localTime ∧
    (tracing (late + 1)).clk.localTime < (tracing (late + 1)).svc.trace.nextSync := by decide +kernel

theorem wit_BadParameters :
    begins (on (c0 1 [(20, 1)]) live) 1 0x0001 = some (c0 1 [(20, 1)]) ∧
    badField (c0 1 [(20, 1)]).pkt false = some 20 ∧
    (0x0001, Instr.nop 1) ∈ checkedRows 1 := by decide +kernel

theorem wit_ResetRegisters :
    hubOn live = true ∧
    live.link.up = true ∧
    live.link.perst = false ∧
    live.clk.sclk = true ∧
    (updatingNow 0).dev.update = some (1, 0) ∧
    0 + 200000000 ≤ (updatingNow 0).clk.localTime := by decide +kernel

theorem wit_Starts_fuseFault : fuseFault (readShadow badFuses) = true := by
  have h : debugPolicy (readShadow badFuses) = 2 := by decide +kernel
  simp [fuseFault, h]

/-- Zeros leave a remainder of 0 as it is. -/
theorem crcLoop_zero (n : Nat) : crcLoop n 0 0 = 0 := by
  induction n with
  | zero => rfl
  | succ n ih => simpa [crcLoop, crcByte, crcBit] using ih

/-- Four bytes of ones leave the remainder 0. -/
theorem crcLoop_ones (n : Nat) : crcLoop (n + 4) 0xFFFFFFFF 0xFFFFFFFF = crcLoop n 0 0 := by
  simp [crcLoop, crcByte, crcBit]

theorem wit_FirmwareSlots_crc : crc32c 65536 0xFFFFFFFF = 0xFFFFFFFF := by
  have h := crcLoop_ones 65532
  rw [crcLoop_zero, show 65532 + 4 = 65536 from rfl] at h
  rw [crc32c, h, Nat.zero_xor]

/-! ### Statements about every command: a command that answers -/

theorem wit_LocalTimeUnset : Instr.hotReset ≠ .powerOn ∧ ∃ t : State, exec .hotReset live = .next t :=
  ⟨by decide, _, rfl⟩

theorem wit_ResetRegisters_next :
    (∃ t : State, exec .hotReset live = .next t) ∧ (∃ t : State, exec .functionLevelReset live = .next t) ∧
      (∃ t : State, exec .perstAssert live = .next t) ∧ ∃ t : State, exec .activationPauseTimeout (updatingNow 0) = .next t :=
  ⟨⟨_, rfl⟩, ⟨_, rfl⟩, ⟨_, rfl⟩, ⟨_, rfl⟩⟩

theorem wit_DebugOpenedStays :
    (∃ t : State, exec (.nop 1) { live with sec := { live.sec with debugOpened := true } } = .next t) ∧
      ({ live with sec := { live.sec with debugOpened := true } } : State).sec.debugOpened = true := ⟨⟨_, rfl⟩, rfl⟩

theorem wit_FusesOnlyBlown : ∃ t : State, exec .trialComplete (onTrial 0) = .next t := ⟨_, rfl⟩

theorem wit_OnlyAcceptanceWrites : (∀ q : Nat, Instr.hotReset ≠ .replyAccept q) ∧ ∃ t : State, exec .hotReset live = .next t :=
  ⟨fun _ h => (nomatch h), _, rfl⟩

theorem wit_DividersStayLegal :
    legalCores live ∧ ∃ t : State, step ({ live with pending := [.droopStretch 2] } : State) = .next t :=
  ⟨by decide +kernel, _, rfl⟩

end Sys2Proof.Tests
end

namespace Sys2Proof.Machine

/-! ### Reads of LOCAL_TIME -/

theorem readTime_wide (u : Bool) {s : State} (h : reachable s = true) :
    readTime u true s = { s with
      clk := { s.clk with shadow := none }
      tx := s.tx ++ [.barRead (BitVec.ofNat 64 s.clk.localTime)] } := by
  simp [readTime, h, emit, now]

theorem readTime_low {s : State} (h : reachable s = true) :
    readTime false false s = { s with
      clk := { s.clk with shadow := some ((BitVec.ofNat 64 s.clk.localTime).extractLsb' 32 32) }
      tx := s.tx ++ [.barRead (((BitVec.ofNat 64 s.clk.localTime).extractLsb' 0 32).setWidth 64)] } := by
  simp [readTime, h, emit, now]

theorem readTime_high {s : State} (h : reachable s = true) :
    readTime true false s = { s with
      clk := { s.clk with shadow := none }
      tx := s.tx ++ [.barRead ((s.clk.shadow.getD ((BitVec.ofNat 64 s.clk.localTime).extractLsb' 32 32)).setWidth 64)] } := by
  simp [readTime, h, emit, now]

/-- Settles O6: each form of the read has its law, and the two readings of the upper half are that half's law with the shadow present
and absent. -/
theorem localTimeRead : Obligations.LocalTimeRead := by
  unfold Obligations.LocalTimeRead
  intro s hs
  refine ⟨fun u => congrArg Host.Outcome.next (readTime_wide u hs), congrArg Host.Outcome.next (readTime_low hs),
    fun h hh => congrArg Host.Outcome.next ?_, fun hn => congrArg Host.Outcome.next ?_⟩
  · rw [readTime_high hs, hh, Option.getD_some]
  · rw [readTime_high hs, hn, Option.getD_none]

/-! ### The commands that change something of what lasts -/

/-- The reply log is the only part that writing a reply may change. -/
theorem writeReply_lasting_replies (q : Nat) (b : BitVec 256) (e : Bool) (s : State) :
    ∃ r, lasting (writeReply q b e s) = { lasting s with replies := r } := by
  cases h : tget s.queues q with
  | none => exact ⟨replyLog s, by simp [writeReply, h, lasting]⟩
  | some x => exact ⟨_, writeReply_lasting q b e s x h⟩

theorem acceptCand_lasting (c : Cand) (s : State) :
    ∃ r, lasting (acceptCand c s) = { lasting s with replies := r } := by
  unfold acceptCand
  extract_lets lost arb taken written replied
  have hreplied : ∃ r, lasting replied = { lasting s with replies := r } := by
    unfold replied
    split
    · exact writeReply_lasting_replies _ _ _ taken
    · exact ⟨replyLog s, discardReply_lasting _ _ taken⟩
  obtain ⟨r, hr⟩ := hreplied
  refine ⟨r, Eq.trans ?_ hr⟩
  split
  · split
    · exact finalCommand_lasting ..
    · rfl
  · split
    · exact (finalRequest_lasting ..).trans (tally_lasting ..)
    · rfl

theorem acceptEvent_lasting (s : State) : ∃ r, lasting (acceptEvent s) = { lasting s with replies := r } := by
  unfold acceptEvent
  split
  · exact ⟨replyLog s, rfl⟩
  · dsimp only
    split
    · exact writeReply_lasting_replies ..
    · exact ⟨replyLog s, discardReply_lasting ..⟩

theorem replyAccept_lasting (q : Nat) (s : State) :
    ∃ r, lasting (replyAccept q s) = { lasting s with replies := r } := by
  have unchanged : ∃ r, lasting s = { lasting s with replies := r } := ⟨replyLog s, rfl⟩
  unfold replyAccept
  split
  · exact unchanged
  · split
    · exact unchanged
    · split
      · exact acceptCand_lasting ..
      · split
        · exact acceptEvent_lasting s
        · exact unchanged

/-- A completed trial may blow fuses (11 R358). -/
theorem trialComplete_lasting (s : State) :
    lasting (trialComplete s) = lasting s ∨ ∃ b, lasting (trialComplete s) = lasting (blow b s) := by
  unfold trialComplete
  split
  · exact .inl rfl
  · split
    · exact .inl rfl
    · exact .inr ⟨_, by rw [writeRecord_lasting, readShadow_lasting]⟩

/-- The loss of a feed may end DEBUG_OPENED (09 R277). -/
theorem feedLost_lasting (b : Bool) (mv : Nat) (s : State) :
    lasting (feedLost b mv s) = lasting s ∨ lasting (feedLost b mv s) = { lasting s with debug := false } := by
  unfold feedLost
  dsimp only
  split
  · split
    · exact .inl (by simp)
    · exact .inr (by rw [bothLost_lasting]; simp)
  · exact .inl rfl

/-- The first instruction over JTAG may open the port (09 R277). -/
theorem jtagFirst_lasting (s : State) :
    lasting (jtagFirst s) = lasting s ∨ lasting (jtagFirst s) = { lasting s with debug := true } := by
  unfold jtagFirst
  split
  · exact .inr (by rw [emit_jtagStatus_lasting, openPort_lasting])
  · exact .inl rfl

theorem unlock_lasting (root key sig : Nat) (s : State) :
    lasting (unlock root key sig s) = lasting s ∨ lasting (unlock root key sig s) = { lasting s with debug := true } := by
  unfold unlock
  split
  · exact .inl rfl
  · dsimp only
    split
    · exact .inr (by rw [emit_jtagStatus_lasting, openPort_lasting]; rfl)
    · exact .inl (by rw [emit_jtagStatus_lasting]; rfl)

/-- JTAG_FUSE_PROGRAM opens the port as any first instruction does, and may then blow bits. -/
theorem fuseProgram_lasting (field value : Nat) (s : State) :
    lasting (fuseProgram field value s) = lasting (jtagFirst s) ∨
      ∃ b, lasting (fuseProgram field value s) = lasting (blow b (jtagFirst s)) := by
  unfold fuseProgram
  dsimp only
  split
  · exact .inr ⟨_, rfl⟩
  · exact .inl rfl

/-! ### What each command keeps of what lasts -/

/-- The commands whose effect can reach LOCAL_TIME, DEBUG_OPENED, the fuse cells or the reply log. -/
def reachesLasting : Instr → Bool
  | .powerOn | .replyAccept _ | .trialComplete | .feedLost _ _ | .jtagUnlock _ _ _ | .jtagOpen | .jtagFuseProgram _ _ => true
  | _ => false

theorem execRegisterWrite_lasting {off : BitVec 16} {w64 : Bool} {v : BitVec 64} {s t : State}
    (h : execRegisterWrite off w64 v s = .next t) : lasting t = lasting s := by
  unfold execRegisterWrite at h
  extract_lets len at h
  split at h
  · exact nomatch h
  · split at h
    · exact Host.Outcome.next.inj h ▸ rfl
    · exact Host.Outcome.next.inj h ▸ writeReg_lasting ..

/-- Every other command runs one operation, whose law says that it keeps all of what lasts; only REGISTER_WRITE can also fault. -/
theorem exec_lasting {c : Instr} {s t : State} (hc : reachesLasting c = false) (h : exec c s = .next t) :
    lasting t = lasting s := by
  cases c
  case registerWrite => exact execRegisterWrite_lasting h
  case powerOn | replyAccept | trialComplete | feedLost | jtagUnlock | jtagOpen | jtagFuseProgram => cases hc
  all_goals
    cases h
    simp

/-! ### LOCAL_TIME -/

theorem jtagFirst_localTime (s : State) : (jtagFirst s).clk.localTime = s.clk.localTime :=
  (jtagFirst_lasting s).elim (congrArg Lasting.time) (congrArg Lasting.time)

/-- Of the commands that reach what lasts, each but POWER_ON reaches another part of it than LOCAL_TIME. -/
theorem exec_localTime_of_reachesLasting {c : Instr} {s t : State} (hc : reachesLasting c = true) (hp : c ≠ .powerOn)
    (h : exec c s = .next t) : t.clk.localTime = s.clk.localTime := by
  cases c
  case powerOn => exact absurd rfl hp
  case replyAccept q =>
    cases h
    obtain ⟨r, hr⟩ := replyAccept_lasting q s
    exact congrArg Lasting.time hr
  case trialComplete =>
    cases h
    rcases trialComplete_lasting s with hs | ⟨b, hb⟩
    · exact congrArg Lasting.time hs
    · exact congrArg Lasting.time hb
  case feedLost b mv =>
    cases h
    exact (feedLost_lasting b mv s).elim (congrArg Lasting.time) (congrArg Lasting.time)
  case jtagUnlock root key sig =>
    cases h
    exact (unlock_lasting root key sig s).elim (congrArg Lasting.time) (congrArg Lasting.time)
  case jtagOpen =>
    cases h
    exact jtagFirst_localTime s
  case jtagFuseProgram field value =>
    cases h
    rcases fuseProgram_lasting field value s with hs | ⟨b, hb⟩
    · exact (congrArg Lasting.time hs).trans (jtagFirst_localTime s)
    · exact (congrArg Lasting.time hb).trans (jtagFirst_localTime s)
  all_goals cases hc

/-- Settles O55: a command either keeps all of what lasts, LOCAL_TIME with it, or is one of those that reach another part. -/
theorem localTimeUnset : Obligations.LocalTimeUnset := by
  unfold Obligations.LocalTimeUnset
  intro c s t hp h
  cases hc : reachesLasting c with
  | false => exact congrArg Lasting.time (exec_lasting hc h)
  | true => exact exec_localTime_of_reachesLasting hc hp h

end Sys2Proof.Machine

namespace Sys2Proof.Machine

/-! ### Running a command that may begin (02 R40, R427) -/

/-- The equation through which a ready command's meaning is reached without opening `runCmd`. -/
theorem runCmd_of_ready {cid op : Nat} {c : Cmd} {s : State} (h : Ready s cid op c) (f : Cmd → State → State) :
    runCmd cid op f s = f c s := by
  obtain ⟨hbegins, hfields⟩ := h
  simp only [runCmd, hbegins, hfields]

/-! ### NOP (02 R68) -/

theorem nop_of_ready {cid : Nat} {c : Cmd} {s : State} (h : Ready s cid 0x0001 c) :
    nop cid s = done cid 0 (BitVec.ofNat 64 s.clk.localTime) s :=
  runCmd_of_ready h _

/-- Settles O19: a ready NOP is its own meaning, `done` with LOCAL_TIME, and `done` is `finish` with status DONE. -/
theorem nopRepliesTime : Obligations.NopRepliesTime := by
  unfold Obligations.NopRepliesTime
  intro cid c s h
  exact congrArg Host.Outcome.next (nop_of_ready h)

end Sys2Proof.Machine

namespace Sys2Proof.Machine

/-! ### What is held for requests and sequences: the candidates for requests (03 R92), the tables of requests and of sequences -/

/-- A candidate for a request's final reply. -/
def forRequest (c : Cand) : Bool :=
  match c.target with
  | .req _ => true
  | .cmd _ => false

theorem forRequest_of_req {c : Cand} {slot : Nat} (h : c.target = .req slot) : forRequest c = true := by
  simp [forRequest, h]

theorem target_of_forRequest_false {c : Cand} (h : forRequest c = false) : ∃ cid, c.target = .cmd cid := by
  cases ht : c.target with
  | req slot => simp [forRequest, ht] at h
  | cmd cid => exact ⟨cid, rfl⟩

/-- What is held for requests and sequences. -/
structure Held where
  cands   : List Cand
  reqs    : Tbl Req
  seqs    : Tbl Sequence
  seqGens : Tbl Nat

def held (s : State) : Held :=
  { cands := s.arb.cands.filter forRequest, reqs := s.reqs, seqs := s.seqs, seqGens := s.seqGens }

theorem mem_held_cands {k : Cand} {s : State} : k ∈ (held s).cands ↔ k ∈ s.arb.cands ∧ forRequest k = true :=
  List.mem_filter

/-! #### Operations that keep all of it -/

@[simp] theorem bobPost_held (u c a : Nat) (s : State) : held (bobPost u c a s) = held s := rfl
@[simp] theorem tally_held (i x n : Nat) (s : State) : held (tally i x n s) = held s := rfl
@[simp] theorem modEntry_held (k : Nat) (f : SEntry → SEntry) (s : State) : held (modEntry k f s) = held s := rfl
@[simp] theorem modApp_held (k : Nat) (f : Applique → Applique) (s : State) : held (modApp k f s) = held s := rfl

@[simp] theorem held_foldl {α : Type} (f : State → α → State) (h : ∀ s x, held (f s x) = held s) (l : List α) (s : State) :
    held (l.foldl f s) = held s :=
  List.foldlRecOn l f (motive := fun t => held t = held s) rfl fun t ht x _ => (h t x).trans ht

theorem postLost_held (s : State) : held (postLost s) = held s := by
  unfold postLost; split <;> rfl

theorem holdEvent_held (e : Event) (s : State) : held (holdEvent e s) = held s := by
  unfold holdEvent; (repeat' split) <;> rfl

theorem putUnmasked_held (e : Event) (s : State) : held (putUnmasked e s) = held s := by
  unfold putUnmasked
  split
  · rfl
  · exact (holdEvent_held e _).trans (postLost_held s)

theorem followBacklog_held (s : State) : held (followBacklog s) = held s := by
  unfold followBacklog setBitOnly
  split
  · rfl
  · exact putUnmasked_held _ _

@[simp] theorem postEvent_held (code object detail : Nat) (v : BitVec 64) (st : Status) (s : State) :
    held (postEvent code object detail v st s) = held s :=
  (followBacklog_held _).trans ((followBacklog_held _).trans (putUnmasked_held _ s))

/-! #### Records to the partner and final replies of commands -/

@[simp] theorem tell_held (b : RecBody) (k n : Nat) (t : Option Nat) (s : State) : held (tell b k n t s) = held s := by
  unfold tell; split <;> rfl

@[simp] theorem tellFence_held (i : Nat) (s : State) : held (tellFence i s) = held s := by
  unfold tellFence; split <;> simp

@[simp] theorem tellSeq_held (i : Nat) (s : State) : held (tellSeq i s) = held s := by
  unfold tellSeq; (repeat' split) <;> simp

/-- A candidate for a command is none for a request. -/
theorem submit_held_of_cmd {c : Cand} {cid : Nat} (h : c.target = .cmd cid) (s : State) : held (submit c s) = held s := by
  unfold submit
  simp only [h]
  split
  · simp [held, forRequest, h]
  · rfl

@[simp] theorem finish_held (cid : Nat) (st : Status) (d : Nat) (v : BitVec 64) (fl : BitVec 16) (a : OnAccept) (s : State) :
    held (finish cid st d v fl a s) = held s := by
  unfold finish
  split
  · rfl
  · dsimp only
    split
    · rfl
    · split
      · rfl
      · exact submit_held_of_cmd rfl _

@[simp] theorem done_held (cid d : Nat) (v : BitVec 64) (s : State) : held (done cid d v s) = held s := finish_held ..

@[simp] theorem settleCancels_held (s : State) : held (settleCancels s) = held s :=
  held_foldl _ (fun s _ => done_held _ _ _ s) _ s

/-! #### Keys and pages (09 R287, R297) -/

@[simp] theorem retireKeys_held (t : Nat) (s : State) : held (retireKeys t s) = held s := by
  unfold retireKeys
  split
  · rfl
  · split
    · rfl
    · split
      · rfl
      · exact postEvent_held _ _ _ _ _ _

@[simp] theorem freePagesOf_held (p : PageUse → Bool) (s : State) : held (freePagesOf p s) = held s :=
  held_foldl _ (fun s t => retireKeys_held t s) _ _

theorem restitchPages_held (hit : Nat → Bool) (t : Nat) (s : State) : held (restitchPages hit t s) = held s := by
  unfold restitchPages
  split
  · rfl
  · split
    · split
      · rfl
      · exact retireKeys_held _ _
    · rfl

theorem postEvent_pages (code object detail : Nat) (v : BitVec 64) (st : Status) (s : State) :
    (postEvent code object detail v st s).pages = s.pages := by
  have hbit (b : Bool) (t : State) : (setBitOnly 11 b t).pages = t.pages := (congrArg State.pages (setBitOnly_frame 11 b t) :)
  exact (hbit _ _).trans ((hbit _ _).trans (congrArg State.pages (putUnmasked_frame _ s) :))

@[simp] theorem retireKeys_pages (t : Nat) (s : State) : (retireKeys t s).pages = s.pages := by
  unfold retireKeys
  split
  · rfl
  · split
    · rfl
    · split
      · rfl
      · exact postEvent_pages _ _ _ _ _ _

/-- Freed pages are gone from the page table; every other page is as it was. -/
@[simp] theorem freePagesOf_pages (p : PageUse → Bool) (s : State) :
    (freePagesOf p s).pages = s.pages.filter fun e => !p e.2.use :=
  List.foldlRecOn _ _ (motive := fun t : State => t.pages = s.pages.filter fun e => !p e.2.use) rfl
    fun t ht k _ => (retireKeys_pages k t).trans ht

/-! #### The rotation (03 R113) -/

theorem migratePart_frame (pi o : Nat) (s : State) : { migratePart pi o s with pats := s.pats } = s := by
  unfold migratePart; (repeat' split) <;> rfl

theorem migrateParts_frame (s : State) : { migrateParts s with pats := s.pats } = s := by
  have keep {t u : State} (h : { u with pats := t.pats } = t) (ht : { t with pats := s.pats } = s) :
      { u with pats := s.pats } = s := (congrArg (fun x : State => { x with pats := s.pats }) h).trans ht
  refine List.foldlRecOn _ _ (motive := fun t : State => { t with pats := s.pats } = s) rfl fun t ht e _ => ?_
  exact List.foldlRecOn _ _ (motive := fun t : State => { t with pats := s.pats } = s) ht
    fun u hu o _ => keep (migratePart_frame e.1 o u) hu

theorem loadWanted_frame (s : State) : { loadWanted s with pats := s.pats, halves := s.halves } = s := by
  unfold loadWanted
  refine (congrArg (fun x : State => { x with pats := s.pats, halves := s.halves }) (migrateParts_frame _)).trans ?_
  refine List.foldlRecOn _ _ (motive := fun t : State => { t with pats := s.pats, halves := s.halves } = s) rfl
    fun t ht e _ => ?_
  split
  · exact ht
  · exact ht

theorem rotate_frame (s : State) :
    { rotate s with pats := s.pats, halves := s.halves, sliceAt := s.sliceAt } = s := by
  have keep (x : State) := congrArg (fun y : State => { y with pats := s.pats, halves := s.halves, sliceAt := s.sliceAt })
    (loadWanted_frame x)
  unfold rotate
  split
  · split
    · exact keep _
    · exact keep s
  · exact keep _

@[simp] theorem rotate_held (s : State) : held (rotate s) = held s := (congrArg held (rotate_frame s) :)
@[simp] theorem rotate_pages (s : State) : (rotate s).pages = s.pages := (congrArg State.pages (rotate_frame s) :)

/-! #### Appliqué versions (03 R115-R118) -/

theorem drainPrevious_held (i : Nat) (s : State) : held (drainPrevious i s) = held s := by
  unfold drainPrevious; (repeat' split) <;> simp

theorem freeRetired_held (i : Nat) (s : State) : held (freeRetired i s) = held s := by
  unfold freeRetired
  split
  · rfl
  · split
    · simp only [rotate_held, postEvent_held, freePagesOf_held]; rfl
    · rfl

@[simp] theorem drainApplique_held (i : Nat) (s : State) : held (drainApplique i s) = held s :=
  (freeRetired_held i _).trans (drainPrevious_held i s)

/-- Draining an appliqué frees pages and takes none. -/
theorem drainApplique_pages_subset (i : Nat) (s : State) : (drainApplique i s).pages ⊆ s.pages := by
  have hprevious : (drainPrevious i s).pages ⊆ s.pages := by
    unfold drainPrevious
    (repeat' split) <;> simp [postEvent_pages, modApp]
  have hretired (t : State) : (freeRetired i t).pages ⊆ t.pages := by
    unfold freeRetired
    (repeat' split) <;> simp [postEvent_pages]
  exact List.Subset.trans (hretired _) hprevious

theorem newVersion_held (i b : Nat) (w : List (BitVec 32)) (s : State) : held (newVersion i b w s) = held s := by
  simp [newVersion]

@[simp] theorem releasePlace_held (t : Target) (i : Nat) (s : State) : held (releasePlace t i s) = held s := by
  unfold releasePlace; (repeat' split) <;> simp

@[simp] theorem adaptDone_held (a : Adapt) (i v : Nat) (s : State) : held (adaptDone a i v s) = held s := by
  unfold adaptDone
  split
  · rfl
  · dsimp only
    split
    · rfl
    · rw [newVersion_held, modApp_held]

/-! #### Entries and pages of sequences (05 R154-R156, R174) -/

theorem storeLists_held (i : Nat) (s : State) : held (storeLists i s) = held s := by
  refine (held_foldl _ ?_ _ _).trans (held_foldl _ ?_ _ s) <;> exact fun _ _ => rfl

@[simp] theorem settlePages_held (i len : Nat) (s : State) : held (settlePages i len s) = held s := by
  unfold settlePages
  split
  · rfl
  · exact (restitchPages_held _ _ _).trans (storeLists_held i _)

theorem putEntry_held (e : Nat × Nat × Bool) (n data : Nat) (s : State) : held (putEntry e n data s) = held s := by
  unfold putEntry; split <;> rfl

theorem copySlot_held (i : Nat) (ls : List AttnLayer) (s : State) (c : Nat × Nat) : held (copySlot i ls s c) = held s := by
  refine held_foldl _ (fun t l => ?_) _ s
  split
  · exact putEntry_held _ _ _ t
  · rfl

@[simp] theorem moveEntries_held (i base : Nat) (path : List Nat) (s : State) :
    held (moveEntries i base path s) = held s := by
  unfold moveEntries
  split
  · rfl
  · exact held_foldl _ (copySlot_held i _) _ s

@[simp] theorem tellCommitted_held (i first count : Nat) (q : Sequence) (s : State) :
    held (tellCommitted i first count q s) = held s := by
  unfold tellCommitted
  split
  · exact held_foldl _ (fun t j => tell_held _ _ _ _ t) _ s
  · rfl

/-! #### Operations on the entry of a request or a sequence -/

@[simp] theorem modReq_held (k : Nat) (f : Req → Req) (s : State) :
    held (modReq k f s) = { held s with reqs := tmod s.reqs k f } := rfl
@[simp] theorem modSeq_held (i : Nat) (f : Sequence → Sequence) (s : State) :
    held (modSeq i f s) = { held s with seqs := tmod (held s).seqs i f } := rfl
@[simp] theorem commitSeq_held (i len : Nat) (s : State) :
    held (commitSeq i len s) = { held s with seqs := tmod (held s).seqs i fun q => { q with committed := len } } := rfl

/-- A trimmed sequence counts the pages that it loses. -/
@[simp] theorem trimSeq_held (i len : Nat) (s : State) : held (trimSeq i len s) = { held s with
    seqs := tmod (held s).seqs i fun q => { q with freed := q.freed + trimCount i len s } } := by
  unfold trimSeq trimCount
  cases h : tget s.seqs i with
  | none => simp only [held, tmod_none _ h]
  | some q => simp only [storeLists_held, modSeq_held, freePagesOf_held]

end Sys2Proof.Machine

namespace Sys2Proof.Machine

/-! ### Rivals for one handle (03 R93, Table 3-8) -/

theorem sameTarget_iff {a b : Cand} : sameTarget a b = true ↔ a.target = b.target ∧ a.gen = b.gen := by
  simp [sameTarget]

/-- Candidates for one handle have the same rivals. -/
theorem sameTarget_congr {c d : Cand} (h : sameTarget c d = true) (e : Cand) : sameTarget c e = sameTarget d e := by
  obtain ⟨htarget, hgen⟩ := sameTarget_iff.1 h
  simp only [sameTarget, htarget, hgen]

theorem mem_rivals {c e : Cand} {l : List Cand} :
    e ∈ rivals c l ↔ e ∈ l ∧ sameTarget c e = true ∧ (e.tick = c.tick ∨ c.sweep = true) := by
  simp [rivals]

theorem self_mem_rivals {c : Cand} {l : List Cand} (h : c ∈ l) : c ∈ rivals c l :=
  mem_rivals.2 ⟨h, sameTarget_iff.2 ⟨rfl, rfl⟩, .inl rfl⟩

theorem bestOf_eq_or_mem (c : Cand) (l : List Cand) : bestOf c l = c ∨ bestOf c l ∈ l := by
  induction l with
  | nil => exact .inl rfl
  | cons d t ih =>
    unfold bestOf
    dsimp only
    split
    · exact .inr (.head t)
    · exact ih.imp_right (.tail d)

theorem bestOf_mem {c : Cand} {l : List Cand} (h : c ∈ l) : bestOf c l ∈ l :=
  (bestOf_eq_or_mem c l).elim (fun hc => hc.symm ▸ h) id

/-- No candidate of the list comes before the chosen one in Table 3-8. -/
theorem candRank_bestOf_le (c : Cand) {e : Cand} {l : List Cand} (h : e ∈ l) :
    candRank (bestOf c l).status ≤ candRank e.status := by
  induction l with
  | nil => cases h
  | cons d t ih =>
    unfold bestOf
    dsimp only
    cases h with
    | head => split <;> omega
    | tail _ ht =>
      have := ih ht
      split <;> omega

/-! ### What acceptance of a request's final reply does to the candidates for requests (03 R92) -/

theorem writeReply_held (q : Nat) (b : BitVec 256) (e : Bool) (s : State) : held (writeReply q b e s) = held s := by
  have hmsix (v : Nat) (t : State) : held (sendMsix v t) = held t := by
    unfold sendMsix; split <;> rfl
  unfold writeReply
  split
  · rfl
  · dsimp only
    split
    · exact hmsix _ _
    · rfl

theorem discardReply_held (q : Nat) (e : Bool) (s : State) : held (discardReply q e s) = held s := rfl

@[simp] theorem countReply_held (t : Option Nat) (st : Status) (d : Nat) (s : State) : held (countReply t st d s) = held s := by
  unfold countReply; (repeat' split) <;> simp

@[simp] theorem countSentinel_held (c : Cand) (s : State) : held (countSentinel c s) = held s := by
  unfold countSentinel; split <;> rfl

@[simp] theorem countCancel_held (a : OnAccept) (s : State) : held (countCancel a s) = held s := by
  unfold countCancel; split <;> rfl

@[simp] theorem discardClosing_held (i : Nat) (s : State) : held (discardClosing i s) = held s := by
  unfold discardClosing; split <;> rfl

@[simp] theorem traceReq_held (code handle : Nat) (s : State) : held (traceReq code handle s) = held s := by
  unfold traceReq traceAny traceRec
  dsimp only
  (repeat' split) <;> rfl

theorem updateFence_held (f : BitVec 32) (n : BitVec 32) (st : Status) (s : State) : held (updateFence f n st s) = held s := by
  have hset (i : Nat) (v : BitVec 64) : held (setFence i v s) = held s := tellFence_held i _
  unfold updateFence
  dsimp only
  (repeat' split) <;> simp [hset]

@[simp] theorem replyFence_held (f : Option (BitVec 32)) (n : BitVec 32) (st : Status) (s : State) :
    held (replyFence f n st s) = held s := by
  unfold replyFence
  split
  · rfl
  · split
    · split <;> rfl
    · exact updateFence_held ..

theorem commitDone_cands (slot : Nat) (r : Req) (s : State) : (held (commitDone slot r s)).cands = (held s).cands := by
  unfold commitDone
  split
  · rfl
  · split
    · simp
    · dsimp only
      split <;> simp

theorem requestEffects_cands (slot : Nat) (r : Req) (st : Status) (s : State) :
    (held (requestEffects slot r st s)).cands = (held s).cands := by
  have hcommit : (held (if st = .done then commitDone slot r s else s)).cands = (held s).cands := by
    split
    · exact commitDone_cands slot r s
    · rfl
  unfold requestEffects
  generalize (if st = .done then commitDone slot r s else s) = t at hcommit ⊢
  dsimp only
  split
  · split
    · rw [adaptDone_held, hcommit]
    · rw [releasePlace_held, hcommit]
  · exact hcommit

/-- The effects of a request's final reply put no candidate for a request to the arbiter and take none away. -/
theorem finalRequest_cands (slot : Nat) (r : Req) (c : Cand) (written : Bool) (s : State) :
    (held (finalRequest slot r c written s)).cands = (held s).cands := by
  unfold finalRequest
  dsimp only
  split <;> simp [requestEffects_cands]

/-! ### REPLY_ACCEPT (02 R45) -/

/-- Every candidate for the handle of an accepted request is gone, and those for other requests wait on. -/
theorem acceptCand_cands {d : Cand} {slot : Nat} (h : d.target = .req slot) (s : State) :
    (held (acceptCand d s)).cands = (s.arb.cands.filter fun e => !sameTarget d e).filter forRequest := by
  unfold acceptCand
  extract_lets lost cleared taken written replied
  have hreplied : held replied = held taken := by
    unfold replied
    split
    · exact writeReply_held ..
    · exact discardReply_held ..
  rw [h]
  dsimp only
  split
  · rw [finalRequest_cands, tally_held, hreplied]; rfl
  · rw [hreplied]; rfl

/-- With Bus Master Enable at 1 the accepted candidate's reply is all that is written. -/
theorem acceptCand_lasting_of_busMaster {d : Cand} {x : RQueue} {s : State} (hq : tget s.queues d.queue = some x)
    (hbus : s.link.busMaster = true) :
    lasting (acceptCand d s) = { lasting s with
      replies := replyLog s ++ [.reply d.queue (x.tail % 2 ^ x.sizeLog2) (withReserved d.queue x.tail
        (replyBits d.tag d.seqNo d.status d.flags d.detail d.value s.clk.localTime)), .tailWord x.tailAddr (x.tail + 1)] } := by
  unfold acceptCand
  extract_lets lost cleared taken written replied
  have hwritten : replied = writeReply d.queue
      (replyBits d.tag d.seqNo d.status d.flags d.detail d.value (now taken)) false taken := if_pos hbus
  refine Eq.trans ?_ ((congrArg lasting hwritten).trans (writeReply_lasting d.queue _ false taken x hq))
  split
  · split
    · exact finalCommand_lasting ..
    · rfl
  · split
    · exact (finalRequest_lasting ..).trans (tally_lasting ..)
    · rfl

/-- The arbiter takes the queue's first candidate and answers with the best of its rivals. -/
theorem replyAccept_eq_acceptCand {q : Nat} {x : RQueue} {c : Cand} {s : State} (hx : tget s.queues q = some x)
    (hub : hubOn s = true) (hloop : looped s 0 0 = false) (htick : x.lastTick ≠ some s.clk.localTime)
    (hfind : s.arb.cands.find? (fun e => e.queue = q) = some c) :
    replyAccept q s = acceptCand (bestOf c (rivals c s.arb.cands)) s := by
  have hfree : ¬(hubOn s = false ∨ looped s 0 0 = true ∨ x.lastTick = some (now s)) := by
    simp [hub, hloop, now, htick]
  simp only [replyAccept, hx, hfree, if_false, hfind]

/-- Settles O10: the arbiter accepts the best of the first candidate's rivals, which is for the same handle; what waits afterwards
for a request waited before for another handle, and everything else that waits is for a command. -/
theorem oneFinalReply : Obligations.OneFinalReply := by
  unfold Obligations.OneFinalReply
  intro q x c d s hx hub hloop htick hfind hd
  have hc : c ∈ s.arb.cands := List.mem_of_find?_eq_some hfind
  obtain ⟨hmem, hsame, -⟩ := mem_rivals.1 (hd ▸ bestOf_mem (self_mem_rivals hc))
  refine ⟨hsame, hmem, fun e he => hd ▸ candRank_bestOf_le c he,
    fun e he hs ht => mem_rivals.2 ⟨he, hs, .inl ht⟩, fun slot hslot => ⟨acceptCand d s, ?_, fun e he => ?_, ?_⟩⟩
  · exact congrArg Host.Outcome.next ((replyAccept_eq_acceptCand hx hub hloop htick hfind).trans (by rw [hd]))
  · cases hr : forRequest e with
    | false =>
      obtain ⟨cid, hcid⟩ := target_of_forRequest_false hr
      simp [sameTarget, hslot, hcid]
    | true =>
      have hdslot : d.target = .req slot := (sameTarget_iff.1 hsame).1.symm.trans hslot
      have hleft := acceptCand_cands hdslot s ▸ mem_held_cands.2 ⟨he, hr⟩
      rw [sameTarget_congr hsame e]
      simpa using (List.mem_filter.1 (List.mem_filter.1 hleft).1).2
  · intro hbus hq
    subst hq
    exact congrArg Lasting.replies (acceptCand_lasting_of_busMaster hx hbus)

end Sys2Proof.Machine

namespace Sys2Proof.Machine

/-! ### Commands that begin, and their sequences -/

theorem cmds_of_begins {s : State} {cid op : Nat} {c : Cmd} (h : begins s cid op = some c) : tget s.cmds cid = some c := by
  unfold begins at h
  split at h
  · split at h
    · next hc _ => exact hc.trans h
    · cases h
  · cases h

theorem seqs_of_ownSeq {s : State} {c : Cmd} {i : Nat} {q : Sequence} (h : ownSeq s c = some (i, q)) :
    tget s.seqs i = some q := by
  have hfind : findSeq s (le c.pkt 20 4) = some (i, q) := by
    unfold ownSeq at h
    split at h
    · next hf =>
      split at h
      · exact hf.trans h
      · cases h
    · cases h
  unfold findSeq at hfind
  split at hfind
  · next hget =>
    split at hfind
    · cases hfind
      exact hget
    · cases hfind
  · cases hfind

/-! ### REQ_COMMIT (05 R173-R175) -/

theorem reqCommit_of_ready {cid : Nat} {c : Cmd} {s : State} {i : Nat} {q : Sequence} {pr : Provisional}
    (h : Ready s cid 0x0204 c) (hq : ownSeq s c = some (i, q)) (hst : q.st = .awaitingCommit) (hprov : q.prov = some pr)
    (hleaf : le c.pkt 24 1 = 0xFF ∨ le c.pkt 24 1 < pr.parents.length) :
    reqCommit cid s = begun cid [i, pr.slot, pr.gen] s := by
  have hinside : ¬(le c.pkt 24 1 ≠ 0xFF ∧ pr.parents.length ≤ le c.pkt 24 1) := by omega
  rw [reqCommit, runCmd_of_ready h]
  simp only [hq, hst, hprov, hinside, if_false]

theorem commitWaitEnd_of_begun {cid : Nat} {c : Cmd} {s : State} {i : Nat} {q : Sequence} {pr : Provisional}
    (h : Begun s cid 0x0204 c) (haux : c.aux = [i, pr.slot, pr.gen]) (hfree : producerFree s pr.slot pr.gen = true)
    (hq : ownSeq s c = some (i, q)) (hst : q.st = .awaitingCommit) (hprov : q.prov = some pr) :
    commitWaitEnd cid s = commitPath cid i (le c.pkt 24 1) q pr s := by
  simp [commitWaitEnd, show inProgress s cid 0x0204 = some c from h, haux, hfree, hq, hst, hprov]

/-- The path to LEAF commits, the sequence counts the pages that it loses, and is OPEN. -/
theorem commitPath_seqs (cid leaf : Nat) {i : Nat} {q : Sequence} (pr : Provisional) {s : State} (h : tget s.seqs i = some q) :
    ∃ f, tget (commitPath cid i leaf q pr s).seqs i = some { q with
      st := .open, prov := none, freed := q.freed + f, committed := pr.base + (pathTo pr.parents 64 leaf).length } := by
  have hseqs : (commitPath cid i leaf q pr s).seqs = (held (commitPath cid i leaf q pr s)).seqs := rfl
  have hs : (held s).seqs = s.seqs := rfl
  rw [hseqs]
  unfold commitPath
  simp [hs, h]

/-! ### REQ_CANCEL (03 R119, R120) -/

/-- The submission of REQ_CANCEL for one match. -/
def putCancelled (cid : Nat) (s : State) (e : Nat × Req) : State :=
  submit { reqCand s e.1 e.2 .cancelled 3 (reqValue s e.1 e.2) 0 false with act := .cancelled cid } s

/-- The matches without a final reply. -/
def undecided (s : State) (c : Cmd) : List (Nat × Req) := (matching s c).filter fun e => e.2.final.isNone

/-- What REQ_CANCEL holds when it begins: the number of matches that have a final reply, the number of its CANCELLED replies accepted,
and the handles of the other matches. -/
def cancelAux (s : State) (c : Cmd) : List Nat :=
  [(matching s c).length - (undecided s c).length, 0] ++ (undecided s c).map fun e => reqHandle e.2.gen e.1

theorem reqCancel_of_ready {cid : Nat} {c : Cmd} {s : State} (h : Ready s cid 0x0205 c) (hring : ringForeign s c = false) :
    reqCancel cid s = settleCancels ((undecided s c).foldl (putCancelled cid) (begun cid (cancelAux s c) s)) := by
  rw [reqCancel, runCmd_of_ready h]
  simp only [hring]
  rfl

theorem foldl_putCancelled_frame (cid : Nat) (l : List (Nat × Req)) (s : State) :
    { l.foldl (putCancelled cid) s with arb := s.arb, svc := s.svc } = s :=
  List.foldlRecOn l _ (motive := fun t : State => { t with arb := s.arb, svc := s.svc } = s) rfl fun t ht _ _ =>
    (congrArg (fun x : State => { x with arb := s.arb, svc := s.svc }) (submit_frame _ t) :).trans ht

theorem foldl_putCancelled_cands_mono {cid : Nat} {k : Cand} {s : State} (l : List (Nat × Req)) (h : k ∈ s.arb.cands) :
    k ∈ (l.foldl (putCancelled cid) s).arb.cands :=
  List.foldlRecOn l _ (motive := fun t : State => k ∈ t.arb.cands) h fun t ht _ _ => by
    rcases submit_cands _ t with hc | hc
    · rwa [putCancelled, hc]
    · rw [putCancelled, hc]
      exact List.mem_append_left _ ht

/-- A request that has no final reply and is not left to the partner takes its CANCELLED candidate. -/
theorem putCancelled_mem {cid : Nat} {e : Nat × Req} {s : State} (hreq : tget s.reqs e.1 = some e.2)
    (hfinal : e.2.final = none) (hown : leftToPartner s e.2.mirror = false) :
    ∃ k ∈ (putCancelled cid s e).arb.cands, k.target = .req e.1 ∧ k.gen = e.2.gen ∧ k.status = .cancelled ∧ k.detail = 3 := by
  refine ⟨{ reqCand s e.1 e.2 .cancelled 3 (reqValue s e.1 e.2) 0 false with act := .cancelled cid }, ?_, rfl, rfl, rfl, rfl⟩
  simp [putCancelled, submit, reqCand, hreq, hfinal, hown]

theorem foldl_putCancelled_mem {cid : Nat} {e : Nat × Req} {l : List (Nat × Req)} {s : State} (he : e ∈ l)
    (hreq : tget s.reqs e.1 = some e.2) (hfinal : e.2.final = none) (hown : leftToPartner s e.2.mirror = false) :
    ∃ k ∈ (l.foldl (putCancelled cid) s).arb.cands,
      k.target = .req e.1 ∧ k.gen = e.2.gen ∧ k.status = .cancelled ∧ k.detail = 3 := by
  obtain ⟨before, after, rfl⟩ := List.append_of_mem he
  have hframe := foldl_putCancelled_frame cid before s
  rw [List.foldl_append, List.foldl_cons]
  generalize before.foldl (putCancelled cid) s = t at hframe ⊢
  have hreqs : t.reqs = s.reqs := (congrArg State.reqs hframe :)
  have hleft : leftToPartner t e.2.mirror = leftToPartner s e.2.mirror := (congrArg (leftToPartner · e.2.mirror) hframe :)
  obtain ⟨k, hk, hfields⟩ := putCancelled_mem (cid := cid) (hreqs ▸ hreq) hfinal (hleft.trans hown)
  exact ⟨k, foldl_putCancelled_cands_mono after hk, hfields⟩

/-! ### REQ_QUERY (03 R121) -/

/-- Counting how far a running request has come changes no generation. -/
theorem countSoFar_gen {slot : Nat} {r r' : Req} {s : State} (h : tget s.reqs slot = some r)
    (h' : tget (countSoFar slot s).reqs slot = some r') : r'.gen = r.gen := by
  unfold countSoFar at h'
  simp only [h] at h'
  split at h'
  · obtain rfl : countUse _ r = r' := by simpa [stepFree, h] using h'
    rfl
  · rw [Option.some.inj (h.symm.trans h')]

theorem reqQuery_of_match {cid slot : Nat} {c : Cmd} {r r' : Req} {s : State} (h : Ready s cid 0x0206 c)
    (hring : ringForeign s c = false) (hfirst : earliest (matching s c) = some (slot, r))
    (hr' : tget (countSoFar slot s).reqs slot = some r') :
    reqQuery cid s = done cid (matching s c).length (BitVec.ofNat 64 (reqHandle r'.gen slot))
      (useSpares 3 (writeFields (le c.pkt 32 8) (entryFields (countSoFar slot s) slot r') (countSoFar slot s))) := by
  rw [reqQuery, runCmd_of_ready h]
  simp [hring, hfirst, hr']

theorem reqQuery_of_no_match {cid : Nat} {c : Cmd} {s : State} (h : Ready s cid 0x0206 c) (hring : ringForeign s c = false)
    (hnone : matching s c = []) : reqQuery cid s = done cid 0 0 s := by
  rw [reqQuery, runCmd_of_ready h]
  simp [hring, hnone, earliest, sortBy]

/-! ### SEQ_CLOSE (05 R179) -/

/-- The entry of a sequence that a SEQ_CLOSE closes. -/
def closedBy (cid : Nat) (q : Sequence) : Sequence := { q with st := .closing, prov := none, closer := some cid, freed := 0 }

theorem endReqs_frame (slots : List Nat) (st : Status) (d : Nat) (s : State) :
    { endReqs slots st d s with arb := s.arb, svc := s.svc } = s :=
  List.foldlRecOn slots _ (motive := fun t : State => { t with arb := s.arb, svc := s.svc } = s) rfl fun t ht k _ =>
    (congrArg (fun x : State => { x with arb := s.arb, svc := s.svc }) (endReq_frame k st d t) :).trans ht

/-- SEQ_CLOSE changes the sequence's entry; its candidates, counts and records touch no other table. -/
theorem seqClose_frame {cid i : Nat} {c : Cmd} {q : Sequence} {s : State} (h : Ready s cid 0x0207 c)
    (hq : ownSeq s c = some (i, q)) (hst : q.st ≠ .closing) :
    { seqClose cid s with
      arb := s.arb, svc := s.svc, pair := s.pair, tx := s.tx, free := s.free, cmds := s.cmds } =
    modSeq i (closedBy cid) s := by
  have htold (aux : List Nat) :
      { tellSeq i (modSeq i (closedBy cid) (begun cid aux s)) with
        arb := s.arb, svc := s.svc, pair := s.pair, tx := s.tx, free := s.free, cmds := s.cmds } =
      modSeq i (closedBy cid) s :=
    (congrArg (fun x : State => { x with arb := s.arb, svc := s.svc, cmds := s.cmds })
      (tellSeq_frame i (modSeq i (closedBy cid) (begun cid aux s))) :)
  rw [seqClose, runCmd_of_ready h]
  simp only [hq, hst, if_false]
  split
  · exact (congrArg (fun x : State => { x with
      arb := s.arb, svc := s.svc, pair := s.pair, tx := s.tx, free := s.free, cmds := s.cmds })
      (endReqs_frame _ .cancelled 3 _) :).trans (htold _)
  · exact htold _

/-- A sequence's pages are freed and then its entry, whose generation advances. -/
def withoutSeq (i gen : Nat) (s : State) : State :=
  let t := freePagesOf (fun u => seqKv i u || seqList i u) s
  { t with seqs := tdel t.seqs i, seqGens := tset t.seqGens i (nextGen 16383 gen) }

theorem withoutSeq_held (i gen : Nat) (s : State) : held (withoutSeq i gen s) =
    { held s with seqs := tdel s.seqs i, seqGens := tset s.seqGens i (nextGen 16383 gen) } :=
  congrArg (fun x : Held => { x with seqs := tdel x.seqs i, seqGens := tset x.seqGens i (nextGen 16383 gen) })
    (freePagesOf_held (fun u => seqKv i u || seqList i u) s)

theorem withoutSeq_pages (i gen : Nat) (s : State) :
    (withoutSeq i gen s).pages = s.pages.filter fun e => !(seqKv i e.2.use || seqList i e.2.use) := freePagesOf_pages _ s

/-- The appliqué of a freed sequence drains. -/
def freedSeq (i : Nat) (q : Sequence) (s : State) : State :=
  q.applique.elim (withoutSeq i q.gen s) fun a => drainApplique a.1 (withoutSeq i q.gen s)

theorem freedSeq_held (i : Nat) (q : Sequence) (s : State) : held (freedSeq i q s) =
    { held s with seqs := tdel s.seqs i, seqGens := tset s.seqGens i (nextGen 16383 q.gen) } := by
  unfold freedSeq
  cases q.applique with
  | none => exact withoutSeq_held i q.gen s
  | some a => exact (drainApplique_held a.1 _).trans (withoutSeq_held i q.gen s)

theorem freedSeq_pages_subset (i : Nat) (q : Sequence) (s : State) :
    (freedSeq i q s).pages ⊆ s.pages.filter fun e => !(seqKv i e.2.use || seqList i e.2.use) := by
  rw [← withoutSeq_pages i q.gen]
  unfold freedSeq
  cases q.applique with
  | none => exact List.Subset.refl _
  | some a => exact drainApplique_pages_subset a.1 _

section
variable {i k : Nat} {q : Sequence} {s : State} (hq : tget s.seqs i = some q) (hst : q.st = .closing)
  (hcloser : q.closer = some k) (hidle : seqReqs s i = [])
include hq hst hcloser hidle

theorem seqClosed_of_closing : seqClosed i s = finish k .done (q.freed + countPages (seqKv i) s) (BitVec.ofNat 64 q.committed)
    (discardedFlag (((tget s.cmds k).map fun c => c.aux.getD 1 0) == some 1)) .none (retireKeys q.tenant (freedSeq i q s)) := by
  have hready : ¬(q.st ≠ .closing ∨ (seqReqs s i).isEmpty = false) := by simp [hst, hidle]
  unfold freedSeq
  cases happ : q.applique with
  | none =>
    simp only [seqClosed, hq, hcloser, hready, if_false, happ]
    rfl
  | some a =>
    simp only [seqClosed, hq, hcloser, hready, if_false, happ]
    rfl

theorem seqClosed_held : held (seqClosed i s) =
    { held s with seqs := tdel s.seqs i, seqGens := tset s.seqGens i (nextGen 16383 q.gen) } := by
  rw [seqClosed_of_closing hq hst hcloser hidle, finish_held, retireKeys_held, freedSeq_held]

theorem seqClosed_pages_subset :
    (seqClosed i s).pages ⊆ s.pages.filter fun e => !(seqKv i e.2.use || seqList i e.2.use) := by
  have hfinish (d : Nat) (v : BitVec 64) (fl : BitVec 16) (t : State) :
      (finish k .done d v fl .none t).pages = t.pages := (congrArg State.pages (finish_frame k .done d v fl .none t) :)
  rw [seqClosed_of_closing hq hst hcloser hidle, hfinish, retireKeys_pages]
  exact freedSeq_pages_subset i q s

end

/-- Settles O18, clause by clause, each command by its own law: `commitPath_seqs` for the commit, `foldl_putCancelled_mem` for the
CANCELLED candidates, which the end of a REQ_CANCEL keeps, and `seqClosed_held` for the entry that is freed. -/
theorem sequenceCommands : Obligations.SequenceCommands := by
  unfold Obligations.SequenceCommands
  intro cid c s
  refine ⟨?commit, ?commitWaitEnd, ?cancel, ?query, ?queryNone, ?close, ?closeComplete⟩
  case commit =>
    intro i q pr h hq hst hprov hleaf
    refine congrArg Host.Outcome.next ((reqCommit_of_ready h hq hst hprov hleaf).trans ?_)
    exact congrArg (fun x : Tbl Cmd => { s with cmds := x }) (tmod_some _ (cmds_of_begins h.1))
  case commitWaitEnd =>
    intro i q pr h haux hfree hq hst hprov
    obtain ⟨f, hf⟩ := commitPath_seqs cid (le c.pkt 24 1) pr (seqs_of_ownSeq hq)
    exact ⟨_, f, congrArg Host.Outcome.next (commitWaitEnd_of_begun h haux hfree hq hst hprov), hf⟩
  case cancel =>
    intro h hring
    refine ⟨_, congrArg Host.Outcome.next (reqCancel_of_ready h hring), ?_, fun e he hfinal hreq hown => ?_, fun hnone => ?_⟩
    · exact (congrArg Held.reqs (settleCancels_held _)).trans
        (congrArg State.reqs (foldl_putCancelled_frame cid (undecided s c) (begun cid (cancelAux s c) s)) :)
    · have hlive : e ∈ undecided s c := List.mem_filter.2 ⟨he, by rw [hfinal]; rfl⟩
      obtain ⟨k, hk, htarget, hfields⟩ :=
        foldl_putCancelled_mem (cid := cid) (s := begun cid (cancelAux s c) s) hlive hreq hfinal hown
      have hheld := mem_held_cands.2 ⟨hk, forRequest_of_req htarget⟩
      rw [← settleCancels_held] at hheld
      exact ⟨k, (mem_held_cands.1 hheld).1, htarget, hfields⟩
    · simp [undecided, cancelAux, hnone]
  case query =>
    intro slot r r' h hring hfirst hreq hr'
    have hgen := countSoFar_gen hreq hr'
    refine ⟨hgen, congrArg Host.Outcome.next ?_⟩
    rw [reqQuery_of_match h hring hfirst hr', hgen]
    rfl
  case queryNone =>
    exact fun h hring hnone => congrArg Host.Outcome.next (reqQuery_of_no_match h hring hnone)
  case close =>
    intro i q h hq hst
    have hframe := seqClose_frame h hq hst
    have hseqs : (seqClose cid s).seqs = tmod s.seqs i (closedBy cid) := (congrArg State.seqs hframe :)
    refine ⟨seqClose cid s, rfl, ?_, (congrArg State.pages hframe :), (congrArg State.reqs hframe :)⟩
    rw [hseqs, tget_tmod_same, seqs_of_ownSeq hq]
    rfl
  case closeComplete =>
    intro i k q hq hst hcloser hidle
    have hheld := seqClosed_held hq hst hcloser hidle
    have hseqs : (seqClosed i s).seqs = tdel s.seqs i := congrArg Held.seqs hheld
    have hgens : (seqClosed i s).seqGens = tset s.seqGens i (nextGen 16383 q.gen) := congrArg Held.seqGens hheld
    refine ⟨seqClosed i s, rfl, ?_, ?_, fun e he => ?_⟩
    · rw [hseqs, tget_tdel_same]
    · rw [hgens, tget_tset_same]
      rfl
    · simpa using (List.mem_filter.1 (seqClosed_pages_subset hq hst hcloser hidle he)).2

end Sys2Proof.Machine

namespace Sys2Proof.Machine

/-! ### Health bits and events change the arbiter and the summary alone (02 R46, 14 R424) -/

theorem putUnmasked_arb (e : Event) (s : State) : ∃ a, putUnmasked e s = { s with arb := a } :=
  ⟨_, (congrArg (fun x : State => { x with arb := (putUnmasked e s).arb }) (putUnmasked_frame e s) :)⟩

/-- The arbiter and the HEALTH_SUMMARY are all that differs. -/
def ArbHealth (s t : State) : Prop := ∃ a h, t = { s with arb := a, health := h }

theorem ArbHealth.refl (s : State) : ArbHealth s s := ⟨_, _, rfl⟩
theorem ArbHealth.trans {s t u : State} (h : ArbHealth s t) (g : ArbHealth t u) : ArbHealth s u := by
  obtain ⟨a, b, rfl⟩ := h
  obtain ⟨c, d, rfl⟩ := g
  exact ⟨c, d, rfl⟩
theorem ArbHealth.frame {s t : State} (h : ArbHealth s t) : { t with arb := s.arb, health := s.health } = s := by
  obtain ⟨a, b, rfl⟩ := h
  rfl

theorem putUnmasked_arbHealth (e : Event) (s : State) : ArbHealth s (putUnmasked e s) :=
  (putUnmasked_arb e s).imp fun _ h => ⟨s.health, h⟩

theorem setBitOnly_arbHealth (i : Nat) (v : Bool) (s : State) : ArbHealth s (setBitOnly i v s) :=
  ⟨_, _, (congrArg (fun x : State => { x with arb := (setBitOnly i v s).arb, health := (setBitOnly i v s).health })
    (setBitOnly_frame i v s) :)⟩

theorem refreshBacklog_arbHealth (s : State) : ArbHealth s (refreshBacklog s) :=
  (setBitOnly_arbHealth ..).trans (setBitOnly_arbHealth ..)

theorem setHealth_arbHealth (i : Nat) (v : Bool) (s : State) : ArbHealth s (setHealth i v s) :=
  (setBitOnly_arbHealth i v s).trans (refreshBacklog_arbHealth _)

theorem postEvent_arbHealth (code object detail : Nat) (v : BitVec 64) (st : Status) (s : State) :
    ArbHealth s (postEvent code object detail v st s) :=
  (putUnmasked_arbHealth _ s).trans (refreshBacklog_arbHealth _)

theorem feedTurns_arbHealth (b back : Bool) (s : State) : ArbHealth s (feedTurns b back s) := by
  unfold feedTurns
  split
  · exact (setHealth_arbHealth ..).trans (postEvent_arbHealth ..)
  · exact .refl s

/-! ### DEBUG_OPENED (09 R277) -/

@[simp] theorem feedTurns_power (b back : Bool) (s : State) : (feedTurns b back s).power = s.power := by
  obtain ⟨a, h, e⟩ := feedTurns_arbHealth b back s
  rw [e]

/-- A feed that is lost while the other one is present ends nothing of what lasts. -/
theorem feedLost_lasting_of_other_present (b : Bool) (mv : Nat) {s : State} (h : (feedOf s !b).present = true) :
    lasting (feedLost b mv s) = lasting s := by
  have hother : (feedOf (feedTurns b false (modFeed (!b) (fun f => if f.present then { f with mv := mv } else f)
      (modFeed b (fun _ => { present := false, mv := 0 }) s))) !b).present = true := by
    cases b <;> simp_all [feedOf, modFeed]
  unfold feedLost
  split
  · simp [hother]
  · rfl

/-- Settles O56: of the commands that reach what lasts, JTAG sets DEBUG_OPENED, and only POWER_ON and the loss of the second feed
clear it. -/
theorem debugOpenedStays : Obligations.DebugOpenedStays := by
  unfold Obligations.DebugOpenedStays
  intro c s t h hopen
  have kept {t : State} (h : lasting t = lasting s) : t.sec.debugOpened = true := (congrArg Lasting.debug h).trans hopen
  have opened {t u : State} (h : lasting t = lasting u ∨ lasting t = { lasting u with debug := true })
      (hu : u.sec.debugOpened = true) : t.sec.debugOpened = true :=
    h.elim (fun h => (congrArg Lasting.debug h).trans hu) (congrArg Lasting.debug)
  cases hc : reachesLasting c with
  | false => exact .inl (kept (exec_lasting hc h))
  | true =>
    cases c
    case powerOn => exact .inr (.inl rfl)
    case feedLost b mv =>
      cases hb : (feedOf s !b).present with
      | false => exact .inr (.inr ⟨b, mv, rfl, hb⟩)
      | true => cases h; exact .inl (kept (feedLost_lasting_of_other_present b mv hb))
    case replyAccept q =>
      cases h
      obtain ⟨r, hr⟩ := replyAccept_lasting q s
      exact .inl ((congrArg Lasting.debug hr).trans hopen)
    case trialComplete =>
      cases h
      rcases trialComplete_lasting s with hs | ⟨b, hb⟩
      · exact .inl (kept hs)
      · exact .inl ((congrArg Lasting.debug hb).trans hopen)
    case jtagUnlock root key sig =>
      cases h
      exact .inl (opened (unlock_lasting root key sig s) hopen)
    case jtagOpen =>
      cases h
      exact .inl (opened (jtagFirst_lasting s) hopen)
    case jtagFuseProgram field value =>
      cases h
      have hfirst := opened (jtagFirst_lasting s) hopen
      rcases fuseProgram_lasting field value s with hs | ⟨b, hb⟩
      · exact .inl ((congrArg Lasting.debug hs).trans hfirst)
      · exact .inl ((congrArg Lasting.debug hb).trans hfirst)
    all_goals cases hc

/-! ### Fuse cells (09 Table 9-1) -/

/-- No bit of a fuse cell goes from 1 to 0. -/
def cellsKept (a b : Lasting) : Prop :=
  onlyBlown a.cellA b.cellA ∧ onlyBlown a.cellB b.cellB ∧ onlyBlown a.cellC b.cellC

theorem cellsKept_refl (a : Lasting) : cellsKept a a := by simp [cellsKept, onlyBlown]

theorem cellsKept_blow (bits : BitVec 4096) (s : State) : cellsKept (lasting s) (lasting (blow bits s)) := by
  have absorb (a : BitVec 4096) : a &&& (a ||| bits) = a := by
    refine BitVec.eq_of_getLsbD_eq fun i _ => ?_
    cases ha : a.getLsbD i <;> simp [ha]
  exact ⟨absorb _, absorb _, absorb _⟩

theorem cellsKept_trans {a b c : Lasting} (h : cellsKept a b) (g : cellsKept b c) : cellsKept a c := by
  have trans {x y z : BitVec 4096} (hxy : onlyBlown x y) (hyz : onlyBlown y z) : onlyBlown x z := by
    rw [onlyBlown, ← hxy, BitVec.and_assoc, hyz]
  exact ⟨trans h.1 g.1, trans h.2.1 g.2.1, trans h.2.2 g.2.2⟩

theorem jtagFirst_cells (s : State) : cellsKept (lasting s) (lasting (jtagFirst s)) := by
  rcases jtagFirst_lasting s with hs | hs <;> exact hs ▸ cellsKept_refl (lasting s)

theorem powerOn_fuses (s : State) : lasting (powerOn s) = lasting s ∨ (powerOn s).fuses = { s.fuses with shadow := 0 } := by
  unfold powerOn
  split
  · exact .inl rfl
  · exact .inr rfl

/-- Of the commands that reach what lasts, a completed trial and JTAG_FUSE_PROGRAM blow bits and no other touches a cell; POWER_ON
clears the shadow alone. -/
theorem exec_cells_of_reachesLasting {c : Instr} {s t : State} (hc : reachesLasting c = true) (h : exec c s = .next t) :
    cellsKept (lasting s) (lasting t) := by
  cases c
  case powerOn =>
    cases h
    rcases powerOn_fuses s with hs | hf
    · exact hs ▸ cellsKept_refl _
    · simp [cellsKept, onlyBlown, lasting, hf]
  case replyAccept q =>
    cases h
    obtain ⟨r, hr⟩ := replyAccept_lasting q s
    exact hr ▸ cellsKept_refl _
  case trialComplete =>
    cases h
    rcases trialComplete_lasting s with hs | ⟨b, hb⟩
    · exact hs ▸ cellsKept_refl _
    · exact hb ▸ cellsKept_blow b s
  case feedLost b mv =>
    cases h
    rcases feedLost_lasting b mv s with hs | hs <;> exact hs ▸ cellsKept_refl (lasting s)
  case jtagUnlock root key sig =>
    cases h
    rcases unlock_lasting root key sig s with hs | hs <;> exact hs ▸ cellsKept_refl (lasting s)
  case jtagOpen =>
    cases h
    exact jtagFirst_cells s
  case jtagFuseProgram field value =>
    cases h
    refine cellsKept_trans (jtagFirst_cells s) ?_
    rcases fuseProgram_lasting field value s with hs | ⟨b, hb⟩
    · exact hs ▸ cellsKept_refl _
    · exact hb ▸ cellsKept_blow b _
  all_goals cases hc

/-- Settles O57: a command either keeps all of what lasts, the fuse cells with it, or is one of those that may blow bits. -/
theorem fusesOnlyBlown : Obligations.FusesOnlyBlown := by
  unfold Obligations.FusesOnlyBlown
  intro c s t h
  suffices cellsKept (lasting s) (lasting t) from this
  cases hc : reachesLasting c with
  | false => exact exec_lasting hc h ▸ cellsKept_refl _
  | true => exact exec_cells_of_reachesLasting hc h

/-! ### The reply log (02 R45) -/

theorem jtagFirst_replies (s : State) : replyLog (jtagFirst s) = replyLog s :=
  (jtagFirst_lasting s).elim (congrArg Lasting.replies) (congrArg Lasting.replies)

/-- POWER_ON keeps what has left the module; its record on the UART is no reply. -/
theorem powerOn_replies (s : State) : replyLog (powerOn s) = replyLog s := by
  unfold powerOn
  split
  · rfl
  · exact congrArg Lasting.replies (emit_uart_lasting 0x0003 0 _)

/-- Of the commands that reach what lasts, each but REPLY_ACCEPT reaches another part of it than the reply log. -/
theorem exec_replies_of_reachesLasting {c : Instr} {s t : State} (hc : reachesLasting c = true)
    (hq : ∀ q : Nat, c ≠ .replyAccept q) (h : exec c s = .next t) : replyLog t = replyLog s := by
  cases c
  case powerOn => cases h; exact powerOn_replies s
  case replyAccept q => exact absurd rfl (hq q)
  case trialComplete =>
    cases h
    rcases trialComplete_lasting s with hs | ⟨b, hb⟩
    · exact congrArg Lasting.replies hs
    · exact congrArg Lasting.replies hb
  case feedLost b mv =>
    cases h
    exact (feedLost_lasting b mv s).elim (congrArg Lasting.replies) (congrArg Lasting.replies)
  case jtagUnlock root key sig =>
    cases h
    exact (unlock_lasting root key sig s).elim (congrArg Lasting.replies) (congrArg Lasting.replies)
  case jtagOpen => cases h; exact jtagFirst_replies s
  case jtagFuseProgram field value =>
    cases h
    rcases fuseProgram_lasting field value s with hs | ⟨b, hb⟩
    · exact (congrArg Lasting.replies hs).trans (jtagFirst_replies s)
    · exact (congrArg Lasting.replies hb).trans (jtagFirst_replies s)
  all_goals cases hc

/-- Settles O58: a command other than REPLY_ACCEPT either keeps all of what lasts, the reply log with it, or reaches another part. -/
theorem onlyAcceptanceWrites : Obligations.OnlyAcceptanceWrites := by
  unfold Obligations.OnlyAcceptanceWrites
  intro c s t hq h
  cases hc : reachesLasting c with
  | false => exact congrArg Lasting.replies (exec_lasting hc h)
  | true => exact exec_replies_of_reachesLasting hc hq h

end Sys2Proof.Machine

namespace Sys2Proof.Machine

/-! ### Legal divider settings (12 R368) -/

/-- Both divider settings of a core are legal. -/
abbrev legalCore (c : Core) : Prop := legalDivider c.ceiling = true ∧ legalDivider c.powerDiv = true

theorem legalCores_iff {s : State} : legalCores s ↔ s.cores.length = 8 ∧ ∀ c ∈ s.cores, legalCore c := by
  simp [legalCores, dividers]

theorem legalCores_of_dividers {s t : State} (h : dividers t = dividers s) (hs : legalCores s) : legalCores t := by
  rwa [legalCores, h]

theorem legalCore_reset : legalCore Core.reset := by decide

/-- A core that does not exist reads as one at reset. -/
theorem legalCore_coreOf {s : State} (h : legalCores s) (k : Nat) : legalCore (coreOf s k) := by
  unfold coreOf
  rw [List.getD_eq_getElem?_getD]
  cases hk : s.cores[k]? with
  | none => exact legalCore_reset
  | some c => exact (legalCores_iff.1 h).2 c (List.mem_of_getElem? hk)

theorem legalCores_modCore {s : State} (h : legalCores s) (k : Nat) {f : Core → Core} (hf : legalCore (f (coreOf s k))) :
    legalCores (modCore k f s) := by
  obtain ⟨hlen, hall⟩ := legalCores_iff.1 h
  refine legalCores_iff.2 ⟨by simpa [modCore] using hlen, fun c hc => ?_⟩
  rcases List.mem_or_eq_of_mem_set hc with hmem | rfl
  · exact hall c hmem
  · exact hf

theorem legalCores_setDivider {s : State} (h : legalCores s) (k : Nat) {f : Core → Core} (hf : legalCore (f (coreOf s k))) :
    legalCores (setDivider k f s) := by
  unfold setDivider
  dsimp only
  split
  · exact legalCores_modCore h k hf
  · exact legalCores_modCore h k hf

theorem legalDivider_iff {d : Nat} : legalDivider d = true ↔ d = 4 ∨ d = 5 ∨ d = 6 ∨ d = 8 := by
  simp [legalDivider, or_assoc]

theorem legalDivider_max {a b : Nat} (ha : legalDivider a = true) (hb : legalDivider b = true) :
    legalDivider (max a b) = true :=
  (max_choice a b).elim (fun h => h.symm ▸ ha) (fun h => h.symm ▸ hb)

theorem legalDivider_slower (d : Nat) : legalDivider (slower d) = true := by
  unfold slower; (repeat' split) <;> rfl

theorem legalDivider_faster (d : Nat) : legalDivider (faster d) = true := by
  unfold faster; (repeat' split) <;> rfl

theorem legalDivider_ceilingFor (t : Int) : legalDivider (ceilingFor t) = true := by
  unfold ceilingFor; (repeat' split) <;> rfl

theorem legalCores_foldl {α : Type} {f : State → α → State} (hf : ∀ s x, legalCores s → legalCores (f s x)) (l : List α)
    {s : State} (h : legalCores s) : legalCores (l.foldl f s) :=
  List.foldlRecOn l f h fun t ht x _ => hf t x ht

/-! #### The operations that set dividers -/

theorem stepDown_legal (k : Nat) {s : State} (h : legalCores s) : legalCores (stepDown k s) :=
  legalCores_setDivider h k ⟨(legalCore_coreOf h k).1, legalDivider_slower _⟩

theorem stepUp_legal (k : Nat) {s : State} (h : legalCores s) : legalCores (stepUp k s) :=
  legalCores_setDivider h k ⟨(legalCore_coreOf h k).1, legalDivider_faster _⟩

theorem powerWindow_legal (slow : Bool) (mw : Nat) (coreW blockW : List Nat) (mv : Nat × Nat) {s : State} (h : legalCores s) :
    legalCores (powerWindow slow mw coreW blockW mv s) := by
  have hmeasure : legalCores (measure coreW blockW mv s) := legalCores_of_dividers (measure_dividers ..) h
  unfold powerWindow
  split
  · exact h
  · dsimp only
    split
    · exact legalCores_of_dividers (slowWindow_dividers ..) hmeasure
    · unfold fastWindow
      dsimp only
      split
      · exact legalCores_of_dividers (refreshThrottled_dividers _) (legalCores_foldl (fun _ k => stepDown_legal k) _ hmeasure)
      · exact hmeasure

theorem powerStepDown_legal (mean : Nat) {s : State} (h : legalCores s) : legalCores (powerStepDown mean s) := by
  unfold powerStepDown
  split
  · exact h
  · split
    · exact h
    · split
      · exact h
      · dsimp only
        split
        · exact legalCores_of_dividers (refreshThrottled_dividers _) (stepDown_legal _ h)
        · exact h

theorem powerStepUp_legal {s : State} (h : legalCores s) : legalCores (powerStepUp s) := by
  unfold powerStepUp
  split
  · exact h
  · split
    · dsimp only
      split
      · exact legalCores_of_dividers (refreshThrottled_dividers _) (stepUp_legal _ h)
      · exact h
    · exact h

theorem throttleRelease_legal (k : Nat) {s : State} (h : legalCores s) : legalCores (throttleRelease k s) := by
  have hk := legalCore_coreOf h k
  unfold throttleRelease
  split
  · exact h
  · split
    · split
      · exact legalCores_of_dividers (serveCore_dividers ..) (legalCores_setDivider h k ⟨rfl, hk.2⟩)
      · exact h
    · split
      · exact legalCores_of_dividers (refreshThrottled_dividers _) (legalCores_setDivider h k ⟨legalDivider_faster _, hk.2⟩)
      · exact h

theorem throttle_legal (k : Nat) (t : Int) {s : State} (h : legalCores s) : legalCores (throttle k t s) := by
  have hk := legalCore_coreOf h k
  have hset := legalCores_setDivider h k (f := fun c => { c with tj := t, ceiling := max c.ceiling (ceilingFor t) })
    ⟨legalDivider_max hk.1 (legalDivider_ceilingFor t), hk.2⟩
  unfold throttle
  extract_lets set halted both time
  have hhalted : legalCores halted := by
    unfold halted
    split
    · exact legalCores_of_dividers (haltCore_dividers ..) hset
    · exact hset
  have hboth : legalCores both := by
    unfold both
    split
    · exact legalCores_of_dividers (haltCore_dividers ..) hhalted
    · exact hhalted
  exact legalCores_modCore hboth k (legalCore_coreOf hboth k)

theorem judgePair_legal (raw : List (Option Int)) (k : Nat) {s : State} (h : legalCores s) :
    legalCores (judgePair raw s k) := by
  refine legalCores_of_dividers ?_ h
  unfold judgePair
  split
  · split
    · dsimp only
      split <;> simp
    · simp
  · simp
  · simp

theorem sensorSample_legal (raw : List (Option Int)) {s : State} (h : legalCores s) : legalCores (sensorSample raw s) := by
  have htaken : legalCores (takeReadings raw s) := legalCores_of_dividers (takeReadings_dividers ..) h
  unfold sensorSample
  split
  · exact h
  · dsimp only
    split
    · exact htaken
    · split
      · split
        · exact legalCores_of_dividers (trip_dividers ..) htaken
        · exact htaken
      · split
        · exact htaken
        · refine legalCores_of_dividers ((judgeOutlet_dividers _).trans (refreshThrottled_dividers _)) ?_
          exact legalCores_foldl (fun _ k => throttle_legal k _) _ (legalCores_foldl (fun _ k => judgePair_legal raw k) _ htaken)

/-! #### Resets put every core at ÷4 -/

theorem moduleReset_dividers (source : Nat) (s : State) :
    dividers (moduleReset source s) = List.replicate s.cores.length (4, 4) := by
  simp [moduleReset, dividers, bobPost, emit, Core.reset, Function.comp_def]

theorem legalCores_of_replicate {s : State} (h : dividers s = List.replicate 8 (4, 4)) : legalCores s := by
  rw [legalCores, h]; decide

theorem moduleReset_legal (source : Nat) {s : State} (h : legalCores s) : legalCores (moduleReset source s) :=
  legalCores_of_replicate ((legalCores_iff.1 h).1 ▸ moduleReset_dividers source s)

theorem linkEvent_legal (source : Nat) (up : Bool) {s : State} (h : legalCores s) : legalCores (linkEvent source up s) :=
  moduleReset_legal source h

theorem reset_dividers : dividers State.reset = List.replicate 8 (4, 4) := by
  simp [dividers, State.reset, Core.reset]

theorem powerOn_legal {s : State} (h : legalCores s) : legalCores (powerOn s) := by
  unfold powerOn
  split
  · exact h
  · exact legalCores_of_replicate reset_dividers

theorem holdUpEnd_legal {s : State} (h : legalCores s) : legalCores (holdUpEnd s) := by
  unfold holdUpEnd
  split
  · exact h
  · split
    · exact h
    · dsimp only
      split
      · split
        · exact moduleReset_legal 0 h
        · exact h
      · exact h

theorem sweepComplete_legal {s : State} (h : legalCores s) : legalCores (sweepComplete s) := by
  unfold sweepComplete
  split
  · exact h
  · split
    · exact h
    · dsimp only
      split
      · exact h
      · exact moduleReset_legal _ h
      · exact h

theorem pauseTimeout_legal {s : State} (h : legalCores s) : legalCores (pauseTimeout s) := by
  unfold pauseTimeout
  split
  · exact h
  · split
    · exact moduleReset_legal 5 h
    · exact h

theorem perstAssert_legal {s : State} (h : legalCores s) : legalCores (perstAssert s) := by
  unfold perstAssert
  split
  · exact h
  · dsimp only
    split
    · exact linkEvent_legal 1 false h
    · exact h

/-- A link reset of a module whose link is up. -/
theorem linked_legal (p : Bool) (source : Nat) (up : Bool) {s : State} (h : legalCores s) :
    legalCores (if p then linkEvent source up s else s) := by
  split
  · exact linkEvent_legal source up h
  · exact h

theorem linkDisable_legal {s : State} (h : legalCores s) : legalCores (linkDisable s) := by
  unfold linkDisable
  split
  · exact linkEvent_legal 1 false h
  · exact h

theorem watchdogReset_dividers (s : State) : dividers (watchdogReset s) = dividers s := by
  unfold watchdogReset; split <;> simp

/-! ### Every command and the tick -/

theorem execRegisterWrite_dividers {off : BitVec 16} {w64 : Bool} {v : BitVec 64} {s t : State}
    (h : execRegisterWrite off w64 v s = .next t) : dividers t = dividers s := by
  unfold execRegisterWrite at h
  extract_lets len at h
  split at h
  · exact nomatch h
  · split at h
    · exact Host.Outcome.next.inj h ▸ rfl
    · exact Host.Outcome.next.inj h ▸ writeReg_dividers ..

theorem exec_legal {c : Instr} {s t : State} (hs : legalCores s) (h : exec c s = .next t) : legalCores t := by
  cases c
  case registerWrite => exact legalCores_of_dividers (execRegisterWrite_dividers h) hs
  case sweepComplete => cases h; exact sweepComplete_legal hs
  case activationPauseTimeout => cases h; exact pauseTimeout_legal hs
  case powerOn => cases h; exact powerOn_legal hs
  case perstAssert => cases h; exact perstAssert_legal hs
  case hotReset => cases h; exact linked_legal _ 1 false hs
  case linkDisable => cases h; exact linkDisable_legal hs
  case functionLevelReset => cases h; exact linked_legal _ 6 true hs
  case d3hotExit => cases h; exact linked_legal _ 6 true hs
  case holdUpEnd => cases h; exact holdUpEnd_legal hs
  case watchdogReset => cases h; exact legalCores_of_dividers (watchdogReset_dividers s) hs
  case sensorSample raw => cases h; exact sensorSample_legal raw hs
  case throttleRelease k => cases h; exact throttleRelease_legal k hs
  case powerWindow => cases h; exact powerWindow_legal _ _ _ _ _ hs
  case powerStepDown mean => cases h; exact powerStepDown_legal mean hs
  case powerStepUp => cases h; exact powerStepUp_legal hs
  all_goals
    cases h
    exact legalCores_of_dividers (by simp) hs

theorem tick_dividers (s : State) : dividers (tick s) = dividers s := by
  unfold tick
  dsimp only
  split
  · rw [holdCounters_dividers]
    simp only [dividers, List.map_map]
    exact (by simp : dividers (storeOne (storeOne (storeOne (storeOne s)))) = dividers s)
  · simp

/-- Settles O59: a step is a command, which keeps legal settings (`exec_legal`), or a tick, which sets none. -/
theorem dividersStayLegal : Obligations.DividersStayLegal := by
  unfold Obligations.DividersStayLegal
  intro s t hs h
  unfold step at h
  split at h
  · exact Host.Outcome.next.inj h ▸ legalCores_of_dividers (tick_dividers s) hs
  · refine exec_legal ?_ h
    exact hs

/-- Settles O60: each of the eight cores is `Core.reset`. -/
theorem resetDividersLegal : Obligations.ResetDividersLegal := by
  unfold Obligations.ResetDividersLegal
  refine ⟨legalCores_of_replicate reset_dividers, fun d hd => ?_⟩
  rw [reset_dividers] at hd
  exact List.eq_of_mem_replicate hd

/-- Settles O1: `step` on a queue with a front command. -/
theorem stepRunsFrontCommand : Obligations.StepRunsFrontCommand := by
  unfold Obligations.StepRunsFrontCommand
  intro c rest s h
  simp only [step, h]

end Sys2Proof.Machine

namespace Sys2Proof.Machine

/-! ### Doorbells (02 R32, R43, R52, Table 2-3) -/

theorem doorbell_of_active {v : BitVec 64} {s : State} {r : Ring} (hs : reachable s = true) (hb : s.dev.state ≠ .booting)
    (hr : tget s.rings (bitsOf v.toNat 19 0) = some r) (hst : r.st = .active)
    (htail : bitsOf v.toNat 47 24 < 2 ^ r.sizeLog2) :
    doorbell true v s = latchDoorbell (bitsOf v.toNat 19 0) (bitsOf v.toNat 47 24) r s := by
  simp [doorbell, hs, hb, hr, hst, Nat.not_le.2 htail]

/-- A DOORBELL write that has a cause to be ignored is counted with it. -/
theorem doorbell_of_cause {w64 : Bool} {v : BitVec 64} {s : State} {k : Nat} (hs : reachable s = true)
    (hk : doorbellCause w64 v s = some k) : doorbell w64 v s = dropDoorbell k (bitsOf v.toNat 19 0) s := by
  unfold doorbellCause at hk
  unfold doorbell
  split at hk
  · cases hk; simp [hs, *]
  · split at hk
    · cases hk; simp [hs, *]
    · split at hk
      · cases hk; simp [hs, *]
      · split at hk
        case h_4 =>
          split at hk
          · cases hk
          · cases hk
            simp_all
        all_goals cases hk; simp [hs, *]

theorem replyDoorbell_of_bound {v : BitVec 64} {s : State} {x : RQueue} (hs : reachable s = true)
    (hx : tget s.queues (bitsOf v.toNat 10 0) = some x) (hhead : bitsOf v.toNat 43 24 < 2 ^ x.sizeLog2)
    (hunread : (bitsOf v.toNat 43 24 + 2 ^ x.sizeLog2 - headIndex x) % 2 ^ x.sizeLog2 ≤ x.unread.length) :
    replyDoorbell true v s = { s with
      queues := tset s.queues (bitsOf v.toNat 10 0)
        { x with unread := x.unread.drop ((bitsOf v.toNat 43 24 + 2 ^ x.sizeLog2 - headIndex x) % 2 ^ x.sizeLog2) } } := by
  simp [replyDoorbell, hs, hx, Nat.not_le.2 hhead, Nat.not_lt.2 hunread]

/-- A REPLY_DOORBELL write that has a cause to be ignored is counted with it. -/
theorem replyDoorbell_of_cause {w64 : Bool} {v : BitVec 64} {s : State} {k : Nat} (hs : reachable s = true)
    (hk : replyDoorbellCause w64 v s = some k) : replyDoorbell w64 v s = dropDoorbell k (bitsOf v.toNat 10 0) s := by
  unfold replyDoorbellCause at hk
  unfold replyDoorbell
  split at hk
  · cases hk; simp [hs, *]
  · split at hk
    · cases hk; simp [hs, *]
    · split at hk
      · cases hk
      · cases hk
        simp_all

/-- Settles O3: a doorbell that names an ACTIVE ring is latched, and a reply doorbell of a bound queue counts what was consumed. -/
theorem doorbellsTaken : Obligations.DoorbellsTaken := by
  unfold Obligations.DoorbellsTaken
  intro v s hs
  refine ⟨fun r hb hr hst htail => congrArg Host.Outcome.next ?_, fun x hx hhead hunread => congrArg Host.Outcome.next ?_⟩
  · exact doorbell_of_active hs hb hr hst htail
  · exact replyDoorbell_of_bound hs hx hhead hunread

/-- Settles O4: each cause of an ignored doorbell is the one that it is counted with. -/
theorem doorbellsIgnored : Obligations.DoorbellsIgnored := by
  unfold Obligations.DoorbellsIgnored
  intro w64 v s hs
  exact ⟨fun k hk => congrArg Host.Outcome.next (doorbell_of_cause hs hk),
    fun k hk => congrArg Host.Outcome.next (replyDoorbell_of_cause hs hk)⟩

/-! ### The admin ring and the bases (02 R34, Tables 2-6, 2-7) -/

theorem bindQueue_of_bound {q : Nat} {d : BitVec 256} {s : State} (h : (tget s.queues q).isSome = true ∨ validDesc q d = true) :
    bindQueue q d s = some { s with
      queues := if (tget s.queues q).isSome then s.queues else tset s.queues q (queueOf d) } := by
  unfold bindQueue
  split
  · rfl
  · next hfree => rw [if_pos (h.resolve_left hfree)]

theorem enableAdmin_of_valid {sz : BitVec 5} {d : BitVec 256} {s : State} (hs : reachable s = true) (he : s.bar.enable = false)
    (hb : s.dev.state ≠ .booting) (hlo : 8 ≤ sz.toNat) (hhi : sz.toNat ≤ 12)
    (hq : (tget s.queues 0).isSome = true ∨ validDesc 0 d = true) :
    enableAdmin sz d s = { s with
      bar := { s.bar with sizeLog2 := sz, enable := true }
      queues := if (tget s.queues 0).isSome then s.queues else tset s.queues 0 (queueOf d)
      rings := tset s.rings 0 (adminRing s sz)
      reads := s.reads.filter fun r => r.ring != 0 } := by
  have hsize : ¬(s.dev.state = .booting ∨ sz.toNat < 8 ∨ 12 < sz.toNat) := by simp [hb]; omega
  have hopen : ¬(!reachable s || s.bar.enable) = true := by simp [hs, he]
  unfold enableAdmin
  rw [if_neg hopen]
  dsimp only
  rw [if_neg hsize, bindQueue_of_bound (s := { s with bar := { s.bar with sizeLog2 := sz } }) hq]
  rfl

theorem enableAdmin_of_refused {sz : BitVec 5} (d : BitVec 256) {s : State} (hs : reachable s = true) (he : s.bar.enable = false)
    (h : s.dev.state = .booting ∨ sz.toNat < 8 ∨ 12 < sz.toNat) :
    enableAdmin sz d s = { s with bar := { s.bar with sizeLog2 := sz } } := by
  have hopen : ¬(!reachable s || s.bar.enable) = true := by simp [hs, he]
  unfold enableAdmin
  rw [if_neg hopen]
  exact if_pos h

/-- What ENABLE written as 0 leaves of ring 0. -/
theorem disableAdmin_of_enabled (sz : BitVec 5) {s : State} (hs : reachable s = true) (he : s.bar.enable = true) :
    ∃ l q, disableAdmin sz s = { s with
      bar := { s.bar with enable := false }, reads := s.reads.filter fun r => r.ring != 0, queues := q, rings := l } := by
  have hopen : ¬(!reachable s) = true := by simp [hs]
  rw [disableAdmin, if_neg hopen, if_pos he]
  dsimp only
  split
  · split
    · exact ⟨_, _, rfl⟩
    · exact ⟨_, _, rfl⟩
  · exact ⟨_, _, rfl⟩

theorem disableAdmin_of_disabled (sz : BitVec 5) {s : State} (hs : reachable s = true) (he : s.bar.enable = false) :
    disableAdmin sz s = { s with bar := { s.bar with sizeLog2 := sz } } := by
  have hopen : ¬(!reachable s) = true := by simp [hs]
  have hoff : ¬s.bar.enable = true := by simp [he]
  rw [disableAdmin, if_neg hopen, if_neg hoff]

theorem overlay_whole (old v : BitVec 64) : overlay 64 old.toNat 0 8 v.toNat = v := by
  have hv := v.isLt
  have ho := old.isLt
  apply BitVec.eq_of_toNat_eq
  simp [overlay, Nat.mod_eq_of_lt ho, Nat.mod_eq_of_lt hv]

theorem baseWrite_whole (old v : BitVec 64) : baseWrite old 0 8 v.toNat = BitVec.ofNat 64 (v.toNat / 4096 * 4096) := by
  rw [baseWrite, overlay_whole]

/-- A naturally aligned 64-bit write while BAR0 can be reached. -/
theorem execRegisterWrite_wide {off : BitVec 16} (v : BitVec 64) {s : State} (hs : reachable s = true) (ho : off.toNat % 8 = 0) :
    execRegisterWrite off true v s = .next (writeReg off.toNat 8 v.toNat s) := by
  simp [execRegisterWrite, hs, ho]

/-- Settles O5, register by register. -/
theorem adminRegisters : Obligations.AdminRegisters := by
  unfold Obligations.AdminRegisters
  intro sz d v s hs
  have wide (off : BitVec 16) (ho : off.toNat % 8 = 0) : exec (.registerWrite off true v) s = .next (writeReg off.toNat 8 v.toNat s) :=
    execRegisterWrite_wide v hs ho
  refine ⟨?enable, ?refused, ?disable, ?adminBase, ?replyBase, ?size, ?hubStall, ?kept, ?misaligned⟩
  case enable =>
    exact fun he hb hlo hhi hq => congrArg Host.Outcome.next (enableAdmin_of_valid hs he hb hlo hhi hq)
  case refused => exact fun he h => congrArg Host.Outcome.next (enableAdmin_of_refused d hs he h)
  case disable =>
    intro he
    obtain ⟨l, q, h⟩ := disableAdmin_of_enabled sz hs he
    refine ⟨_, congrArg Host.Outcome.next h, rfl, fun r hr => ?_, rfl⟩
    simpa using (List.mem_filter.1 hr).2
  case adminBase =>
    intro he
    rw [wide 0x20 rfl, ← baseWrite_whole s.bar.adminBase v]
    simp [writeReg, he]
  case replyBase =>
    intro he
    rw [wide 0x30 rfl, ← baseWrite_whole s.bar.replyBase v]
    simp [writeReg, he]
  case size =>
    intro he hv
    rw [wide 0x28 rfl, ← disableAdmin_of_disabled _ hs he]
    simp [writeReg, hv]
  case hubStall =>
    rw [wide 0x40 rfl]
    cases hv : v.toNat.testBit 2 <;> simp [writeReg, hv]
  case kept =>
    intro he
    rw [wide 0x20 rfl, wide 0x30 rfl]
    simp [writeReg, he]
  case misaligned =>
    intro off w64 ho
    exact if_pos ho

end Sys2Proof.Machine

namespace Sys2Proof.Machine

/-! ### Sorted lists -/

theorem mem_insertBy {α : Type} {le : α → α → Bool} {x y : α} {l : List α} : y ∈ insertBy le x l ↔ y = x ∨ y ∈ l := by
  induction l with
  | nil => simp [insertBy]
  | cons z t ih =>
    unfold insertBy
    split
    · simp
    · simp only [List.mem_cons, ih]
      tauto

theorem mem_sortBy {α : Type} {le : α → α → Bool} {y : α} {l : List α} : y ∈ sortBy le l ↔ y ∈ l := by
  induction l with
  | nil => simp [sortBy]
  | cons x t ih => rw [sortBy, mem_insertBy, ih, List.mem_cons]

/-! ### Records to the partner change the link's own part of the pair alone (10 R309-R313) -/

/-- What a record sent to the partner may change. -/
def Told (s t : State) : Prop :=
  ∃ n sent unacked held x f, t = { s with
    pair := { s.pair with commitSeq := n, recordsSent := sent, unacked := unacked, held := held }, tx := x, free := f }

theorem Told.refl (s : State) : Told s s := ⟨_, _, _, _, _, _, rfl⟩

theorem Told.trans {s t u : State} (h : Told s t) (g : Told t u) : Told s u := by
  obtain ⟨_, _, _, _, _, _, rfl⟩ := h
  obtain ⟨_, _, _, _, _, _, rfl⟩ := g
  exact ⟨_, _, _, _, _, _, rfl⟩

theorem tell_told (b : RecBody) (key slot : Nat) (t : Option Nat) (s : State) : Told s (tell b key slot t s) := by
  unfold tell
  split
  · exact ⟨_, _, _, _, _, _, rfl⟩
  · exact .refl s

/-! ### A visit (02 R44, R55) -/

theorem visitReads_length (s : State) (n : Nat) (r : Ring) (k used : Nat) (kinds : List Bool) :
    (visitReads s n r k used kinds).length ≤ k := by
  induction kinds generalizing k used with
  | nil => simp [visitReads]
  | cons q rest ih =>
    cases k with
    | zero => simp [visitReads]
    | succ k =>
      unfold visitReads
      split
      · simp
      · simpa using ih k _

/-- The reads of a visit are of successive slots. -/
theorem visitReads_getElem (s : State) (n : Nat) (r : Ring) {k used : Nat} {kinds : List Bool} {j : Nat} {x : SlotRead}
    (hk : k ≤ min (readable s n r) 8) (hx : (visitReads s n r k used kinds)[j]? = some x) :
    x.ring = n ∧ x.order = r.fetched + readsOf s n + (min (readable s n r) 8 - k + j) ∧
      x.doorbell = stampAt r.stamps x.order (now s) := by
  induction kinds generalizing k used j with
  | nil => simp [visitReads] at hx
  | cons q rest ih =>
    cases k with
    | zero => simp [visitReads] at hx
    | succ k =>
      unfold visitReads at hx
      split at hx
      · simp at hx
      · cases j with
        | zero => cases hx; exact ⟨rfl, rfl, rfl⟩
        | succ j =>
          obtain ⟨hring, horder, hstamp⟩ := ih (Nat.le_of_succ_le hk) hx
          exact ⟨hring, by omega, hstamp⟩

theorem nextRing_reads {s : State} {kinds : Tbl (List Bool)} {n : Nat} {r : Ring} (h : nextRing s kinds = some (n, r)) :
    readsFor s kinds n r ≠ [] := by
  have hmem := mem_sortBy.1 (List.mem_of_mem_head? h)
  have hfetched := (List.mem_filter.1 hmem).2
  simp only [Bool.and_eq_true, Bool.not_eq_true', List.isEmpty_eq_false_iff] at hfetched
  exact hfetched.2

theorem fetchVisit_of_nextRing {s : State} {kinds : Tbl (List Bool)} {n : Nat} {r : Ring} (hf : fetching s = true)
    (h : nextRing s kinds = some (n, r)) :
    fetchVisit kinds s = { s with
      reads := s.reads ++ readsFor s kinds n r
      served := if n = 0 then s.served else s.served.set r.cls n
      queues := tmod s.queues r.queue fun q => { q with reserved := q.reserved + (readsFor s kinds n r).length } } := by
  simp [fetchVisit, hf, h]

/-! ### A fetched packet (02 R36, R39) -/

theorem writeHead_told (r : Ring) (s : State) : Told s (writeHead r s) := by
  unfold writeHead
  split
  · split
    · exact ⟨_, _, _, _, _, _, rfl⟩
    · exact .refl s
  · exact .refl s

theorem tellFetch_told (n slot : Nat) (r : Ring) (p : Packet) (s : State) : Told s (tellFetch n slot r p s) := by
  unfold tellFetch
  split
  · exact .refl s
  · dsimp only
    split
    · exact (tell_told ..).trans (tell_told ..)
    · exact tell_told ..

theorem releaseAtFetch_streams (n : Nat) (p : Packet) (s : State) : ∃ l, releaseAtFetch n p s = { s with streams := l } := by
  unfold releaseAtFetch
  (repeat' split) <;> exact ⟨_, rfl⟩

theorem takePlace_apps (cid : Nat) (t : Option Nat) (p : Packet) (s : State) : ∃ l, takePlace cid t p s = { s with apps := l } := by
  unfold takePlace
  (repeat' split) <;> exact ⟨_, rfl⟩

theorem newCmd_phase (s : State) (rd : SlotRead) (r : Ring) (p : Packet) :
    (newCmd s rd r p).phase = .ready ∨ (newCmd s rd r p).phase = .ordered := by
  unfold newCmd
  dsimp only
  split
  · exact .inr rfl
  · exact .inl rfl

/-- A slot has been read: the head word and the records of the fetch have gone out. -/
def slotFetched (n : Nat) (p : Packet) (rd : SlotRead) (r : Ring) (s : State) : State :=
  tellFetch n (rd.order % 2 ^ r.sizeLog2) (ringFetched r) p (writeHead (ringFetched r)
    { s with reads := s.reads.erase rd, rings := tset s.rings n (ringFetched r), nextCid := s.nextCid + 1 })

theorem slotFetched_told (n : Nat) (p : Packet) (rd : SlotRead) (r : Ring) (s : State) :
    Told { s with reads := s.reads.erase rd, rings := tset s.rings n (ringFetched r), nextCid := s.nextCid + 1 }
      (slotFetched n p rd r s) :=
  (writeHead_told ..).trans (tellFetch_told ..)

theorem fetchFault_slotFetched (n : Nat) (p : Packet) (rd : SlotRead) (r : Ring) (s : State) :
    fetchFault (slotFetched n p rd r s) n r p = fetchFault s n r p := by
  obtain ⟨_, _, _, _, _, _, h⟩ := slotFetched_told n p rd r s
  rw [h]
  rfl

theorem openParams_slotFetched (n : Nat) (p : Packet) (o : BitVec 608) (rd : SlotRead) (r : Ring) (s : State) :
    openParams (slotFetched n p rd r s) r p o = openParams s r p o := by
  obtain ⟨_, _, _, _, _, _, h⟩ := slotFetched_told n p rd r s
  rw [h]
  rfl

/-- Where a fetched packet passes its checks, the state in which its command may run. -/
def copied (n : Nat) (p p' : Packet) (rd : SlotRead) (r : Ring) (s : State) : State :=
  let t := slotFetched n p rd r s
  takePlace s.nextCid r.tenant p' (releaseAtFetch n p'
    { t with cmds := tset t.cmds s.nextCid { newCmd { t with nextCid := s.nextCid } rd r p with pkt := p' } })

theorem copied_eq (n : Nat) (p p' : Packet) (rd : SlotRead) (r : Ring) (s : State) :
    ∃ (u : State) (pair : Pair) (streams : Tbl Stream) (apps : Tbl Applique) (x : List Tx) (f : Nat),
      copied n p p' rd r s = { s with
        reads := s.reads.erase rd, rings := tset s.rings n (ringFetched r), nextCid := s.nextCid + 1
        cmds := tset s.cmds s.nextCid { newCmd u rd r p with pkt := p' }
        pair := pair, streams := streams, apps := apps, tx := x, free := f } := by
  unfold copied
  obtain ⟨_, _, _, _, _, _, ht⟩ := slotFetched_told n p rd r s
  rw [ht]
  dsimp only
  obtain ⟨_, hstreams⟩ := releaseAtFetch_streams n p' _
  obtain ⟨_, happs⟩ := takePlace_apps s.nextCid r.tenant p' _
  rw [happs, hstreams]
  exact ⟨_, _, _, _, _, _, rfl⟩

theorem commandFetched_of_passed {n : Nat} {p p' : Packet} {o : BitVec 608} {rd : SlotRead} {r : Ring} {s : State}
    (hrd : s.reads.find? (fun x => x.ring = n) = some rd) (hr : tget s.rings n = some r) (hruns : hubRuns s = true)
    (hend : ending s = false) (hfault : fetchFault s n r p = none) (hopen : openParams s r p o = .inl p')
    (hlate : releaseLate s p' = false) (b : Option Blocks) :
    commandFetched n p o b s = match b with
      | some b => if isReqOp (opcodeOf p') then admitRequest s.nextCid b (copied n p p' rd r s) else copied n p p' rd r s
      | none => copied n p p' rd r s := by
  have hgo : ¬(!hubRuns s || ending s || releaseLate s p') = true := by simp [hruns, hend, hlate]
  have hfault' := (fetchFault_slotFetched n p rd r s).trans hfault
  have hopen' := (openParams_slotFetched n p o rd r s).trans hopen
  unfold slotFetched at hfault' hopen'
  unfold commandFetched
  rw [hrd, hr]
  dsimp only
  rw [hopen]
  dsimp only
  rw [if_neg hgo, hfault', hopen']
  rfl

/-! ### Failed reads and ORDERED (02 R47, R59, 13 R395) -/

theorem fetchFailed_of_active {n : Nat} {rd : SlotRead} {r : Ring} {s : State}
    (hrd : s.reads.find? (fun x => x.ring = n) = some rd) (hr : tget s.rings n = some r) (hst : r.st = .active) :
    fetchFailed n s = postEvent 2 n (rd.order % 2 ^ r.sizeLog2) 0 .done
      { releaseReads n s with rings := tset s.rings n { r with st := .error, pending := false } } := by
  simp only [fetchFailed, hrd, hr, hst]
  rfl

theorem readError_of_cmd {cid : Nat} {c : Cmd} {s : State} (hc : tget s.cmds cid = some c) (hp : c.phase ≠ .replied) :
    readError (.cmd cid) s = refuse cid .integrityMismatch 0x00010003 (dropWork cid s) := by
  simp only [readError, hc, hp, if_false]

theorem orderedRelease_of_done {cid : Nat} {c : Cmd} {s : State} (hruns : hubRuns s = true) (hc : tget s.cmds cid = some c)
    (hp : c.phase = .ordered) (hdone : earlierDone s c.ring cid = true) :
    orderedRelease cid s = { s with cmds := tset s.cmds cid { c with phase := .ready } } := by
  simp [orderedRelease, hc, hruns, hp, hdone, modCmd, tmod_some _ hc]

/-- Settles O7: the reads of a visit by `visitReads_getElem`, a fetched packet by `copied_eq`, and each failed read by its law. -/
theorem fetching_holds : Obligations.Fetching := by
  unfold Obligations.Fetching
  intro s
  refine ⟨?visit, ?fetched, ?failed, ?cmdRead, fun _ => rfl, ?ordered⟩
  case visit =>
    intro kinds n r hf hnext
    refine ⟨(visitReads_length ..).trans (Nat.min_le_right ..), nextRing_reads hnext, fun k x hx => ?_,
      congrArg Host.Outcome.next (fetchVisit_of_nextRing hf hnext)⟩
    obtain ⟨hring, horder, hstamp⟩ := visitReads_getElem s n r (Nat.le_refl _) hx
    exact ⟨hring, by omega, hstamp⟩
  case fetched =>
    intro n p o rd r hrd hr hruns hend hfault p' hopen hlate
    have hrun := commandFetched_of_passed hrd hr hruns hend hfault hopen hlate
    obtain ⟨u, _, _, _, _, _, hcopied⟩ := copied_eq n p p' rd r s
    have hphase := newCmd_phase u rd r p
    refine ⟨copied n p p' rd r s, { newCmd u rd r p with pkt := p' }, congrArg Host.Outcome.next (hrun none),
      fun b => congrArg Host.Outcome.next (hrun (some b)), ?_⟩
    rw [hcopied]
    have hring : rd.ring = n := by simpa using List.find?_some hrd
    exact ⟨tget_tset_same .., rfl, hring, rfl, rfl, rfl, hphase, rfl, rfl, tget_tset_same .., rfl⟩
  case failed =>
    exact fun n rd r hrd hr hst => congrArg Host.Outcome.next (fetchFailed_of_active hrd hr hst)
  case cmdRead => exact fun cid c hc hp => congrArg Host.Outcome.next (readError_of_cmd hc hp)
  case ordered =>
    exact fun cid c hruns hc hp hdone => congrArg Host.Outcome.next (orderedRelease_of_done hruns hc hp hdone)

/-! ### How a command other than a request ends (02 R45, 10 R304) -/

/-- A command that a standby carries out waits to be reported. -/
theorem finish_of_given {cid : Nat} (st : Status) (d : Nat) (v : BitVec 64) (fl : BitVec 16) (act : OnAccept) {s : State} {c : Cmd}
    (hc : tget s.cmds cid = some c) (hg : c.given.isSome = true) :
    finish cid st d v fl act s = { s with
      cmds := tset s.cmds cid { c with phase := .replied }
      pair := { s.pair with awaiting := s.pair.awaiting ++ [(cid, cmdCand s cid c st d v fl act)] } } := by
  simp [finish, hc, hg, modCmd, tmod_some _ hc]

/-- A pair-applied command of an active module waits for the report of the SETUP record that it sends. -/
theorem finish_of_mirrored {cid : Nat} (st : Status) (d : Nat) (v : BitVec 64) (fl : BitVec 16) (act : OnAccept) {s : State} {c : Cmd}
    (hc : tget s.cmds cid = some c) (hg : c.given = none) (hm : (mirroring s && pairApplied (opcodeOf c.pkt)) = true) :
    finish cid st d v fl act s = sendRecord (.setup c.pkt 0 st d v true) c.ring c.order c.tenant none none (some cid) { s with
      cmds := tset s.cmds cid { c with phase := .replied }
      pair := { s.pair with awaiting := s.pair.awaiting ++ [(cid, cmdCand s cid c st d v fl act)] } } := by
  have hg' : ¬c.given.isSome = true := by simp [hg]
  unfold finish
  rw [hc]
  dsimp only
  rw [if_neg hg', if_pos (show (mirroring (modCmd cid _ s) && _) = true from hm), modCmd, tmod_some _ hc]

/-- Settles O8: one law for each of the three ways. -/
theorem finalReplyCandidates : Obligations.FinalReplyCandidates := by
  unfold Obligations.FinalReplyCandidates
  intro cid st d v fl act s c hc
  refine ⟨fun hg hm => finish_plain cid st d v fl act s c hc hg hm, fun hg => finish_of_given st d v fl act hc hg, fun hg hm => ?_⟩
  rw [finish_of_mirrored st d v fl act hc hg hm]
  exact ⟨_, rfl, rfl, rfl, rfl, rfl, rfl⟩

end Sys2Proof.Machine

namespace Sys2Proof.Machine

/-! ### Commands that begin (02 R40, R427) -/

theorem cmds_of_inProgress {s : State} {cid op : Nat} {c : Cmd} (h : inProgress s cid op = some c) :
    tget s.cmds cid = some c := by
  unfold inProgress at h
  split at h
  · next c' hc =>
    split at h
    · cases h; exact hc
    · cases h
  · cases h

/-- A command whose further checks find nothing runs its own meaning. -/
theorem runCmdWith_of_ready {cid op : Nat} {c : Cmd} {s : State} {more : Cmd → State → List Nat} (h : Ready s cid op c)
    (hmore : more c s = []) (f : Cmd → State → State) : runCmdWith cid op more f s = f c s := by
  obtain ⟨hbegins, hfields⟩ := h
  simp only [runCmdWith, hbegins, hfields, hmore]
  rfl

theorem runCmd_of_badField {cid op d : Nat} {c : Cmd} {s : State} (h : begins s cid op = some c)
    (hd : badField c.pkt false = some d) (f : Cmd → State → State) : runCmd cid op f s = refuse cid .badParam d s := by
  simp only [runCmd, h, hd]

theorem begun_eq {cid : Nat} {c : Cmd} {s : State} (aux : List Nat) (h : tget s.cmds cid = some c) :
    begun cid aux s = { s with cmds := tset s.cmds cid { c with phase := .begun, since := s.clk.localTime, aux := aux } } := by
  rw [begun, modCmd, tmod_some _ h]
  rfl

theorem resilverStart_runs (cid : Nat) (s : State) : ∃ f, exec (.resilverStart cid) s = .next (runCmd cid 0x0603 f s) := by
  show ∃ f, Host.Outcome.next (resilverStart cid s) = _
  unfold resilverStart
  exact ⟨_, rfl⟩

/-- Each of these rows runs through `runCmd`, with a meaning of its own. -/
theorem checkedRows_run {cid : Nat} {e : Nat × Instr} (he : e ∈ checkedRows cid) (s : State) :
    ∃ f, exec e.2 s = .next (runCmd cid e.1 f s) := by
  simp only [checkedRows, List.mem_cons, List.not_mem_nil, or_false] at he
  rcases he with rfl | rfl | rfl | rfl | rfl | rfl | rfl | rfl | rfl | rfl | rfl | rfl | rfl | rfl | rfl | rfl | rfl | rfl | rfl |
    rfl | rfl | rfl
  case inr.inr.inr.inr.inr.inr.inr.inr.inr.inr.inr.inr.inr.inr.inr.inl => exact resilverStart_runs cid s
  all_goals exact ⟨_, rfl⟩

/-- Settles O53: a row of the list runs through `runCmd`, which answers a field at fault before the row's own meaning. -/
theorem badParameters : Obligations.BadParameters := by
  unfold Obligations.BadParameters
  intro cid d c s e he hbegins hd
  obtain ⟨f, hf⟩ := checkedRows_run he s
  rw [hf, runCmd_of_badField hbegins hd]
  rfl

/-! ### Fences (02 R62-R65) -/

theorem tell_of_not_mirroring (b : RecBody) (key slot : Nat) (t : Option Nat) {s : State} (h : mirroring s = false) :
    tell b key slot t s = s := by
  simp [tell, h]

theorem tellFence_of_not_mirroring (i : Nat) {s : State} (h : mirroring s = false) : tellFence i s = s := by
  unfold tellFence
  split <;> exact tell_of_not_mirroring _ _ _ _ h

theorem givenHandle_of_begins {s : State} {cid op : Nat} {c : Cmd} (h : begins s cid op = some c) (hg : c.given = none) :
    givenHandle s cid = none := by
  simp [givenHandle, cmds_of_begins h, hg]

/-- A command of this module itself takes the lowest free index, under that index's next generation. -/
theorem pickSlot_of_own {α : Type} {s : State} {cid op : Nat} {c : Cmd} (h : begins s cid op = some c) (hg : c.given = none)
    (t : Tbl α) (n : Nat) : pickSlot s cid t n = tfree t n := by
  simp [pickSlot, givenHandle_of_begins h hg]

theorem pickGen_of_own {s : State} {cid op : Nat} {c : Cmd} (h : begins s cid op = some c) (hg : c.given = none) (shift next : Nat) :
    pickGen s cid shift next = next := by
  simp [pickGen, givenHandle_of_begins h hg]

theorem fenceAlloc_of_ready {cid i : Nat} {c : Cmd} {s : State} (h : Ready s cid 0x0401 c) (hg : c.given = none)
    (hi : tfree s.fences 16384 = some i) (hroom : fencesFull s (c.tenant.getD 0) = false) (hm : mirroring s = false) :
    fenceAlloc cid s = done cid 0 (BitVec.ofNat 64 (fenceHandle (nextGen 255 (tgetD s.fenceGens i 0)) i)) { s with
      fences := tset s.fences i { gen := nextGen 255 (tgetD s.fenceGens i 0), tenant := c.tenant.getD 0,
                                  value := BitVec.ofNat 64 (le c.pkt 24 8) }
      fenceGens := tset s.fenceGens i (nextGen 255 (tgetD s.fenceGens i 0)) } := by
  rw [fenceAlloc, runCmd_of_ready h]
  simp only [pickSlot_of_own h.1 hg, hi, hroom, pickGen_of_own h.1 hg]
  rw [tellFence_of_not_mirroring]
  · rfl
  · exact hm

section
variable {cid op : Nat} {c : Cmd} {f : Fence} {s : State} (h : Ready s cid op c) (hf : tget s.fences (fenceIndex c.pkt) = some f)
  (hgen : f.gen = fenceGen c.pkt) (htenant : c.tenant = some f.tenant)
include h hf hgen htenant

/-- A command on a fence of its own tenant runs its meaning. -/
theorem runFence_of_own (g : Cmd → State → State) : runFence cid op g s = g c s := by
  have hown : fenceForeign c s = false := by simp [fenceForeign, hf, htenant]
  rw [runFence, runCmdWith_of_ready h (by simp [fenceFaults, hf, hgen])]
  simp [hown]

end

theorem refuseAll_frame (l : List Nat) (st : Status) (d : Nat) (s : State) :
    { refuseAll l st d s with cmds := s.cmds, arb := s.arb, pair := s.pair, tx := s.tx, free := s.free } = s :=
  List.foldlRecOn l _ (motive := fun t : State =>
      { t with cmds := s.cmds, arb := s.arb, pair := s.pair, tx := s.tx, free := s.free } = s) rfl fun t ht k _ =>
    (congrArg (fun x : State => { x with cmds := s.cmds, arb := s.arb, pair := s.pair, tx := s.tx, free := s.free })
      (finish_frame k st d 0 0 .none t) :).trans ht

theorem le_lt (p : Packet) (off n : Nat) : le p off n < 2 ^ (8 * n) := Nat.mod_lt _ (Nat.two_pow_pos _)

theorem fenceFree_of_own {cid : Nat} {c : Cmd} {f : Fence} {s : State} (h : Ready s cid 0x0402 c)
    (hf : tget s.fences (fenceIndex c.pkt) = some f) (hgen : f.gen = fenceGen c.pkt) (htenant : c.tenant = some f.tenant)
    (hm : mirroring s = false) :
    fenceFree cid s = begun cid (waitsOn s (fenceIndex c.pkt) (fenceGen c.pkt))
      (refuseAll (waitsOn s (fenceIndex c.pkt) (fenceGen c.pkt)) .cancelled 2
        { s with fences := tdel s.fences (fenceIndex c.pkt) }) := by
  rw [fenceFree, runFence_of_own h hf hgen htenant]
  dsimp only
  rw [tellFence_of_not_mirroring]
  exact hm

theorem fenceSignal_of_own {cid : Nat} {c : Cmd} {f : Fence} {s : State} (h : Ready s cid 0x0403 c)
    (hf : tget s.fences (fenceIndex c.pkt) = some f) (hgen : f.gen = fenceGen c.pkt) (htenant : c.tenant = some f.tenant)
    (hm : mirroring s = false) (hg : c.given = none) :
    fenceSignal cid s = done cid 0 (fenceAfter (le c.pkt 24 1) f.value (BitVec.ofNat 64 (le c.pkt 32 8))) { s with
      fences := tset s.fences (fenceIndex c.pkt)
        { f with value := fenceAfter (le c.pkt 24 1) f.value (BitVec.ofNat 64 (le c.pkt 32 8)) } } := by
  rw [fenceSignal, runFence_of_own h hf hgen htenant]
  simp only [hf, hg, hm, setFence, tmod_some _ hf]
  rw [tellFence_of_not_mirroring]
  · rfl
  · exact hm

theorem fenceAfter_add (old : BitVec 64) {n : Nat} (h : n < 2 ^ 64) :
    fenceAfter 0 old (BitVec.ofNat 64 n) = BitVec.ofNat 64 (min (old.toNat + n) (2 ^ 64 - 1)) := by
  rw [fenceAfter, if_pos rfl, BitVec.toNat_ofNat, Nat.mod_eq_of_lt h]

theorem fenceAfter_max (old : BitVec 64) {n : Nat} (h : n < 2 ^ 64) :
    fenceAfter 1 old (BitVec.ofNat 64 n) = BitVec.ofNat 64 (max old.toNat n) := by
  rw [fenceAfter, if_neg Nat.one_ne_zero, BitVec.toNat_ofNat, Nat.mod_eq_of_lt h]
  split
  · rw [max_eq_right (by omega)]
  · rw [max_eq_left (by omega)]
    simp

/-- Settles O23, command by command. -/
theorem fenceCommands : Obligations.FenceCommands := by
  unfold Obligations.FenceCommands
  intro cid c s
  refine ⟨?alloc, ?free, ?freed, ?signal⟩
  case alloc =>
    intro i h hg hi hroom hm
    exact congrArg Host.Outcome.next (fenceAlloc_of_ready h hg hi hroom hm)
  case free =>
    intro f h hf hgen htenant hm
    have hrun := fenceFree_of_own h hf hgen htenant hm
    refine ⟨fenceFree cid s, rfl, ?_, hrun⟩
    rw [hrun]
    exact (congrArg State.fences (refuseAll_frame _ .cancelled 2 { s with fences := tdel s.fences (fenceIndex c.pkt) }) :)
  case freed =>
    intro h hwaits
    have hnone : (c.aux.any fun w => (tget s.cmds w).isSome) = false := by
      simpa using hwaits
    simp only [exec, execFenceFreeComplete, fenceFreeDone, show inProgress s cid 0x0402 = some c from h, hnone]
    rfl
  case signal =>
    intro f h hf hgen htenant hm hg
    have hrun := fenceSignal_of_own h hf hgen htenant hm hg
    have hlt := le_lt c.pkt 32 8
    refine ⟨fun hmode => congrArg Host.Outcome.next (hrun.trans ?_), fun hmode => congrArg Host.Outcome.next (hrun.trans ?_)⟩
    · rw [hmode, fenceAfter_add _ hlt]
    · rw [hmode, fenceAfter_max _ hlt]

theorem waitOf_of_begun {cid : Nat} {c : Cmd} {f : Fence} {s : State} {i g target limit : Nat} (h : Begun s cid 0x0404 c)
    (haux : c.aux = [i, g, target, limit]) (hf : tget s.fences i = some f) (hgen : f.gen = g) :
    waitOf s cid = some (c, f.value, target, limit) := by
  simp [waitOf, show inProgress s cid 0x0404 = some c from h, haux, hf, hgen]

/-- Settles O24: a begun wait reads its fence (`waitOf_of_begun`), and each end has its condition. -/
theorem fenceWaits : Obligations.FenceWaits := by
  unfold Obligations.FenceWaits
  intro cid c f s
  refine ⟨fun h hf hgen htenant => congrArg Host.Outcome.next ?_, fun i g target limit h haux hf hgen => ?_⟩
  · rw [fenceWait, runFence_of_own h hf hgen htenant, begun_eq _ (cmds_of_begins h.1)]
  · have hwait := waitOf_of_begun h haux hf hgen
    refine ⟨fun hle => congrArg Host.Outcome.next ?_, fun hlt => congrArg Host.Outcome.next ?_,
      fun hlt hlimit hpast => congrArg Host.Outcome.next ?_, fun hearly => congrArg Host.Outcome.next ?_⟩
    · simp [waitDone, hwait, hle]
    · simp [waitDone, hwait, Nat.not_le.2 hlt]
    · simp [waitLimit, hwait, hlimit, now, hpast, hlt]
    · have hnot : ¬(limit ≠ 0 ∧ c.since + limit ≤ now s ∧ f.value.toNat < target) := by
        rintro ⟨hne, hpast, -⟩
        exact hearly.elim hne (Nat.not_lt.2 hpast)
      simp only [waitLimit, hwait, hnot, if_false]

end Sys2Proof.Machine

namespace Sys2Proof.Machine

/-! ### What REPLY_ACCEPT does of itself leaves boot NOR alone -/

theorem foldl_keeps {α β : Type} (g : State → β) {f : State → α → State} (h : ∀ s x, g (f s x) = g s) (l : List α) (s : State) :
    g (l.foldl f s) = g s :=
  List.foldlRecOn l f (motive := fun t => g t = g s) rfl fun t ht x _ => (h t x).trans ht

@[simp] theorem postEvent_nor (code object detail : Nat) (v : BitVec 64) (st : Status) (s : State) :
    (postEvent code object detail v st s).nor = s.nor := by
  obtain ⟨a, h, e⟩ := postEvent_arbHealth code object detail v st s
  rw [e]

@[simp] theorem retireKeys_nor (t : Nat) (s : State) : (retireKeys t s).nor = s.nor := by
  unfold retireKeys; (repeat' split) <;> simp

@[simp] theorem freePagesOf_nor (p : PageUse → Bool) (s : State) : (freePagesOf p s).nor = s.nor :=
  foldl_keeps State.nor (fun t k => retireKeys_nor k t) _ _

@[simp] theorem rotate_nor (s : State) : (rotate s).nor = s.nor := (congrArg State.nor (rotate_frame s) :)

@[simp] theorem modApp_nor (i : Nat) (f : Applique → Applique) (s : State) : (modApp i f s).nor = s.nor := rfl

@[simp] theorem drainApplique_nor (i : Nat) (s : State) : (drainApplique i s).nor = s.nor := by
  have hprevious : (drainPrevious i s).nor = s.nor := by
    unfold drainPrevious; (repeat' split) <;> simp
  have hretired (t : State) : (freeRetired i t).nor = t.nor := by
    unfold freeRetired; (repeat' split) <;> simp
  exact (hretired _).trans hprevious

@[simp] theorem releasePlace_nor (t : Target) (i : Nat) (s : State) : (releasePlace t i s).nor = s.nor := by
  unfold releasePlace; (repeat' split) <;> simp

@[simp] theorem placeAccepted_nor (cid : Nat) (st : Status) (s : State) : (placeAccepted cid st s).nor = s.nor := by
  unfold placeAccepted
  split
  · rfl
  · exact foldl_keeps State.nor (fun t i => releasePlace_nor _ i t) _ _

@[simp] theorem done_nor (cid d : Nat) (v : BitVec 64) (s : State) : (done cid d v s).nor = s.nor :=
  (congrArg State.nor (finish_frame cid .done d v 0 .none s) :)

@[simp] theorem finishEncoder_nor (i : Nat) (s : State) : (finishEncoder i s).nor = s.nor := by
  unfold finishEncoder
  split
  · rfl
  · split
    · rfl
    · split <;> simp

@[simp] theorem holdPicture_nor (ref : Nat) (f : Nat → Nat) (s : State) : (holdPicture ref f s).nor = s.nor := by
  unfold holdPicture; (repeat' split) <;> rfl

@[simp] theorem frameAccepted_nor (cid : Nat) (k : Cmd) (s : State) : (frameAccepted cid k s).nor = s.nor := by
  unfold frameAccepted
  extract_lets t
  have ht : t.nor = s.nor := by
    unfold t
    split
    · exact holdPicture_nor ..
    · rfl
  split
  · exact ht
  · exact (finishEncoder_nor ..).trans ht

@[simp] theorem videoAccepted_nor (cid : Nat) (k : Cmd) (s : State) : (videoAccepted cid k s).nor = s.nor := by
  unfold videoAccepted feedAccepted
  (repeat' split) <;> simp [modStream]

@[simp] theorem sendMsix_nor (v : Nat) (s : State) : (sendMsix v s).nor = s.nor := by
  unfold sendMsix; split <;> rfl

@[simp] theorem writeReply_nor (q : Nat) (b : BitVec 256) (e : Bool) (s : State) : (writeReply q b e s).nor = s.nor := by
  unfold writeReply
  split
  · rfl
  · dsimp only
    split
    · exact sendMsix_nor ..
    · rfl

@[simp] theorem tell_nor (b : RecBody) (k n : Nat) (t : Option Nat) (s : State) : (tell b k n t s).nor = s.nor :=
  (congrArg State.nor (tell_frame b k n t s) :)

@[simp] theorem updateFence_nor (f n : BitVec 32) (st : Status) (s : State) : (updateFence f n st s).nor = s.nor := by
  have hset (i : Nat) (v : BitVec 64) : (setFence i v s).nor = s.nor :=
    (congrArg State.nor (tellFence_frame i { s with fences := tmod s.fences i fun f => { f with value := v } }) :)
  unfold updateFence
  dsimp only
  split
  · rfl
  · split
    · split
      · exact hset _ _
      · rfl
    · rfl

@[simp] theorem replyFence_nor (f : Option (BitVec 32)) (n : BitVec 32) (st : Status) (s : State) :
    (replyFence f n st s).nor = s.nor := by
  unfold replyFence
  (repeat' split) <;> simp [modPair]

@[simp] theorem countReply_nor (t : Option Nat) (st : Status) (d : Nat) (s : State) : (countReply t st d s).nor = s.nor := by
  unfold countReply; (repeat' split) <;> rfl

theorem writeReply_cmds (q : Nat) (b : BitVec 256) (e : Bool) (s : State) : (writeReply q b e s).cmds = s.cmds := by
  have hmsix (v : Nat) (t : State) : (sendMsix v t).cmds = t.cmds := by
    unfold sendMsix; split <;> rfl
  unfold writeReply
  split
  · rfl
  · dsimp only
    split
    · exact hmsix ..
    · rfl

/-- The acceptance of a command's final reply ends with what it brings about, in a state with the same boot NOR. -/
theorem finalCommand_eq_onAccept (cid : Nat) (k : Cmd) (c : Cand) (written : Bool) (s : State) :
    ∃ t : State, finalCommand cid k c written s = onAccept c.act t ∧ t.nor = s.nor := by
  unfold finalCommand
  extract_lets placed told fenced retired
  refine ⟨_, rfl, (countReply_nor ..).trans ?_⟩
  have hplaced : placed.nor = s.nor := (placeAccepted_nor ..).trans (videoAccepted_nor ..)
  have htold : told.nor = s.nor := by
    unfold told
    split
    · exact (tell_nor ..).trans hplaced
    · exact hplaced
  have hfenced : fenced.nor = s.nor := by
    unfold fenced
    split
    · exact (replyFence_nor ..).trans htold
    · exact htold
  unfold retired
  split
  · exact (retireKeys_nor ..).trans hfenced
  · exact hfenced

/-- The values of an accepted CONFIG_COMMIT apply as the stored copies hold them, which nothing before changes (02 R70). -/
theorem acceptCand_applyConfig {k : Cand} {cid f n : Nat} {c : Cmd} {items : Tbl Nat} {s : State} (ht : k.target = .cmd cid)
    (hc : tget s.cmds cid = some c) (hact : k.act = .applyConfig) (hcopies : s.nor.copies.head? = some (.valid f n items)) :
    (acceptCand k s).cfg.live = cfgOfItems items := by
  unfold acceptCand
  extract_lets lost cleared taken written replied
  have hreplied : replied.nor = s.nor ∧ replied.cmds = s.cmds := by
    unfold replied
    split
    · exact ⟨writeReply_nor .., writeReply_cmds ..⟩
    · exact ⟨rfl, rfl⟩
  rw [ht]
  dsimp only
  rw [hreplied.2, hc]
  dsimp only
  obtain ⟨t, he, hnor⟩ := finalCommand_eq_onAccept cid c k written replied
  rw [he, hact]
  simp only [onAccept, applyConfig, hnor, hreplied.1, hcopies]

/-! ### IDENTIFY, GET_HEALTH and the configuration (02 R69, R70) -/

/-- Settles O20: each command is its own meaning, and an accepted CONFIG_COMMIT applies its values (`acceptCand_applyConfig`). -/
theorem information : Obligations.Information := by
  unfold Obligations.Information
  intro cid c s
  have run {op : Nat} (h : Ready s cid op c) (f : Cmd → State → State) := congrArg Host.Outcome.next
    (β := Host.Outcome State Fault Refusal) (runCmd_of_ready h f)
  refine ⟨fun h => run h _, fun h => (run h _).trans ?_, fun h => run h _, fun h => run h _, fun items n hcopies => ?_,
    fun q x k f n items hq hub hloop htick hfind hbest ht hc hact hcopies => ⟨acceptCand k s, ?_, ?_⟩⟩
  · simp [healthWord]
  · simp [committedCopy, hcopies]
  · exact congrArg Host.Outcome.next ((replyAccept_eq_acceptCand hq hub hloop htick hfind).trans (by rw [hbest]))
  · exact acceptCand_applyConfig ht hc hact hcopies

/-! ### Rings and accounts (02 R41, R48-R51, R71) -/

theorem ringCreate_of_ready {cid : Nat} {d : BitVec 256} {c : Cmd} {s : State} (h : Ready s cid 0x0006 c)
    (hfaults : ringFaults c s = []) (hfree : tget s.rings (le c.pkt 20 4) = none)
    (hown : ((tget s.accts (ringOf c.pkt).account).map (·.tenant)) = (ringOf c.pkt).tenant)
    (hfast : ((ringOf c.pkt).fast && decide (65536 ≤ fastRings s)) = false)
    (hq : (tget s.queues (ringOf c.pkt).queue).isSome = true ∨ validDesc (ringOf c.pkt).queue d = true) :
    ringCreate cid d s = done cid 0 0 { s with
      queues := if (tget s.queues (ringOf c.pkt).queue).isSome then s.queues else tset s.queues (ringOf c.pkt).queue (queueOf d)
      rings := tset s.rings (le c.pkt 20 4) (ringOf c.pkt) } := by
  have hfast' : ¬((ringOf c.pkt).fast && decide (65536 ≤ fastRings s)) = true := by simp [hfast]
  rw [ringCreate, runCmdWith_of_ready h hfaults]
  dsimp only
  rw [if_neg (by simp [hfree]), if_neg (by simp [hown]), if_neg hfast', bindQueue_of_bound hq]

theorem ringDestroy_of_ready {cid : Nat} {c : Cmd} {r : Ring} {s : State} (h : Ready s cid 0x0007 c)
    (hr : tget s.rings (le c.pkt 20 4) = some r) :
    ∃ q, ringDestroy cid s = { s with
      rings := tset s.rings (le c.pkt 20 4) { r with st := .destroying, pending := false, destroyers := r.destroyers ++ [cid] }
      reads := s.reads.filter fun x => x.ring != le c.pkt 20 4
      queues := q
      cmds := tset s.cmds cid { c with phase := .begun, since := s.clk.localTime, aux := [le c.pkt 20 4] } } := by
  rw [ringDestroy, runCmd_of_ready h]
  simp only [hr]
  rw [begun_eq (c := c)]
  · exact ⟨_, rfl⟩
  · exact cmds_of_begins h.1

/-- Settles O21, command by command. -/
theorem ringsAndAccounts : Obligations.RingsAndAccounts := by
  unfold Obligations.RingsAndAccounts
  intro cid c s
  refine ⟨?create, ?destroy, ?destroyed, ?account⟩
  case create =>
    intro d h hfaults hfree hown hfast hq
    exact congrArg Host.Outcome.next (ringCreate_of_ready h hfaults hfree hown hfast hq)
  case destroy =>
    intro r h hr
    obtain ⟨q, hrun⟩ := ringDestroy_of_ready h hr
    refine ⟨_, congrArg Host.Outcome.next hrun, fun x hx => ?_, tget_tset_same .., tget_tset_same .., rfl⟩
    simpa using (List.mem_filter.1 hx).2
  case destroyed =>
    intro n r hr hst hquiet
    refine congrArg Host.Outcome.next ?_
    simp only [ringDestroyed, hr, hst, hquiet, freeRing]
    rfl
  case account =>
    intro h hfaults
    have hrun := runCmdWith_of_ready h hfaults
    refine ⟨fun hnone => congrArg Host.Outcome.next ?_, fun a ha ht hdel => congrArg Host.Outcome.next ?_,
      fun a ha ht hdel hused => congrArg Host.Outcome.next ?_⟩
    · rw [accountSet, hrun]
      simp only [hnone]
      rfl
    · rw [accountSet, hrun]
      dsimp only
      rw [ha]
      dsimp only
      rw [if_neg (not_not.2 ht), if_neg (Bool.eq_false_iff.1 hdel)]
    · rw [accountSet, hrun]
      dsimp only
      rw [ha]
      dsimp only
      rw [if_neg (not_not.2 ht), if_pos hdel, if_neg (by simp [hused])]

end Sys2Proof.Machine

namespace Sys2Proof.Machine

/-! ### Firmware slots (11 R350-R353) -/

theorem slotOf_modSlot_same (i : Nat) (f : FwSlot → FwSlot) (s : State) : slotOf (modSlot i f s) i = f (slotOf s i) := by
  unfold slotOf modSlot modNor
  by_cases h : i = 0 <;> simp [h]

theorem slotOf_modSlot_other {i : Nat} (hi : i ≤ 1) (f : FwSlot → FwSlot) (s : State) :
    slotOf (modSlot i f s) (1 - i) = slotOf s (1 - i) := by
  unfold slotOf modSlot modNor
  by_cases h : i = 0
  · simp [h]
  · obtain rfl : i = 1 := by omega
    simp

/-- The TRIAL_FAILED bit of slot `i` in an activation record. -/
def trialBit (i : Nat) (a : ActRecord) : Bool := if i = 0 then a.aFailed else a.bFailed

theorem trialBit_trialFailed (i n : Nat) (v : Bool) (a : ActRecord) : trialBit i { trialFailed i v a with seqNo := n } = v := by
  unfold trialBit trialFailed
  by_cases h : i = 0 <;> simp [h]

/-- The TRIAL_FAILED bit of slot `i` cleared where the activation record holds it set (11 R359). -/
def clearTrialFailed (i : Nat) (s : State) : State :=
  match s.nor.act with
  | some a => if trialBit i a then writeRecord (trialFailed i false) s else s
  | none => s

theorem fwBlockWritten_of_begun {cid i b data : Nat} {c : Cmd} {s : State} (h : Begun s cid 0x0701 c) (haux : c.aux = [i, b, data]) :
    fwBlockWritten cid s =
      let u := clearTrialFailed i (modSlot i (fun x => { x with
        blocks := tset x.blocks b (data, BitVec.ofNat 32 (le c.pkt 36 4)), busy := none }) s)
      done cid 0 (BitVec.ofNat 64 (slotOf u i).blocks.length) u := by
  simp only [fwBlockWritten, show inProgress s cid 0x0701 = some c from h, haux]
  rfl

theorem clearTrialFailed_frame (i : Nat) (s : State) : ∃ a, clearTrialFailed i s = { s with nor := { s.nor with act := a } } := by
  unfold clearTrialFailed
  split
  · split
    · exact ⟨_, rfl⟩
    · exact ⟨_, rfl⟩
  · exact ⟨_, rfl⟩

theorem clearTrialFailed_clear {i : Nat} {s : State} {a : ActRecord} (h : (clearTrialFailed i s).nor.act = some a) :
    trialBit i a = false := by
  unfold clearTrialFailed at h
  split at h
  · next old hold =>
    split at h
    · rw [← Option.some.inj h]
      exact trialBit_trialFailed i _ false _
    · next hclear =>
      rw [← Option.some.inj (hold.symm.trans h)]
      exact Bool.eq_false_iff.2 hclear
  · next hnone => cases hnone.symm.trans h

theorem fwWriteBlock_of_ready {cid data : Nat} {c : Cmd} {s : State} (h : Ready s cid 0x0701 c)
    (hrun : runningSlot s ≠ some (slotNamed s (le c.pkt 20 1)))
    (hfirst : le c.pkt 24 4 = 0 ∨ (tget (slotOf s (slotNamed s (le c.pkt 20 1))).blocks 0).isSome = true)
    (hfree : (slotOf s (slotNamed s (le c.pkt 20 1))).busy = none) :
    fwWriteBlock cid data s =
      if crc32c 65536 data ≠ le c.pkt 36 4 then
        refuse cid .fwCheckFail (le c.pkt 24 4) (modSlot (slotNamed s (le c.pkt 20 1)) (fun x =>
          { x with blocks := tdel x.blocks (le c.pkt 24 4), verified := false }) s)
      else begun cid [slotNamed s (le c.pkt 20 1), le c.pkt 24 4, data % 2 ^ 524288]
        (modSlot (slotNamed s (le c.pkt 20 1)) (fun x =>
          { x with blocks := eraseBlock (le c.pkt 24 4) x.blocks, verified := false, busy := some cid }) s) := by
  have hblock : ¬(le c.pkt 24 4 ≠ 0 ∧ (tget (slotOf s (slotNamed s (le c.pkt 20 1))).blocks 0).isNone = true) := by
    rintro ⟨hne, hnone⟩
    rcases hfirst with hz | hsome
    · exact hne hz
    · simp [Option.isNone_iff_eq_none.1 hnone] at hsome
  have hbusy : ¬(slotOf s (slotNamed s (le c.pkt 20 1))).busy.isSome = true := by simp [hfree]
  rw [fwWriteBlock, runCmd_of_ready h]
  dsimp only
  rw [if_neg hrun, if_neg hblock, if_neg hbusy]

theorem modSlot_congr {i : Nat} {f g : FwSlot → FwSlot} {s : State} (h : f (slotOf s i) = g (slotOf s i)) :
    modSlot i f s = modSlot i g s := by
  unfold slotOf at h
  unfold modSlot modNor
  by_cases hi : i = 0
  · simp only [hi, if_true] at h ⊢
    rw [h]
  · simp only [hi, if_false] at h ⊢
    rw [h]

/-- Settles O35, command by command. -/
theorem firmwareSlots : Obligations.FirmwareSlots := by
  unfold Obligations.FirmwareSlots
  intro cid c s
  refine ⟨?write, ?written, ?verify, ?acted, ?verified, ?query⟩
  case write =>
    intro data h i b hrun hfirst hfree
    have hrows := fwWriteBlock_of_ready (data := data) h hrun hfirst hfree
    exact ⟨fun hcrc => congrArg Host.Outcome.next (hrows.trans (if_neg (not_not.2 hcrc))),
      fun hcrc => congrArg Host.Outcome.next (hrows.trans (if_pos hcrc))⟩
  case written =>
    intro i b data h haux hi
    let put : State := modSlot i (fun x => { x with
      blocks := tset x.blocks b (data, BitVec.ofNat 32 (le c.pkt 36 4)), busy := none }) s
    obtain ⟨a, ha⟩ := clearTrialFailed_frame i put
    refine ⟨clearTrialFailed i put, congrArg Host.Outcome.next (fwBlockWritten_of_begun h haux), ?_, ?_,
      fun _ h => clearTrialFailed_clear h, ?_⟩
    · rw [ha]
      exact slotOf_modSlot_same i _ s
    · rw [ha]
      exact slotOf_modSlot_other hi _ s
    · rw [ha]
      rfl
  case verify =>
    intro h hfree
    refine congrArg Host.Outcome.next ?_
    rw [fwVerify, runCmd_of_ready h]
    simp [hfree]
  case acted =>
    intro h hbusy
    refine congrArg Host.Outcome.next ?_
    rw [fwVerify, runCmd_of_ready h]
    simp [hbusy]
  case verified =>
    intro i h haux hbusy
    refine congrArg Host.Outcome.next ?_
    have hown (v : Bool) : modSlot i (fun x => { x with busy := if x.busy = some cid then none else x.busy, verified := v }) s
        = modSlot i (fun x => { x with busy := none, verified := v }) s :=
      modSlot_congr (by simp [hbusy])
    simp only [fwVerified, show inProgress s cid 0x0702 = some c from h, haux, List.headD_cons]
    split
    · next hf => simp only [hf]; rw [hown]
    · next hf => simp only [hf]; rw [hown]
  case query =>
    intro h
    exact congrArg Host.Outcome.next (runCmd_of_ready h _)

/-! ### Loop-backs, trace and bobbins (14 R412-R422) -/

/-- A test that check 1 takes in the present state runs its own meaning. -/
theorem runTest_of_ready {cid op : Nat} {c : Cmd} {s : State} {ok : Packet → Bool} (h : Ready s cid op c)
    (hok : guarded cid op ok s = none) (f : Cmd → State → State) : runTest cid op ok f s = f c s := by
  simp only [runTest, hok]
  exact runCmd_of_ready h f

/-- Settles O37, command by command. -/
theorem loopbacksTraceBobbins : Obligations.LoopbacksTraceBobbins := by
  unfold Obligations.LoopbacksTraceBobbins
  intro cid c s
  refine ⟨fun h hok => ⟨fun hf => congrArg Host.Outcome.next ?_, fun st d hf => congrArg Host.Outcome.next ?_⟩,
    fun l m n h hl => ⟨fun hdue => congrArg Host.Outcome.next ?_, fun hearly => congrArg Host.Outcome.next ?_⟩,
    fun h => ⟨fun hp => congrArg Host.Outcome.next ?_, fun hp hoff => congrArg Host.Outcome.next ?_,
      fun hp hon => congrArg Host.Outcome.next ?_⟩, fun h => congrArg Host.Outcome.next ?_⟩
  · rw [loopbackSet, runTest_of_ready h hok, hf]
    rfl
  · rw [loopbackSet, runTest_of_ready h hok, hf]
  · simp only [loopbackEnd, show inProgress s cid 0x0801 = some c from h, hl]
    exact if_neg (Nat.not_lt.2 hdue)
  · simp only [loopbackEnd, show inProgress s cid 0x0801 = some c from h, hl]
    exact if_pos hearly
  · rw [traceConfig, runCmd_of_ready h, if_pos hp]
  · rw [traceConfig, runCmd_of_ready h, if_neg (Bool.eq_false_iff.1 hp), hoff]
    rfl
  · rw [traceConfig, runCmd_of_ready h, if_neg (Bool.eq_false_iff.1 hp), hon]
    rfl
  · exact runCmd_of_ready h _

/-! ### Bits of HEALTH_SUMMARY (02 Table 2-11, 14 R424) -/

/-- The arbiter's events, bits of HEALTH_SUMMARY and SMB_ALERT# are all that differs; the bits outside `p` are as they were. -/
def Summarized (p : Nat → Prop) (s t : State) : Prop :=
  ∃ a b al, t = { s with arb := a, health := { s.health with bits := b, alert := al } } ∧
    ∀ j, ¬p j → b.getLsbD j = s.health.bits.getLsbD j

theorem Summarized.refl (p : Nat → Prop) (s : State) : Summarized p s s := ⟨s.arb, s.health.bits, s.health.alert, rfl, fun _ _ => rfl⟩

theorem Summarized.trans {p : Nat → Prop} {s t u : State} (h : Summarized p s t) (g : Summarized p t u) : Summarized p s u := by
  obtain ⟨a, b, al, rfl, hb⟩ := h
  obtain ⟨a', b', al', rfl, hb'⟩ := g
  exact ⟨a', b', al', rfl, fun j hj => (hb' j hj).trans (hb j hj)⟩

theorem Summarized.mono {p q : Nat → Prop} {s t : State} (h : Summarized p s t) (hpq : ∀ j, p j → q j) : Summarized q s t := by
  obtain ⟨a, b, al, e, hb⟩ := h
  exact ⟨a, b, al, e, fun j hj => hb j fun hp => hj (hpq j hp)⟩

theorem Summarized.bit {p : Nat → Prop} {s t : State} (h : Summarized p s t) {j : Nat} (hj : ¬p j) :
    t.health.bits.getLsbD j = s.health.bits.getLsbD j := by
  obtain ⟨a, b, al, rfl, hb⟩ := h
  exact hb j hj

theorem Summarized.margins {p : Nat → Prop} {s t : State} (h : Summarized p s t) : t.health.margins = s.health.margins := by
  obtain ⟨a, b, al, rfl, -⟩ := h
  rfl

theorem Summarized.arbHealth {p : Nat → Prop} {s t : State} (h : Summarized p s t) : ArbHealth s t := by
  obtain ⟨a, b, al, rfl, -⟩ := h
  exact ⟨_, _, rfl⟩

theorem putUnmasked_summarized (e : Event) (s : State) : Summarized (fun _ => False) s (putUnmasked e s) := by
  obtain ⟨a, ha⟩ := putUnmasked_arb e s
  exact ⟨a, _, _, ha, fun _ _ => rfl⟩

theorem setBitOnly_summarized (i : Nat) (v : Bool) (s : State) : Summarized (· = i) s (setBitOnly i v s) := by
  unfold setBitOnly
  split
  · exact .refl _ s
  · extract_lets b
    obtain ⟨a, ha⟩ := putUnmasked_arb { code := 6, object := i, status := .done, detail := bit v, value := b.setWidth 64 }
      { s with health := { s.health with bits := b, alert := true } }
    refine ⟨a, b, true, ha, fun j hj => ?_⟩
    unfold b
    split
    · simp [BitVec.getLsbD_or, BitVec.getLsbD_twoPow, Ne.symm hj]
    · by_cases hlt : j < 12
      · rw [BitVec.getLsbD_and, BitVec.getLsbD_not, BitVec.getLsbD_twoPow, decide_eq_false (Ne.symm hj)]
        simp [hlt]
      · simp [BitVec.getLsbD_of_ge _ _ (Nat.le_of_not_lt hlt)]

theorem setBitOnly_bit {i : Nat} (hi : i < 12) (v : Bool) (s : State) : (setBitOnly i v s).health.bits.getLsbD i = v := by
  unfold setBitOnly
  split
  · assumption
  · extract_lets b
    obtain ⟨a, ha⟩ := putUnmasked_arb { code := 6, object := i, status := .done, detail := bit v, value := b.setWidth 64 }
      { s with health := { s.health with bits := b, alert := true } }
    rw [ha]
    show b.getLsbD i = v
    unfold b
    cases v
    · simp [BitVec.getLsbD_and, BitVec.getLsbD_not, BitVec.getLsbD_twoPow, hi]
    · simp [BitVec.getLsbD_or, BitVec.getLsbD_twoPow, hi]

theorem refreshBacklog_summarized (s : State) : Summarized (· = 11) s (refreshBacklog s) :=
  (setBitOnly_summarized 11 _ s).trans (setBitOnly_summarized 11 _ _)

theorem setHealth_summarized (i : Nat) (v : Bool) (s : State) : Summarized (fun j => j = i ∨ j = 11) s (setHealth i v s) :=
  ((setBitOnly_summarized i v s).mono fun _ => .inl).trans ((refreshBacklog_summarized _).mono fun _ => .inr)

theorem setHealth_bit {i : Nat} (hi : i < 11) (v : Bool) (s : State) : (setHealth i v s).health.bits.getLsbD i = v :=
  ((refreshBacklog_summarized (setBitOnly i v s)).bit (Nat.ne_of_lt hi)).trans (setBitOnly_bit (Nat.lt_succ_of_lt hi) v s)

theorem postEvent_summarized (code object detail : Nat) (v : BitVec 64) (st : Status) (s : State) :
    Summarized (· = 11) s (postEvent code object detail v st s) :=
  ((putUnmasked_summarized _ s).mono fun _ => False.elim).trans (refreshBacklog_summarized _)

theorem refreshThrottled_summarized (s : State) : Summarized (fun j => j = 3 ∨ j = 11) s (refreshThrottled s) :=
  setHealth_summarized ..

/-! ### Counters, margins and self-tests (14 R415-R425) -/

/-- COUNTER_READ runs in the row of its OP. -/
theorem runCounter_of_ready {cid op : Nat} {c : Cmd} {s : State} (h : Ready s cid 0x0804 c) (hop : le c.pkt 20 1 = op)
    (f : Cmd → State → State) : runCounter cid op f s = f c s := by
  simp only [runCounter, h.1, hop, ne_eq, not_true, false_and, if_false]
  exact runCmd_of_ready h f

theorem setProfiling_of_ready {cid op : Nat} {c : Cmd} {s : State} (h : Ready s cid 0x0804 c) (hop : le c.pkt 20 1 = op)
    (p : Option (Tbl Nat)) :
    (c.ring = 0 → le c.pkt 21 1 = 1 → setProfiling cid op p s = done cid 0 0 { s with
      svc := { s.svc with prof := p, window := s.svc.window.filter fun e => decide (e.1 < 0x0100 * 65536) } }) ∧
    (c.ring ≠ 0 → setProfiling cid op p s = refuse cid .accessDenied 1 s) := by
  unfold setProfiling
  rw [runCounter_of_ready h hop]
  refine ⟨fun hring hgroup => ?_, fun hring => ?_⟩
  · have hf : armFault c = none := by simp [armFault, hring, hgroup]
    rw [hf]
    rfl
  · have hf : armFault c = some (.accessDenied, 1) := by simp [armFault, hring]
    rw [hf]

/-- The worst of a window's margins is judged in the dirty marks and two bits of the summary; the optical samples stay. -/
def Judged (s t : State) : Prop :=
  ∃ a h, t = { s with arb := a, health := h } ∧ h.margins.tx = s.health.margins.tx ∧ h.margins.rx = s.health.margins.rx

theorem Summarized.judged {p : Nat → Prop} {s t : State} (h : Summarized p s t) : Judged s t := by
  obtain ⟨a, b, al, rfl, -⟩ := h
  exact ⟨_, _, rfl, rfl, rfl⟩

theorem Judged.trans {s t u : State} (h : Judged s t) (g : Judged t u) : Judged s u := by
  obtain ⟨a, b, rfl, htx, hrx⟩ := h
  obtain ⟨c, d, rfl, gtx, grx⟩ := g
  exact ⟨c, d, rfl, gtx.trans htx, grx.trans hrx⟩

theorem markMargin_judged (cls : Nat) (s : State) : Judged s (markMargin cls s) := by
  have hbit (i : Nat) (p : Prop) [Decidable p] (t : State) : Judged t (if p then setHealth i true t else t) := by
    split
    · exact (setHealth_summarized ..).judged
    · exact ⟨_, _, rfl, rfl, rfl⟩
  unfold markMargin
  extract_lets _ _ marked warned
  have hmarked : Judged s marked := ⟨s.arb, marked.health, rfl, rfl, rfl⟩
  exact (hmarked.trans (hbit 7 _ _)).trans (hbit 8 _ _)

/-- Taking the eye of a channel changes that channel's record alone, and judges it. -/
theorem takeEye_some (ch w h : Nat) (s : State) :
    Judged (modChannel ch (fun c => { c with eyeW := w, eyeH := h }) s) (takeEye ch (some (w, h)) s) :=
  markMargin_judged ..

/-- Channel `k` holds the eye measured for it, where there is one. -/
def EyeHeld (eyes : List (Nat × Nat)) (k : Nat) (s : State) : Prop :=
  ∀ e, eyes[k]? = some e → ∃ ch : Channel, tget s.mem.channels k = some ch ∧ ch.eyeW = e.1 ∧ ch.eyeH = e.2

/-- Taking the eyes of a list of channels leaves every one of them held, with the commands and optical samples as they were. -/
theorem takeEyes_held (eyes : List (Nat × Nat)) (l : List Nat) (s : State) :
    let t := l.foldl (fun s ch => takeEye ch eyes[ch]? s) s
    (∀ k, k ∈ l ∨ EyeHeld eyes k s → EyeHeld eyes k t) ∧ t.cmds = s.cmds ∧ t.health.margins.tx = s.health.margins.tx ∧
      t.health.margins.rx = s.health.margins.rx := by
  induction l generalizing s with
  | nil => exact ⟨fun k h => h.elim (nomatch ·) id, rfl, rfl, rfl⟩
  | cons ch l ih =>
    obtain ⟨hheld, hcmds, htx, hrx⟩ := ih (takeEye ch eyes[ch]? s)
    have hstep : (∀ k, k = ch ∨ EyeHeld eyes k s → EyeHeld eyes k (takeEye ch eyes[ch]? s)) ∧
        (takeEye ch eyes[ch]? s).cmds = s.cmds ∧ (takeEye ch eyes[ch]? s).health.margins.tx = s.health.margins.tx ∧
        (takeEye ch eyes[ch]? s).health.margins.rx = s.health.margins.rx := by
      rcases he : eyes[ch]? with _ | ⟨w, h⟩
      · refine ⟨fun k hk => ?_, rfl, rfl, rfl⟩
        rcases hk with rfl | hk
        · intro e hk
          cases he.symm.trans hk
        · exact hk
      · obtain ⟨a, g, e, htx, hrx⟩ := takeEye_some ch w h s
        rw [e]
        refine ⟨fun k hk e' hek => ?_, rfl, htx, hrx⟩
        by_cases hkc : k = ch
        · subst hkc
          obtain rfl := Option.some.inj (he.symm.trans hek)
          exact ⟨_, tget_tset_same .., rfl, rfl⟩
        · obtain ⟨c, hc, hcw⟩ := hk.resolve_left hkc e' hek
          exact ⟨c, (tget_tset_other _ _ _ _ hkc).trans hc, hcw⟩
    obtain ⟨sheld, scmds, stx, srx⟩ := hstep
    refine ⟨fun k hk => hheld k ?_, hcmds.trans scmds, htx.trans stx, hrx.trans srx⟩
    rcases hk with hk | hk
    · rcases List.mem_cons.1 hk with rfl | hl
      · exact .inr (sheld _ (.inl rfl))
      · exact .inl hl
    · exact .inr (sheld k (.inr hk))

theorem coreOf_modCore_same {k : Nat} (f : Core → Core) {s : State} (hk : k < s.cores.length) :
    coreOf (modCore k f s) k = f (coreOf s k) := by
  simp [coreOf, modCore, List.getD_eq_getElem?_getD, hk]

theorem coreOf_modCore_other {j k : Nat} (f : Core → Core) (s : State) (h : j ≠ k) : coreOf (modCore k f s) j = coreOf s j := by
  simp [coreOf, modCore, List.getD_eq_getElem?_getD, List.getElem?_set_ne (Ne.symm h)]

theorem refreshThrottled_cores (s : State) : (refreshThrottled s).cores = s.cores := by
  obtain ⟨a, b, al, e, -⟩ := refreshThrottled_summarized s
  rw [e]

theorem coreOf_serveCore {k : Nat} {s : State} (hk : k < s.cores.length) :
    coreOf (serveCore k s) k = { coreOf s k with halted := none, below := none } := by
  rw [← coreOf_modCore_same (fun c : Core => { c with halted := none, below := none }) hk]
  exact congrArg (fun l : List Core => l.getD k Core.reset) (refreshThrottled_cores _)

/-- The end of a core's test: a core that the test holds serves again or stays halted, and its store is empty. -/
theorem coreTested_core {k : Nat} (cid : Nat) (failed : Bool) {s : State} (hk : k < s.cores.length) :
    ((coreOf s k).halted = some (.test cid) →
      (coreOf (coreTested k cid failed s) k).halted = if failed then some .failed else none) ∧
    (coreOf (coreTested k cid failed s) k).store = [] := by
  have hwipe : coreOf (wipeCore k s) k = (coreOf s k).wiped := coreOf_modCore_same Core.wiped hk
  have hlen : k < (wipeCore k s).cores.length := by
    simpa [wipeCore, modCore] using hk
  unfold coreTested
  extract_lets w
  split
  · rw [coreOf_modCore_same _ hlen, hwipe]
    exact ⟨fun _ => rfl, rfl⟩
  · split
    · rw [coreOf_serveCore hlen, hwipe]
      exact ⟨fun _ => rfl, rfl⟩
    · next hnot =>
      rw [hwipe]
      refine ⟨fun hheld => (hnot ?_).elim, rfl⟩
      rw [hwipe]
      exact hheld

/-- Settles O38, command by command. -/
theorem countersMarginsTests : Obligations.CountersMarginsTests := by
  unfold Obligations.CountersMarginsTests
  intro cid c s
  refine ⟨fun h hop => congrArg Host.Outcome.next (runCounter_of_ready h hop _), ?arm, ?scan, ?scanned, ?test, ?ended⟩
  case arm =>
    rintro op i p (⟨rfl, rfl, rfl⟩ | ⟨rfl, rfl, rfl⟩) h hop
    · obtain ⟨harm, hdenied⟩ := setProfiling_of_ready h hop (some [])
      exact ⟨fun hring hgroup => congrArg Host.Outcome.next (harm hring hgroup),
        fun hring => congrArg Host.Outcome.next (hdenied hring)⟩
    · obtain ⟨harm, hdenied⟩ := setProfiling_of_ready h hop none
      exact ⟨fun hring hgroup => congrArg Host.Outcome.next (harm hring hgroup),
        fun hring => congrArg Host.Outcome.next (hdenied hring)⟩
  case scan =>
    intro h
    refine ⟨fun hfresh => congrArg Host.Outcome.next ?_, fun hreport => congrArg Host.Outcome.next ?_⟩
    · rw [marginScan, runCmd_of_ready h, if_pos hfresh]
    · rw [marginScan, runCmd_of_ready h, if_neg (by omega)]
      rfl
  case scanned =>
    intro tx rx eyes h
    let taken : State := if opticsOn s then takeOptical tx rx s else s
    obtain ⟨hheld, hcmds, htx, hrx⟩ := takeEyes_held eyes (servingChannels taken) taken
    have hserving : servingChannels taken = servingChannels s := by
      unfold taken
      split <;> rfl
    refine ⟨(servingChannels taken).foldl (fun s ch => takeEye ch eyes[ch]? s) taken, ?_, fun hon => ?_,
      fun k hk => hheld k (.inl (hserving ▸ hk)), hcmds.trans ?_⟩
    · simp only [exec, execMarginScanComplete, marginScanned, show inProgress s cid 0x0805 = some c from h]
      rfl
    · have htaken : taken = takeOptical tx rx s := if_pos hon
      rw [htx, hrx, htaken]
      exact ⟨rfl, rfl⟩
    · unfold taken
      split <;> rfl
  case test =>
    intro h hok
    refine ⟨fun htest => congrArg Host.Outcome.next ?_, fun hcore hserves hunbound => congrArg Host.Outcome.next ?_⟩
    · have htaken : testTaken c.pkt = true := decide_eq_true htest
      rw [selftestRun, runTest_of_ready h hok, if_pos htaken]
    · have hnot : ¬testTaken c.pkt = true := by simpa [testTaken] using hcore
      rw [selftestRun, runTest_of_ready h hok, if_neg hnot, if_neg (by simp [hserves]), if_neg (by simp [hunbound])]
  case ended =>
    intro n first h hlen hk
    refine ⟨fun htest => ?_, fun htest => congrArg Host.Outcome.next ?_⟩
    · obtain ⟨hhalted, hstore⟩ := coreTested_core cid (n != 0) (s := s) (by omega : le c.pkt 21 1 < s.cores.length)
      refine ⟨coreTested (le c.pkt 21 1) cid (n != 0) s, ?_, fun hheld => ?_, hstore⟩
      · simp only [exec, execSelftestEnd, selftestEnd, show inProgress s cid 0x0806 = some c from h, htest]
        rfl
      · rw [hhalted hheld]
        by_cases hn : n = 0 <;> simp [hn]
    · have hhigh : ¬le c.pkt 20 1 ≤ 2 := by omega
      have hbias : ¬le c.pkt 20 1 = 1 := by omega
      simp only [selftestEnd, show inProgress s cid 0x0806 = some c from h, testResult, if_pos htest, if_neg hhigh, if_neg hbias]

end Sys2Proof.Machine

namespace Sys2Proof.Machine

/-! ### Latch, slot pins and clocks (13 R387, R390, 01 R23, R24) -/

/-- What an opened latch brings about in a DEVICE_STATE. -/
def latchActs (d : DevState) (t : State) : State :=
  match d with
  | .ready | .degraded => if t.dev.stopping.isSome then t else beginStop .latch true t
  | .updating | .booting => modDev (fun d => { d with latchDue := true }) t
  | .halfMast | .shutdown => t

theorem latchOpen_of_closed {s : State} (hclosed : s.link.latchOpen = false) (hon : hubOn s = true) :
    latchOpen s = latchActs s.dev.state
      { s with link := { s.link with latchOpen := true }, health := { s.health with alert := true } } := by
  have hsclk : s.clk.sclk = true := (Bool.and_eq_true_iff.1 hon).2
  have hset : setLatch true s =
      { s with link := { s.link with latchOpen := true }, health := { s.health with alert := true } } := by
    rw [setLatch, hsclk, Bool.or_true]
  have hnot : ¬(!hubOn (setLatch true s)) = true := by
    rw [show hubOn (setLatch true s) = true from hon]
    decide
  rw [latchOpen, if_neg (Bool.eq_false_iff.1 hclosed)]
  dsimp only
  rw [if_neg hnot, hset]
  rfl

/-- Settles O42, event by event. -/
theorem latchPinsClocks : Obligations.LatchPinsClocks := by
  unfold Obligations.LatchPinsClocks
  intro s
  refine ⟨?latched, ?closed, ?pins, ?syspll, ?refclk⟩
  case latched =>
    intro hclosed hon t
    have hlatch := latchOpen_of_closed hclosed hon
    refine ⟨fun hserves hrun => congrArg Host.Outcome.next (hlatch.trans ?_),
      fun hstate => congrArg Host.Outcome.next (hlatch.trans ?_), fun hstate => congrArg Host.Outcome.next (hlatch.trans ?_)⟩
    · have hstate : s.dev.state = .ready ∨ s.dev.state = .degraded := by simpa [serving] using hserves
      have hnot : ¬t.dev.stopping.isSome = true := by simp [t, hrun]
      rcases hstate with h | h <;> exact (congrArg (latchActs · t) h).trans (if_neg hnot)
    · rcases hstate with h | h <;> exact congrArg (latchActs · t) h
    · rcases hstate with h | h <;> exact congrArg (latchActs · t) h
  case closed =>
    intro hopen
    exact congrArg Host.Outcome.next (if_pos hopen)
  case pins =>
    intro pins hpins hon
    refine ⟨bobPost 0x10 0x0006 pins.toNat { s with link := { s.link with slotPins := pins } }, congrArg Host.Outcome.next ?_, rfl, rfl⟩
    rw [slotIdChange, if_neg hpins]
    exact if_pos hon
  case syspll =>
    intro hon hlocked
    exact congrArg Host.Outcome.next (if_pos (Bool.and_eq_true_iff.2 ⟨hon, hlocked⟩))
  case refclk =>
    intro hsclk
    exact congrArg Host.Outcome.next (if_pos hsclk)

/-! ### Liveness (10 R319, R320, 11 R345) -/

/-- Settles O43. -/
theorem liveness_holds : Obligations.Liveness := by
  unfold Obligations.Liveness
  intro s hon
  refine ⟨fun k hlocked hk hnew => ?_, fun hbound hwell => ?_, fun hbound hserves hsweep => ?_⟩
  · have hruns : ¬(!(hubOn s && s.clk.syspll && decide (k ≤ 4))) = true := by simp [hon, hlocked, hk]
    have hmarks : (if s.pair.marks.contains k then s.pair.marks else s.pair.marks ++ [k]) = s.pair.marks ++ [k] :=
      if_neg (Bool.eq_false_iff.1 hnew)
    refine ⟨fun hfour => congrArg Host.Outcome.next ?_, fun hfew => congrArg Host.Outcome.next ?_⟩
    · rw [liveness, if_neg hruns, hmarks]
      exact if_pos (by simp [hfour])
    · rw [liveness, if_neg hruns, hmarks]
      exact if_neg (by simp; omega)
  · refine ⟨fun hdue => congrArg Host.Outcome.next (if_pos ?_), fun hearly => congrArg Host.Outcome.next (if_neg ?_)⟩
    · simp only [hon, hbound, hwell, Bool.not_false, Bool.true_and, decide_eq_true_eq]
      exact hdue
    · simp only [hon, hbound, hwell, Bool.not_false, Bool.true_and, decide_eq_true_eq, Nat.not_le]
      exact hearly
  · refine ⟨fun hdue => congrArg Host.Outcome.next (if_pos ?_), fun hearly => congrArg Host.Outcome.next (if_neg ?_)⟩
    · simp only [hon, hbound, hserves, hsweep, Option.isNone_none, Bool.not_false, Bool.true_and, decide_eq_true_eq]
      exact hdue
    · simp only [hon, hbound, hserves, hsweep, Option.isNone_none, Bool.not_false, Bool.true_and, decide_eq_true_eq, Nat.not_le]
      exact hearly

/-! ### Resets from the link (13 Table 13-7) -/

/-- Settles O40, event by event. -/
theorem linkResets : Obligations.LinkResets := by
  unfold Obligations.LinkResets
  intro s
  refine ⟨?resets, ?asserted, ?unclocked, ?held, ?trains⟩
  case resets =>
    have hboth (h1 : hubOn s = true) (h2 : s.link.up = true) : linked s = true := Bool.and_eq_true_iff.2 ⟨h1, h2⟩
    have hneither (h : hubOn s = false ∨ s.link.up = false) : ¬linked s = true := by
      rcases h with h | h <;> simp [linked, h]
    rintro i up disabled source (⟨rfl, rfl, rfl, rfl⟩ | ⟨rfl, rfl, rfl, rfl⟩ | ⟨rfl, rfl, rfl, rfl⟩)
    · exact ⟨fun h1 h2 => congrArg Host.Outcome.next (if_pos (hboth h1 h2)),
        fun h => congrArg Host.Outcome.next (if_neg (hneither h))⟩
    · exact ⟨fun h1 h2 => congrArg Host.Outcome.next (if_pos (hboth h1 h2)),
        fun h => congrArg Host.Outcome.next (if_neg (hneither h))⟩
    · exact ⟨fun h1 h2 => congrArg Host.Outcome.next (if_pos (hboth h1 h2)),
        fun h => congrArg Host.Outcome.next (if_neg (hneither h))⟩
  case asserted =>
    intro hperst hsclk
    have hrun : perstAssert s = linkEvent 1 false { s with link := { s.link with perst := true, up := false } } := by
      rw [perstAssert, if_neg (Bool.eq_false_iff.1 hperst)]
      exact if_pos hsclk
    exact ⟨_, congrArg Host.Outcome.next hrun, rfl, rfl, rfl, rfl, rfl, rfl, rfl, rfl, rfl, rfl⟩
  case unclocked =>
    intro hperst hsclk
    refine congrArg Host.Outcome.next ?_
    rw [perstAssert, if_neg (Bool.eq_false_iff.1 hperst)]
    exact if_neg (Bool.eq_false_iff.1 hsclk)
  case held =>
    intro hperst
    exact ⟨congrArg Host.Outcome.next (if_pos hperst), congrArg Host.Outcome.next (if_neg (by simp [hperst]))⟩
  case trains =>
    intro speed width
    refine ⟨fun hon hperst hdown hlow hhigh hwidth => congrArg Host.Outcome.next (if_pos ?_),
      fun hbad => congrArg Host.Outcome.next (if_neg ?_)⟩
    · simp [hon, hperst, hdown, hlow, hhigh, hwidth]
    · simp only [Bool.and_eq_true, decide_eq_true_eq]
      rintro ⟨⟨⟨⟨-, hperst⟩, -⟩, hlow, hhigh⟩, -⟩
      rcases hbad with h | h | h
      · omega
      · omega
      · simp [h] at hperst

/-! ### Registers after a reset (02 R33) -/

/-- What the registers of BAR0 show is as after a reset. -/
structure RegistersFresh (s : State) : Prop where
  bar : s.bar = Bar.reset
  state : s.dev.state = .booting
  parts : s.parts = none
  sent : s.sent = Sentinel.reset
  reqs : s.reqs = []
  cmds : s.cmds = []
  reads : s.reads = []
  mode : s.pair.mode = .unpaired
  role : s.pair.role = .none
  dying : s.pair.partnerDying = false
  bits : s.health.bits = 0

theorem moduleReset_fresh (source : Nat) (s : State) : RegistersFresh (moduleReset source s) :=
  ⟨rfl, rfl, rfl, rfl, rfl, rfl, rfl, rfl, rfl, rfl, rfl⟩

theorem linkEvent_fresh (source : Nat) (up : Bool) (s : State) : RegistersFresh (linkEvent source up s) :=
  ⟨rfl, rfl, rfl, rfl, rfl, rfl, rfl, rfl, rfl, rfl, rfl⟩

theorem RegistersFresh.words {s : State} (h : RegistersFresh s) :
    doorbellDropsWord s = 0 ∧ deviceStateWord s = 0 ∧ adminSizeWord s = 0 ∧ sentinelWord s = 0 ∧ pairStateWord s = 0 ∧
      healthWord s = 0 ∧ occupancyWord s = 0 := by
  obtain ⟨hbar, hstate, hparts, hsent, hreqs, hcmds, hreads, hmode, hrole, hdying, hbits⟩ := h
  refine ⟨?_, ?_, ?_, ?_, ?_, ?_, ?_⟩
  · rw [doorbellDropsWord, hbar]; rfl
  · rw [deviceStateWord, hstate, hparts]; rfl
  · rw [adminSizeWord, hbar]; rfl
  · rw [sentinelWord, tableOk, armedCount, hsent]; rfl
  · simp [pairStateWord, bound, hmode, hrole, hdying, modeCode, roleCode, bit]
  · rw [healthWord, hbits]; rfl
  · rw [occupancyWord, inFlight, hreqs, hcmds, hreads]; rfl

theorem RegistersFresh.regValue {s : State} (h : RegistersFresh s) {off : Nat}
    (hoff : off ∈ [0x08, 0x10, 0x20, 0x28, 0x30, 0x40, 0x48, 0x50, 0x60]) : regValue off s = 0 := by
  obtain ⟨hdrops, hstate, hsize, hsentinel, hpair, hhealth, hoccupancy⟩ := h.words
  have hbar := h.bar
  simp only [List.mem_cons, List.not_mem_nil, or_false] at hoff
  rcases hoff with rfl | rfl | rfl | rfl | rfl | rfl | rfl | rfl | rfl
  · exact congrArg (BitVec.ofNat 64) hdrops
  · exact congrArg (BitVec.ofNat 64) hstate
  · exact congrArg Bar.adminBase hbar
  · exact congrArg (BitVec.ofNat 64) hsize
  · exact congrArg Bar.replyBase hbar
  · exact congrArg (BitVec.ofNat 64) hsentinel
  · exact congrArg (BitVec.ofNat 64) hpair
  · exact congrArg (BitVec.ofNat 64) hhealth
  · exact congrArg (BitVec.ofNat 64) hoccupancy

/-- Settles O54: each of the events is a module reset, after which the registers are fresh. -/
theorem resetRegisters : Obligations.ResetRegisters := by
  unfold Obligations.ResetRegisters
  intro c s t hevent hexec
  suffices h : RegistersFresh t ∧ t.clk.localTime = s.clk.localTime from
    ⟨fun off hoff => h.1.regValue hoff, congrArg (BitVec.ofNat 64) h.2⟩
  rcases hevent with ⟨hc, hon, hup⟩ | ⟨rfl, hperst, hsclk⟩ | ⟨rfl, k, t0, hupdate, hlate⟩
  · have hlinked : linked s = true := Bool.and_eq_true_iff.2 ⟨hon, hup⟩
    rcases hc with rfl | rfl
    · obtain rfl := Host.Outcome.next.inj ((congrArg Host.Outcome.next (if_pos hlinked)).symm.trans hexec)
      exact ⟨linkEvent_fresh .., rfl⟩
    · obtain rfl := Host.Outcome.next.inj ((congrArg Host.Outcome.next (if_pos hlinked)).symm.trans hexec)
      exact ⟨linkEvent_fresh .., rfl⟩
  · have hrun : perstAssert s = linkEvent 1 false { s with link := { s.link with perst := true, up := false } } := by
      rw [perstAssert, if_neg (Bool.eq_false_iff.1 hperst)]
      exact if_pos hsclk
    obtain rfl := Host.Outcome.next.inj ((congrArg Host.Outcome.next hrun).symm.trans hexec)
    exact ⟨linkEvent_fresh .., rfl⟩
  · have hrun : pauseTimeout s = moduleReset 5 s := by
      simp only [pauseTimeout, hupdate]
      exact if_pos hlate
    obtain rfl := Host.Outcome.next.inj ((congrArg Host.Outcome.next hrun).symm.trans hexec)
    exact ⟨moduleReset_fresh .., rfl⟩

end Sys2Proof.Machine

namespace Sys2Proof.Machine

/-! ### Halo rows (06 R195-R207, Table 6-6) -/

theorem faultFrame_frame (pi : Nat) (s : State) :
    { faultFrame pi s with reqs := s.reqs, arb := s.arb, svc := s.svc } = s := by
  unfold faultFrame
  dsimp only
  refine List.foldlRecOn _ _ (motive := fun t : State => { t with reqs := s.reqs, arb := s.arb, svc := s.svc } = s) rfl
    fun t ht slot _ => Eq.trans ?_ ht
  exact (congrArg (fun x : State => { x with reqs := s.reqs, arb := s.arb, svc := s.svc })
    (endReq_frame slot .integrityMismatch 0 (modReq slot (fun r => { r with stopped := true }) t)) :)

/-- After a half's frame is flushed no path of that frame holds a slot. -/
theorem mem_flushHalf {pi h : Nat} {s : State} {e : Nat × HaloPath} (he : e ∈ (flushHalf pi h s).halo) :
    e ∈ s.halo ∧ ¬(pathPattern (e.1 / 256) = pi ∧ pathHalf (e.1 / 256) = h) := by
  obtain ⟨hmem, hkeep⟩ := List.mem_filter.1 he
  exact ⟨hmem, by simpa [← not_and_or] using hkeep⟩

theorem haloWrite_of_due {path frame row layer : Nat} {s : State} (hrun : runningFrame s (pathPattern path) (pathHalf path) = some frame)
    (horder : inOrder (haloOf s path layer) row = true) (hdue : rowDue s path row layer = true) (bytes data : Nat) :
    haloWrite path frame row layer bytes (pathDown path) data s =
      if (haloOf s path layer).credits = 0 then waitOn (pathPattern path) (producer s path) s
      else stopWait (pathPattern path) (producer s path) { s with
        halo := tset s.halo (haloKey path layer) { haloOf s path layer with
          full := (haloOf s path layer).full ++ [{
            frame := frame, row := row, layer := layer, bytes := bytes, down := pathDown path, data := data % 2 ^ (8 * bytes) }]
          credits := (haloOf s path layer).credits - 1, last := some row } } := by
  rw [haloWrite]
  dsimp only
  rw [if_neg (by simp [hrun, horder, hdue])]

theorem haloRead_of_runs {path : Nat} {s : State} (hbusy : patBusy s (pathPattern path) = true) (hclocked : coresClocked s = true)
    (hserves : (coreOf s (consumer s path)).halted = none) (frame row layer : Nat) :
    (∀ q, haloOf s path layer = q → q.full = [] → runningFrame s (pathPattern path) (halfOfCore (consumer s path)) = some frame →
      haloRead path frame row layer s = waitOn (pathPattern path) (consumer s path) s) ∧
    (∀ q r rest, haloOf s path layer = q → q.full = r :: rest → haloRead path frame row layer s =
      if r.frame = frame ∧ r.row = row ∧ r.layer = layer then
        stopWait (pathPattern path) (consumer s path) { s with
          halo := tset s.halo (haloKey path layer) { q with full := rest, credits := q.credits + 1 } }
      else bobPost (consumer s path) 0x0013 (row % 2 ^ 16 + layer % 2 ^ 8 * 2 ^ 16)
        (flushHalf (pathPattern path) 1 (flushHalf (pathPattern path) 0 (faultFrame (pathPattern path) s)))) := by
  have hruns : ¬(!(patBusy s (pathPattern path) && coresClocked s && (coreOf s (consumer s path)).halted.isNone)) = true := by
    simp [hbusy, hclocked, hserves]
  refine ⟨?_, ?_⟩
  · rintro q rfl hempty hrun
    rw [haloRead, if_neg hruns, hempty]
    exact if_pos hrun
  · rintro q r rest rfl hfull
    rw [haloRead, if_neg hruns, hfull]

theorem nextFrame_of_flushed {pi k : Nat} {g : Stage} {p : Pattern} {s : State} (hg : tget s.stages k = some g)
    (hp : tget s.pats pi = some p) (hall : ∀ e ∈ s.stages, e.1 / 2 = pi → e.2.flushed = true) (hk : k / 2 = pi) :
    ∃ x : Stage, tget (nextFrame pi s).stages k = some x ∧ x.frame = (g.frame + 1) % 2 ^ 32 ∧ x.began = none ∧ x.flushed = false := by
  have hturn : ((s.stages.filter fun e => e.1 / 2 = pi).all fun e => e.2.flushed) = true := by
    simpa [← imp_iff_not_or] using hall
  have hplan (q : Plan) (j : Nat) (r : Option Nat) (x : Stage) : (withPlan q j r x).frame = x.frame ∧
      (withPlan q j r x).began = x.began ∧ (withPlan q j r x).flushed = x.flushed := by
    unfold withPlan
    split <;> exact ⟨rfl, rfl, rfl⟩
  rw [nextFrame, if_pos hturn]
  simp only [tget_tmap, hg, hp, Option.map_some, hk, if_true]
  exact ⟨_, rfl, hplan ..⟩

/-- Settles O51: rows written, rows read, and the end of a frame. -/
theorem haloRows : Obligations.HaloRows := by
  unfold Obligations.HaloRows
  intro s
  refine ⟨?write, ?read, ?ended⟩
  case write =>
    rintro path frame row layer bytes data q rfl hrun horder hdue
    have hrow := haloWrite_of_due hrun horder hdue bytes data
    exact ⟨fun hcredit => congrArg Host.Outcome.next (hrow.trans (if_neg (Nat.ne_of_gt hcredit))),
      fun hnone => congrArg Host.Outcome.next (hrow.trans (if_pos hnone))⟩
  case read =>
    rintro path frame row layer q rfl hbusy hclocked hserves
    obtain ⟨hempty, hhead⟩ := haloRead_of_runs hbusy hclocked hserves frame row layer
    refine ⟨fun hnil hrun => congrArg Host.Outcome.next (hempty _ rfl hnil hrun),
      fun r rest hfull hf hr hl => congrArg Host.Outcome.next ((hhead _ r rest rfl hfull).trans (if_pos ⟨hf, hr, hl⟩)),
      fun r rest hfull hother => ⟨_, congrArg Host.Outcome.next ((hhead _ r rest rfl hfull).trans (if_neg ?_)), fun e he hpi => ?_, ?_⟩⟩
    · rintro ⟨hf, hr, hl⟩
      exact hother.elim (· hf) fun h => h.elim (· hr) (· hl)
    · obtain ⟨hmem, hone⟩ := mem_flushHalf he
      exact ⟨fun h => (mem_flushHalf hmem).2 ⟨hpi, h⟩, fun h => hone ⟨hpi, h⟩⟩
    · exact (congrArg (fun x : State => { x with halo := s.halo }) (faultFrame_frame (pathPattern path) s) :)
  case ended =>
    intro pi h spent lastRow g p hg hp
    refine ⟨fun hopen hbegan hover => congrArg Host.Outcome.next ?_, fun hnot => congrArg Host.Outcome.next ?_, fun hlast => ?_,
      fun hall hkey => nextFrame_of_flushed hg hp hall hkey⟩
    · have hends : ¬(g.flushed || g.began.isNone || !frameOver s pi lastRow) = true := by
        simp [hopen, hover, Option.isSome_iff_ne_none.1 hbegan]
      simp only [frameEnd, hg, hp, if_neg hends, modStage, tmod_some _ hg]
    · have hstays : (g.flushed || g.began.isNone || !frameOver s pi lastRow) = true := by
        rcases hnot with h | h | h <;> simp [h]
      simp only [frameEnd, hg, hp, if_pos hstays]
    · simp [movedHeights, hlast]

/-! ### SMBus transfers (13 R400-R402) -/

theorem smbReply_of_sclk {s : State} (h : s.clk.sclk = true) (code : Nat) (args : List Nat) (coarse : Bool) (fields : List (Nat × Nat)) :
    smbReply code args coarse fields s = { s with tx := s.tx ++ [smbAnswer s code args ((1, bit coarse) :: fields)] } := by
  rw [smbReply, if_neg (by simp [h])]
  rfl

theorem releaseAlert_of_sclk {s : State} (h : s.clk.sclk = true) :
    releaseAlert s = { s with health := { s.health with alert := false } } := if_pos h

theorem smbNak_of_sclk {s : State} (h : s.clk.sclk = true) : smbNak s = { s with tx := s.tx ++ [.smbusNak] } := if_pos h

/-! ### JTAG (09 R275, R277) -/

/-- What a tenant's removal makes of its entry at once (09 R293 steps 1 to 3). -/
def leavingTenant (remover : Nat) (x : Tenant) : Tenant :=
  { zeroKeys x with st := .removing, epoch := (x.epoch + 1) % 256, remover := some remover }

theorem endReqs_changes (l : List Nat) (st : Status) (d : Nat) (s : State) : ∃ a v, endReqs l st d s = { s with arb := a, svc := v } :=
  ⟨_, _, (congrArg (fun x : State => { x with arb := (endReqs l st d s).arb, svc := (endReqs l st d s).svc })
    (endReqs_frame l st d s) :)⟩

theorem refuseAll_changes (l : List Nat) (st : Status) (d : Nat) (s : State) :
    ∃ c a p x f, refuseAll l st d s = { s with cmds := c, arb := a, pair := p, tx := x, free := f } :=
  ⟨_, _, _, _, _, (congrArg (fun x : State => { x with
      cmds := (refuseAll l st d s).cmds, arb := (refuseAll l st d s).arb, pair := (refuseAll l st d s).pair
      tx := (refuseAll l st d s).tx, free := (refuseAll l st d s).free }) (refuseAll_frame l st d s) :)⟩

/-- A removal's beginning changes of the tenants the one that it names alone, and leaves the module's own keys. -/
theorem beginRemoval_changes (t remover : Nat) (s : State) :
    ∃ r d q g a v c p x f, beginRemoval t remover s = { s with
      rings := r, reads := d, queues := q, pages := g, arb := a, svc := v, cmds := c, pair := p, tx := x, free := f
      tenants := tmod s.tenants t (leavingTenant remover) } := by
  unfold beginRemoval
  extract_lets rings gone s1 leave s2 s3
  obtain ⟨r, d, q, h1⟩ : ∃ r d q, s1 = { s with rings := r, reads := d, queues := q } :=
    List.foldlRecOn rings _ (motive := fun u : State => ∃ r d q, u = { s with rings := r, reads := d, queues := q })
      ⟨_, _, _, rfl⟩ fun u hu n _ => by
        obtain ⟨r, d, q, rfl⟩ := hu
        exact ⟨_, _, _, rfl⟩
  obtain ⟨a, v, h3⟩ := endReqs_changes (tenantReqs s2 t) .tenantGone t s2
  obtain ⟨c, b, p, x, f, h4⟩ := refuseAll_changes (openCmds s3 fun c => c.tenant == some t) .tenantGone t s3
  rw [h4, show s3 = _ from h3]
  refine ⟨r, d, q, s2.pages, b, v, c, p, x, f, ?_⟩
  unfold s2
  rw [h1]
  rfl

theorem beginRemoval_tenants (t remover : Nat) (s : State) :
    (beginRemoval t remover s).tenants = tmod s.tenants t (leavingTenant remover) := by
  obtain ⟨_, _, _, _, _, _, _, _, _, _, h⟩ := beginRemoval_changes t remover s
  rw [h]

theorem beginRemoval_sec (t remover : Nat) (s : State) : (beginRemoval t remover s).sec = s.sec := by
  obtain ⟨_, _, _, _, _, _, _, _, _, _, h⟩ := beginRemoval_changes t remover s
  rw [h]

/-- Once the removals of a list of tenants have begun, a tenant that is still ACTIVE is not one of them and was so before. -/
theorem removals_active {l : List Nat} {s : State} {k : Nat} {x : Tenant}
    (hx : tget (l.foldl (fun s t => beginRemoval t 0 s) s).tenants k = some x) (hactive : x.st = .active) :
    k ∉ l ∧ tget s.tenants k = some x := by
  induction l generalizing s with
  | nil => exact ⟨List.not_mem_nil, hx⟩
  | cons t l ih =>
    obtain ⟨hk, hold⟩ := ih hx
    rw [beginRemoval_tenants] at hold
    have hne : k ≠ t := by
      rintro rfl
      rw [tget_tmod_same, Option.map_eq_some_iff] at hold
      obtain ⟨y, -, rfl⟩ := hold
      cases hactive
    rw [tget_tmod_other _ _ _ _ hne] at hold
    exact ⟨fun h => (List.mem_cons.1 h).elim hne hk, hold⟩

theorem mem_of_tget {α : Type} {t : Tbl α} {k : Nat} {v : α} (h : tget t k = some v) : (k, v) ∈ t := by
  induction t with
  | nil => cases h
  | cons e t ih =>
    obtain ⟨j, w⟩ := e
    by_cases hj : j = k
    · rw [tget, if_pos hj] at h
      exact List.mem_cons.2 (.inl (by rw [hj, Option.some.inj h]))
    · rw [tget, if_neg hj] at h
      exact List.mem_cons_of_mem _ (ih h)

theorem openPort_sec (s : State) :
    (openPort s).sec = { s.sec with kem := none, debugOpened := true, jtagOpen := true } := by
  have hsec (l : List Nat) : (l.foldl (fun s t => beginRemoval t 0 s) s).sec = s.sec :=
    foldl_keeps State.sec (fun u t => beginRemoval_sec t 0 u) l s
  unfold openPort zeroAllKeys
  dsimp only
  rw [hsec]

/-- With the port open no tenant is ACTIVE and none holds a current or previous key. -/
theorem openPort_tenants {s : State} {k : Nat} {x : Tenant} (h : tget (openPort s).tenants k = some x) :
    x.cur = none ∧ x.prev = none ∧ x.st ≠ .active := by
  unfold openPort zeroAllKeys at h
  dsimp only at h
  rw [tget_tmap, Option.map_eq_some_iff] at h
  obtain ⟨y, hy, rfl⟩ := h
  refine ⟨rfl, rfl, fun hactive => ?_⟩
  obtain ⟨hk, hold⟩ := removals_active hy hactive
  refine hk (List.mem_map.2 ⟨(k, y), List.mem_filter.2 ⟨mem_of_tget hold, ?_⟩, rfl⟩)
  rw [show y.st = .active from hactive]
  rfl

/-! ### Trace records (14 R421, R422) -/

/-- `n` more records have been sent or dropped; the settings of the trace are as they were. -/
def Traced (n : Nat) (s t : State) : Prop :=
  ∃ sent dropped x f, t = { s with
      svc := { s.svc with trace := { s.svc.trace with sent := sent, dropped := dropped } }, tx := x, free := f } ∧
    sent + dropped = s.svc.trace.sent + s.svc.trace.dropped + n

theorem Traced.zero (s : State) : Traced 0 s s := ⟨_, _, _, _, rfl, rfl⟩

theorem Traced.trans {m n : Nat} {s t u : State} (h : Traced m s t) (g : Traced n t u) : Traced (m + n) s u := by
  obtain ⟨a, b, x, f, rfl, hab⟩ := h
  obtain ⟨c, d, y, g, rfl, hcd⟩ := g
  exact ⟨c, d, y, g, rfl, by dsimp only at hcd; omega⟩

theorem traceRec_of_on {s : State} (hon : s.svc.trace.on = true) (unit code arg : Nat) :
    ∃ x f, (traceRec unit code arg s = { s with
          svc := { s.svc with trace := { s.svc.trace with dropped := s.svc.trace.dropped + 1 } }, tx := x, free := f } ∨
      traceRec unit code arg s = { s with
          svc := { s.svc with trace := { s.svc.trace with sent := s.svc.trace.sent + 1 } }, tx := x, free := f }) := by
  rw [traceRec]
  dsimp only
  rw [if_neg (by simp [hon])]
  split
  · exact ⟨_, _, .inl rfl⟩
  · exact ⟨_, _, .inr rfl⟩

theorem traceRec_traced {s : State} (hon : s.svc.trace.on = true) (unit code arg : Nat) : Traced 1 s (traceRec unit code arg s) := by
  obtain ⟨x, f, e | e⟩ := traceRec_of_on hon unit code arg
  · exact ⟨_, _, x, f, e, rfl⟩
  · exact ⟨_, _, x, f, e, by omega⟩

theorem Traced.on {n : Nat} {s t : State} (h : Traced n s t) (hon : s.svc.trace.on = true) : t.svc.trace.on = true := by
  obtain ⟨a, b, x, f, rfl, -⟩ := h
  exact hon

/-- One record for each entry of a list. -/
theorem traceRecs_traced {α : Type} (l : List α) (unit code : α → Nat) (arg : State → α → Nat) {s : State}
    (hon : s.svc.trace.on = true) :
    Traced l.length s (l.foldl (fun s e => traceRec (unit e) (code e) (arg s e) s) s) := by
  induction l generalizing s with
  | nil => exact .zero s
  | cons e l ih =>
    have hfirst := traceRec_traced hon (unit e) (code e) (arg s e)
    rw [List.length_cons, Nat.add_comm]
    exact hfirst.trans (ih (hfirst.on hon))

theorem traceSample_of_due {s : State} (hon : hubOn s = true) (htrace : s.svc.trace.on = true)
    (hsamples : s.svc.trace.flags.testBit 1 = true) (harmed : s.svc.prof.isSome = true)
    (hdue : s.svc.trace.nextSample ≤ s.clk.localTime) :
    ∃ u, Traced (instances 1).length s u ∧ traceSample s = { u with
      svc := { u.svc with trace := { u.svc.trace with nextSample := s.svc.trace.nextSample + s.svc.trace.period } } } := by
  have hdue' : s.svc.trace.nextSample ≤ now s := hdue
  rw [traceSample]
  dsimp only
  rw [if_neg (by simp [hon, htrace, hsamples, harmed, hdue'])]
  exact ⟨_, traceRecs_traced (instances 1) (fun e => e.2) (fun e => 0x0200 + e.1 % 256)
    (fun t e => tgetD (t.svc.prof.getD []) (ctr e.1 e.2) 0 % 2 ^ 32) htrace, rfl⟩

theorem traceSyncRec_of_due {s : State} (hon : hubOn s = true) (htrace : s.svc.trace.on = true)
    (hdue : s.svc.trace.nextSync ≤ s.clk.localTime) :
    ∃ unit arg, traceSyncRec s = traceRec unit 0x0300 arg { s with
      svc := { s.svc with trace := { s.svc.trace with dropped := 0, nextSync := s.svc.trace.nextSync + 100000 } } } := by
  have hdue' : s.svc.trace.nextSync ≤ now s := hdue
  rw [traceSyncRec]
  dsimp only
  rw [if_neg (by simp [hon, htrace, hdue'])]
  exact ⟨_, _, rfl⟩

theorem unlock_of_challenge {s : State} {ch : BitVec 256} (hruns : jtagRuns s = true) (hauth : authPolicy s = true)
    (hch : s.sec.challenge = some ch) (root key sig : Nat) :
    unlock root key sig s =
      if tokenGood s root (key % 2 ^ 15616) (sig % 2 ^ 26472) ch then
        emit (.jtagStatus true) (openPort { s with sec := { s.sec with challenge := none } })
      else emit (.jtagStatus s.sec.jtagOpen)
        { s with sec := { s.sec with challenge := none, challengeAt := s.clk.localTime + 100000000 } } := by
  rw [unlock, if_neg (by simp [hruns, hauth]), hch]
  rfl

/-- Settles O52: each read's answer, the JTAG port, and the trace's two timers. -/
theorem servicePorts : Obligations.ServicePorts := by
  unfold Obligations.ServicePorts
  intro s
  refine ⟨fun hsclk => ⟨?_, ?_, ?_, fun first count => ⟨fun h1 h2 h3 => ?_, fun hbad => ?_⟩, ?_, fun unit start count h1 h2 h3 h4 => ?_,
      fun halert => ?_, fun halert => ?_⟩,
    fun hruns => ⟨fun hauth hdue => ?_, fun root key sig ch hauth hch => ?_, fun hopen hclosed => ?_, fun field value hopen => ?_⟩,
    fun hon htrace => ⟨fun hsamples harmed hdue => ?_, fun hdue => ?_, fun hearly => ?_⟩⟩
  · exact congrArg Host.Outcome.next (smbReply_of_sclk hsclk ..)
  · refine congrArg Host.Outcome.next ?_
    rw [smbState, smbReply_of_sclk hsclk, releaseAlert_of_sclk (by exact hsclk)]
    rfl
  · exact congrArg Host.Outcome.next (smbReply_of_sclk hsclk ..)
  · refine congrArg Host.Outcome.next ?_
    rw [smbSensors, if_neg (by omega), smbReply_of_sclk hsclk]
  · refine congrArg Host.Outcome.next ?_
    rw [smbSensors, if_pos hbad, smbNak_of_sclk hsclk]
  · exact congrArg Host.Outcome.next (smbReply_of_sclk hsclk ..)
  · refine congrArg Host.Outcome.next ?_
    rw [smbBobbin, if_neg (by omega), smbReply_of_sclk hsclk]
  · refine congrArg Host.Outcome.next ?_
    rw [smbAlert, if_pos (by simp [hsclk, halert])]
    exact releaseAlert_of_sclk hsclk
  · exact congrArg Host.Outcome.next (if_neg (by simp [halert]))
  · refine congrArg Host.Outcome.next (if_pos ?_)
    rw [hruns, hauth]
    exact decide_eq_true hdue
  · have hunlock := unlock_of_challenge hruns hauth hch root key sig
    refine ⟨unlock root key sig s, rfl, ?_, fun hgood => ?_, fun hbad => hunlock.trans (if_neg (by simp [hbad]))⟩
    · rw [hunlock]
      split
      · exact congrArg Security.challenge (openPort_sec { s with sec := { s.sec with challenge := none } })
      · rfl
    · rw [hunlock, if_pos hgood]
      have hsec := openPort_sec { s with sec := { s.sec with challenge := none } }
      exact ⟨congrArg Security.debugOpened hsec, congrArg Security.jtagOpen hsec, congrArg Security.kem hsec,
        fun k x hx => openPort_tenants hx⟩
  · have hrun : jtagFirst s = emit (.jtagStatus true) (openPort s) := if_pos (by simp [hruns, hopen, hclosed])
    have hsec : (emit (.jtagStatus true) (openPort s)).sec = _ := openPort_sec s
    refine ⟨_, congrArg Host.Outcome.next hrun, ?_, ?_, ?_⟩ <;> rw [hsec]
  · have hfirst : jtagFirst s = s := if_neg (by simp [hopen])
    refine congrArg Host.Outcome.next ?_
    rw [fuseProgram, hfirst]
    exact if_pos (by simp [hruns, hopen])
  · obtain ⟨u, ⟨sent, dropped, x, f, rfl, hcount⟩, hrun⟩ := traceSample_of_due hon htrace hsamples harmed hdue
    exact ⟨_, congrArg Host.Outcome.next hrun, rfl, hcount, rfl⟩
  · obtain ⟨unit, arg, hrun⟩ := traceSyncRec_of_due hon htrace hdue
    obtain ⟨x, f, e | e⟩ := traceRec_of_on (s := { s with
      svc := { s.svc with trace := { s.svc.trace with dropped := 0, nextSync := s.svc.trace.nextSync + 100000 } } })
      htrace unit 0x0300 arg
    · exact ⟨_, congrArg Host.Outcome.next (hrun.trans e), rfl, .inr ⟨rfl, rfl⟩, rfl⟩
    · exact ⟨_, congrArg Host.Outcome.next (hrun.trans e), rfl, .inl ⟨rfl, rfl⟩, rfl⟩
  · have hearly' : now s < s.svc.trace.nextSync := hearly
    exact congrArg Host.Outcome.next (if_pos (by simp [hearly']))

end Sys2Proof.Machine

namespace Sys2Proof.Machine

/-! ### Tenants and partitions (09 R276-R297) -/

/-- The release of a tenant leaves the tenants as they are, and of pages, fences, accounts and sequences those of the others. -/
theorem releaseTenant_kept (k : Nat) (s : State) :
    (releaseTenant k s).tenants = s.tenants ∧ (∀ e ∈ (releaseTenant k s).pages, e.2.tenant ≠ k) ∧
      (∀ e ∈ (releaseTenant k s).fences, e.2.tenant ≠ k) ∧ (∀ e ∈ (releaseTenant k s).accts, e.2.tenant ≠ k) ∧
      (∀ e ∈ (releaseTenant k s).seqs, e.2.tenant ≠ k) := by
  have hkeep {α : Type} (l : Tbl α) (tenantOf : α → Nat) : ∀ e ∈ keep l fun x => tenantOf x = k, tenantOf e.2 ≠ k := by
    intro e he
    simpa using (List.mem_filter.1 he).2
  unfold releaseTenant
  extract_lets mine pidx sidx cores clear halves s1 s2 owned s3
  refine ⟨(congrArg State.tenants (rotate_frame _) :), ?_, ?_, ?_, ?_⟩
  · rw [show (rotate _).pages = _ from (congrArg State.pages (rotate_frame _) :)]
    exact hkeep _ _
  · rw [show (rotate _).fences = _ from (congrArg State.fences (rotate_frame _) :)]
    exact hkeep _ _
  · rw [show (rotate _).accts = _ from (congrArg State.accts (rotate_frame _) :)]
    exact hkeep _ _
  · rw [show (rotate _).seqs = _ from (congrArg State.seqs (rotate_frame _) :)]
    exact hkeep _ _

theorem done_frame (cid d : Nat) (v : BitVec 64) (s : State) :
    { done cid d v s with cmds := s.cmds, arb := s.arb, pair := s.pair, tx := s.tx, free := s.free } = s :=
  finish_frame cid .done d v 0 .none s

/-- The end of a removal: what is left of the tenant is its entry, ABSENT. -/
theorem removalDone_of_quiet {cid k : Nat} {x : Tenant} {s : State}
    (hx : (s.tenants.find? fun e => e.2.st == .removing && e.2.remover == some cid) = some (k, x))
    (hquiet : tenantQuiet s k cid = true) :
    ∃ c a p y f, removalDone cid s = { releaseTenant k s with
      tenants := tset s.tenants k { x with st := .absent, remover := none }, cmds := c, arb := a, pair := p, tx := y, free := f } := by
  obtain ⟨htenants, -⟩ := releaseTenant_kept k s
  simp only [removalDone, hx, hquiet, Bool.not_true, Bool.false_eq_true, if_false, htenants]
  split
  · have hframe (d : Nat) (v : BitVec 64) (t : State) :
        ∃ c a p y f, done cid d v t = { t with cmds := c, arb := a, pair := p, tx := y, free := f } :=
      ⟨_, _, _, _, _, (congrArg (fun t' : State => { t' with
        cmds := (done cid d v t).cmds, arb := (done cid d v t).arb, pair := (done cid d v t).pair, tx := (done cid d v t).tx
        free := (done cid d v t).free }) (done_frame cid d v t) :)⟩
    obtain ⟨c, a, p, y, f, h⟩ := hframe _ _ _
    exact ⟨c, a, p, y, f, h⟩
  · exact ⟨_, _, _, _, _, rfl⟩

section
variable {x : Page} {t : Tenant} {g k : KeyGen} {s : State} {key : Nat} (hx : tget s.pages key = some x)
  (ht : tget s.tenants x.tenant = some t) (hg : t.prev = some g) (hk : t.cur = some k) (hparity : x.parity = g.num % 2)
  (hother : k.num % 2 ≠ g.num % 2)
include hx ht hg hk hparity hother

theorem stale_of_previous : stale s x = true := by
  simp [stale, ht, hg, hk, hparity, hother]

theorem restitchPages_of_stale : ∃ l : Tbl Page, restitchPages (· == key) x.tenant s = retireKeys x.tenant { s with pages := l } ∧
    tget l key = some { x with parity := k.num % 2, restitching := false } ∧ ∀ j : Nat, j ≠ key → tget l j = tget s.pages j := by
  simp only [restitchPages, ht, hg, hk, if_neg hother]
  refine ⟨_, rfl, ?_, fun j hj => ?_⟩
  · simp [hx, hparity]
  · simp [hj]

end

/-- Settles O31, command by command. -/
theorem tenantsAndPartitions : Obligations.TenantsAndPartitions := by
  unfold Obligations.TenantsAndPartitions
  intro cid c s
  refine ⟨?create, ?remove, ?removed, ?partition, ?restitch⟩
  case create =>
    intro h hfaults hserves hclosed hdefined habsent
    refine congrArg Host.Outcome.next ?_
    rw [tenantCreate, runCmdWith_of_ready h hfaults]
    dsimp only
    rw [if_neg (by simp [hserves]), if_neg (by simp [hclosed]), if_neg (by simp [hdefined]), if_neg (by simp [habsent])]
    rfl
  case remove =>
    intro h hactive
    refine congrArg Host.Outcome.next ?_
    rw [tenantRemove, runCmd_of_ready h]
    dsimp only
    rw [if_neg (by simp [hactive])]
  case removed =>
    intro k x hx hquiet
    obtain ⟨-, hpages, hfences, haccts, hseqs⟩ := releaseTenant_kept k s
    obtain ⟨c, a, p, y, f, hrun⟩ := removalDone_of_quiet hx hquiet
    exact ⟨_, congrArg Host.Outcome.next hrun, tget_tset_same .., hpages, hfences, haccts, hseqs⟩
  case partition =>
    intro b h hfaults hblock hnone hpolicy
    refine congrArg Host.Outcome.next ?_
    rw [partitionSet, runCmdWith_of_ready h hfaults]
    dsimp only
    rw [hblock]
    dsimp only
    rw [if_neg (by simp only [hnone]; decide), if_neg fun ⟨hcount, hiso⟩ => hpolicy.elim hcount (· hiso)]
  case restitch =>
    intro h p x t g k hx ht hg hk hhalf hparity hother
    have hstale := stale_of_previous hx ht hg hk hparity hother
    refine ⟨fun hfirst => ?_, fun ⟨e, hmem, hin, hlt, he⟩ => congrArg Host.Outcome.next ?_⟩
    · obtain ⟨l, hrun, hl, hrest⟩ := restitchPages_of_stale hx ht hg hk hparity hother
      refine ⟨l, congrArg Host.Outcome.next ?_, hl, hrest⟩
      have hnone : (s.pages.any fun e => decide (e.1 / 2 ^ 21 = h ∧ e.1 < pageKey h p) && stale s e.2) = false := by
        rw [List.any_eq_false]
        intro e hmem hboth
        obtain ⟨hlow, he⟩ := Bool.and_eq_true_iff.1 hboth
        obtain ⟨hin, hlt⟩ := of_decide_eq_true hlow
        exact Bool.eq_false_iff.1 (hfirst e hmem hin hlt) he
      simp only [restitch, hx, hnone, hhalf, hstale]
      exact hrun
    · have hsome : (s.pages.any fun e => decide (e.1 / 2 ^ 21 = h ∧ e.1 < pageKey h p) && stale s e.2) = true :=
        List.any_eq_true.2 ⟨e, hmem, Bool.and_eq_true_iff.2 ⟨decide_eq_true ⟨hin, hlt⟩, he⟩⟩
      simp only [restitch, hx, hsome, Bool.not_true, Bool.and_false, Bool.false_eq_true, if_false]

end Sys2Proof.Machine

namespace Sys2Proof.Machine

/-! ### The stages of a start (11 Table 11-2) -/

/-- What the stages of a start leave alone: the clocks, DEVICE_STATE, and whether another start is due. -/
def startFrame (s : State) : Clocks × DevState × Bool × Option Tick := (s.clk, s.dev.state, s.dev.startDue, s.dev.retryAt)

theorem ArbHealth.startFrame {s t : State} (h : ArbHealth s t) : startFrame t = startFrame s := by
  obtain ⟨a, b, rfl⟩ := h
  rfl

theorem stageRom_startFrame (s : State) : startFrame (stageRom s).1 = startFrame s := by
  unfold stageRom
  dsimp only
  split <;> rfl

theorem stageRom_fuses (s : State) : (stageRom s).1.fuses = s.fuses ∧ (stageRom s).2 = none := by
  unfold stageRom
  dsimp only
  split <;> exact ⟨rfl, rfl⟩

theorem revertTrial_startFrame (s : State) : startFrame (revertTrial s) = startFrame s := by
  unfold revertTrial
  split
  · split <;> rfl
  · rfl

theorem rewriteCopies_startFrame (c : CfgCopy) (s : State) : startFrame (rewriteCopies c s) = startFrame s := by
  unfold rewriteCopies
  dsimp only
  exact (foldl_keeps startFrame (f := fun t i => bobPost 0x10 0x0005 i t) (fun _ _ => rfl) _ _).trans rfl

theorem stageRecords_startFrame (s : State) : startFrame (stageRecords s).1 = startFrame s := by
  unfold stageRecords
  split
  · rfl
  · dsimp only
    split
    · exact (rewriteCopies_startFrame ..).trans (revertTrial_startFrame s)
    · split <;> exact revertTrial_startFrame s

theorem stageSlot_startFrame (s : State) : startFrame (stageSlot s).1 = startFrame s := by
  unfold stageSlot
  dsimp only
  split
  · split
    · rfl
    · split <;> rfl
  · split <;> rfl

theorem stagePower_startFrame (env : StartEnv) (s : State) : startFrame (stagePower env s).1 = startFrame s := by
  unfold stagePower
  extract_lets clear s1 s2
  have h2 : startFrame s2 = startFrame s :=
    (((setHealth_arbHealth 0 _ s1).trans (setHealth_arbHealth 1 _ _)).trans (setHealth_arbHealth 2 _ _)).startFrame
  split
  · exact h2
  · split <;> exact h2

theorem stageTraining_startFrame (env : StartEnv) (s : State) : startFrame (stageTraining env s).1 = startFrame s := by
  unfold stageTraining
  split <;> rfl

theorem migrate_startFrame (fmt : Nat) (changed : BitVec 16) (s : State) : startFrame (migrate fmt changed s) = startFrame s := by
  have hposted (a b c : Nat) (t : State) : startFrame (postMigrated a b c t) = startFrame t :=
    (postEvent_arbHealth 7 a c (BitVec.ofNat 64 b) .done t).startFrame
  unfold migrate
  dsimp only
  split
  · rfl
  · split
    · rfl
    · split
      · exact hposted ..
      · split
        · split <;> exact hposted ..
        · exact hposted ..

theorem stageConfig_startFrame (fmt : Nat) (changed : BitVec 16) (s : State) : startFrame (stageConfig fmt changed s).1 = startFrame s := by
  have hmigrate := migrate_startFrame fmt changed (modDev (fun d => { d with format := fmt }) s)
  unfold stageConfig
  dsimp only
  split <;> exact hmigrate

theorem stageAttn_startFrame (env : StartEnv) (s : State) : startFrame (stageAttn env s).1 = startFrame s := by
  have hbias : startFrame (loadTestBias s) = startFrame s := by
    unfold loadTestBias startFrame
    dsimp only
  exact hbias

theorem stageOf_startFrame (env : StartEnv) (fmt : Nat) (changed : BitVec 16) (row : Nat) (s : State) :
    startFrame (stageOf env fmt changed row s).1 = startFrame s := by
  unfold stageOf
  split
  · exact stageRom_startFrame s
  · rfl
  · exact stageRecords_startFrame s
  · exact stageSlot_startFrame s
  · exact stagePower_startFrame env s
  · exact stageTraining_startFrame env s
  · rfl
  · rfl
  · exact stageAttn_startFrame env s
  · exact stageConfig_startFrame fmt changed s
  · rfl

/-- A start's rows end with its outcome noted at this tick, and leave DEVICE_STATE and what is due alone. -/
theorem runStages_noted (env : StartEnv) (fmt : Nat) (changed : BitVec 16) (rows : List Nat) (s : State) :
    ∃ fail overrun, (runStages env fmt changed rows s).dev.start = some { t1 := now s, fail := fail, overrun := overrun } ∧
      startFrame (runStages env fmt changed rows s) = startFrame s ∧ (env.overrun = none → overrun = none) := by
  induction rows generalizing s with
  | nil => exact ⟨none, none, rfl, rfl, fun _ => rfl⟩
  | cons row rows ih =>
    unfold runStages
    dsimp only
    split
    · next hover => exact ⟨none, some row, rfl, rfl, fun hnone => nomatch hover.symm.trans hnone⟩
    · have hstage := stageOf_startFrame env fmt changed row (reachRow row s)
      split
      · next t r hrun =>
        rw [hrun] at hstage
        have hnow : now t = now s := congrArg (fun x => x.1.localTime) hstage
        exact ⟨some r, none, congrArg (fun n => some (StartRun.mk n (some r) none)) hnow, hstage, fun _ => rfl⟩
      · next t hrun =>
        rw [hrun] at hstage
        obtain ⟨fail, overrun, hstart, hframe, hover⟩ := ih t
        have hnow : now t = now s := congrArg (fun x => x.1.localTime) hstage
        exact ⟨fail, overrun, hnow ▸ hstart, hframe.trans hstage, hover⟩

/-- Row 1 that overruns is what the start notes. -/
theorem runStages_overrun {env : StartEnv} {row : Nat} (h : env.overrun = some row) (fmt : Nat) (changed : BitVec 16)
    (rows : List Nat) (s : State) : runStages env fmt changed (row :: rows) s = noteStart none (some row) (reachRow row s) := by
  rw [runStages, if_pos h]

theorem runStages_failed {env : StartEnv} {row : Nat} {fmt : Nat} {changed : BitVec 16} {r : Reason} (h : env.overrun = none)
    {s : State} (hstage : (stageOf env fmt changed row (reachRow row s)).2 = some r) (rows : List Nat) :
    ∃ t, runStages env fmt changed (row :: rows) s = noteStart (some r) none t := by
  rw [runStages, if_neg (by simp [h])]
  split
  · next t r' hrun =>
    rw [hrun] at hstage
    cases hstage
    exact ⟨t, rfl⟩
  · next t hrun => rw [hrun] at hstage; cases hstage

theorem runStages_passed {env : StartEnv} {row : Nat} {fmt : Nat} {changed : BitVec 16} (h : env.overrun = none)
    {s : State} (hstage : (stageOf env fmt changed row (reachRow row s)).2 = none) (rows : List Nat) :
    runStages env fmt changed (row :: rows) s =
      runStages env fmt changed rows (stageOf env fmt changed row (reachRow row s)).1 := by
  rw [runStages, if_neg (by simp [h])]
  split
  · next t r' hrun => rw [hrun] at hstage; cases hstage
  · next t hrun => rw [hrun]

theorem fuseFault_readShadow_congr {a b : State} (h : a.fuses = b.fuses) :
    fuseFault (readShadow a) = fuseFault (readShadow b) := by
  unfold fuseFault readShadow breaksR10 lifecycle debugPolicy pairPolicy keyRevoke fuse
  rw [h]

theorem stageFuses_of_fault {s : State} (h : fuseFault (readShadow s) = true) : (stageFuses s).2 = some .fuseError := by
  unfold stageFuses
  exact if_pos h

/-- Fuses at fault stop the start in row 2, whatever row 1 does. -/
theorem runStages_fuseError {env : StartEnv} {s : State} (h : env.overrun = none) (hfault : fuseFault (readShadow s) = true) (fmt : Nat)
    (changed : BitVec 16) (rows : List Nat) :
    ∃ t, runStages env fmt changed (1 :: 2 :: rows) s = noteStart (some .fuseError) none t := by
  obtain ⟨hfuses, hpass⟩ := stageRom_fuses (reachRow 1 s)
  have hstop := stageFuses_of_fault (s := reachRow 2 (stageRom (reachRow 1 s)).1)
    ((fuseFault_readShadow_congr (a := reachRow 2 (stageRom (reachRow 1 s)).1) (b := s) hfuses).trans hfault)
  rw [runStages_passed h (by exact hpass)]
  exact runStages_failed (row := 2) (s := (stageRom (reachRow 1 s)).1) h (by exact hstop) rows

/-! ### The end of a start (11 R344-R347) -/

theorem setDevState_changes (d : DevState) (s : State) : ∃ since x b al, setDevState d s = { s with
    dev := { s.dev with state := d, serviceSince := since }, tx := x, bob := b, health := { s.health with alert := al } } := by
  unfold setDevState
  split
  · next h =>
    subst h
    exact ⟨s.dev.serviceSince, s.tx, s.bob, s.health.alert, rfl⟩
  · exact ⟨_, _, _, _, rfl⟩

theorem measureHealth_arbHealth (s : State) : ArbHealth s (measureHealth s) := by
  unfold measureHealth refreshThrottled
  exact ((setHealth_arbHealth 0 _ s).trans (setHealth_arbHealth 1 _ _)).trans (setHealth_arbHealth 2 _ _) |>.trans
    (setHealth_arbHealth 3 _ _) |>.trans (setHealth_arbHealth 4 _ _) |>.trans (setHealth_arbHealth 5 _ _) |>.trans
    (setHealth_arbHealth 6 _ _) |>.trans (setHealth_arbHealth 10 _ _)

theorem failStart_halfMast {r : Reason} {s : State} (h : (countFailure r s.nor).startFails = 3) :
    (failStart r s).nor = countFailure r s.nor ∧ (failStart r s).dev.state = .halfMast ∧ (failStart r s).dev.start = none ∧
      (failStart r s).dev.retryAt = none := by
  obtain ⟨a, b, hm⟩ := measureHealth_arbHealth s
  unfold failStart
  rw [hm]
  extract_lets t u
  rw [if_pos (by exact h), enterHalfMast]
  obtain ⟨since, x, bob, al, hd⟩ := setDevState_changes .halfMast
    (modDev (fun d => { d with start := none, retryAt := none, latchDue := false }) u)
  rw [hd]
  exact ⟨rfl, rfl, rfl, rfl⟩

theorem failStart_waits {r : Reason} {s : State} (h : (countFailure r s.nor).startFails ≠ 3) :
    (failStart r s).nor = countFailure r s.nor ∧
      (failStart r s).dev = { s.dev with start := none, retryAt := some (s.clk.localTime + retryTicks r) } := by
  obtain ⟨a, b, hm⟩ := measureHealth_arbHealth s
  unfold failStart
  rw [hm]
  extract_lets t u
  rw [if_neg (by exact h)]
  exact ⟨rfl, rfl⟩

theorem startFailure_of_failed {r : StartRun} {x : Reason} {s : State} (hr : s.dev.start = some r) (hx : r.fail = some x) :
    startFailure s = failStart x s := by
  obtain ⟨t1, fail, overrun⟩ := r
  obtain rfl : fail = some x := hx
  simp only [startFailure, hr]

theorem stageTimeout_of_overrun {r : StartRun} {row : Nat} {s : State} (hr : s.dev.start = some r) (hfail : r.fail = none)
    (hover : r.overrun = some row) :
    stageTimeout row s = if r.t1 + 2 * rowBound s row * 100000 ≤ s.clk.localTime then failStart .watchdog s else s := by
  obtain ⟨t1, fail, overrun⟩ := r
  obtain rfl : fail = none := hfail
  obtain rfl : overrun = some row := hover
  simp only [stageTimeout, hr, true_and]
  rfl

theorem lateLatch_of_not_due {s : State} (h : s.dev.latchDue = false) : lateLatch s = s := if_neg (Bool.eq_false_iff.1 h)

theorem startComplete_of_good {r : StartRun} {s : State} (hr : s.dev.start = some r) (hfail : r.fail = none)
    (hover : r.overrun = none) (hlatch : s.dev.latchDue = false) :
    ∃ a since x b h, startComplete s = { s with
      dev := { s.dev with state := serviceState s, serviceSince := since, start := none }, tx := x, bob := b, arb := a, health := h
      pair := { s.pair with lastAdvance := s.clk.localTime, marks := [] } } := by
  obtain ⟨t1, fail, overrun⟩ := r
  obtain rfl : fail = none := hfail
  obtain rfl : overrun = none := hover
  simp only [startComplete, hr]
  obtain ⟨a, b, hm⟩ := measureHealth_arbHealth
    (modPair (fun p => { p with lastAdvance := now s, marks := [] }) (modDev (fun d => { d with start := none }) s))
  rw [hm]
  obtain ⟨since, x, bob, al, hd⟩ := setDevState_changes
    (serviceState (modPair (fun p => { p with lastAdvance := now s, marks := [] }) (modDev (fun d => { d with start := none }) s)))
    { modPair (fun p => { p with lastAdvance := now s, marks := [] }) (modDev (fun d => { d with start := none }) s) with
      arb := a, health := b }
  rw [hd, lateLatch_of_not_due (by exact hlatch)]
  exact ⟨a, since, x, bob, _, rfl⟩

/-- Settles O39, event by event. -/
theorem starts : Obligations.Starts := by
  unfold Obligations.Starts
  intro s
  refine ⟨?on, ?start, ?ended, ?retry, ?clear⟩
  case on =>
    intro hoff hsclk htrip
    have hrun : ¬(s.dev.on || s.clk.sclk || s.thermal.tripped.isSome) = true := by simp [hoff, hsclk, htrip]
    exact ⟨_, congrArg Host.Outcome.next (if_neg hrun), rfl, rfl, rfl, rfl, rfl, rfl, rfl, rfl, rfl, rfl, rfl, rfl, rfl, rfl, rfl⟩
  case start =>
    intro env fmt changed
    refine ⟨fun hruns => ?_, fun hnot => congrArg Host.Outcome.next (if_neg (Bool.eq_false_iff.1 hnot))⟩
    let due : State := modDev (fun d => { d with startDue := false, retryAt := none }) s
    have hrows : (List.range 13).map (· + 1) = [1, 2, 3, 4, 5, 6, 7, 8, 9, 10, 11, 12, 13] := by decide
    have hrun : start env fmt changed s = runStages env fmt changed [1, 2, 3, 4, 5, 6, 7, 8, 9, 10, 11, 12, 13] due :=
      (if_pos hruns).trans (congrArg (runStages env fmt changed · due) hrows)
    obtain ⟨fail, overrun, hstart, hframe, hover⟩ :=
      runStages_noted env fmt changed [1, 2, 3, 4, 5, 6, 7, 8, 9, 10, 11, 12, 13] due
    refine ⟨_, _, congrArg Host.Outcome.next hrun, hstart, rfl, congrArg (·.2.2.1) hframe, congrArg (·.2.2.2) hframe,
      congrArg (·.2.1) hframe, fun hfirst => ?_, hover, fun hnone hfault => ?_⟩
    · rw [runStages_overrun hfirst] at hstart
      have hnoted := (Option.some.inj hstart).symm
      exact ⟨congrArg StartRun.overrun hnoted, congrArg StartRun.fail hnoted⟩
    · obtain ⟨t, ht⟩ := runStages_fuseError (s := due) hnone hfault fmt changed [3, 4, 5, 6, 7, 8, 9, 10, 11, 12, 13]
      rw [ht] at hstart
      exact congrArg StartRun.fail (Option.some.inj hstart).symm
  case ended =>
    intro r hr
    refine ⟨fun hfail hover hlatch => ?_, fun x hx hfew => ?_, fun row hfail hover => ?_⟩
    · obtain ⟨a, since, x, b, h, hrun⟩ := startComplete_of_good hr hfail hover hlatch
      exact ⟨_, congrArg Host.Outcome.next hrun, rfl, rfl, rfl, rfl, rfl, rfl, rfl⟩
    · refine ⟨failStart x s, congrArg Host.Outcome.next (startFailure_of_failed hr hx), ?_⟩
      by_cases hnow : immediate x = true
      · have hcount : countFailure x s.nor = { s.nor with startFails := 3, lastReason := x } := if_pos hnow
        obtain ⟨hnor, hstate, hstart, hretry⟩ := failStart_halfMast (s := s) (congrArg Nor.startFails hcount)
        rw [hnor, hcount]
        exact ⟨rfl, hstart, fun _ => ⟨rfl, hstate, hretry⟩, fun h => absurd hnow (Bool.eq_false_iff.1 h)⟩
      · have hcount : countFailure x s.nor = { s.nor with startFails := s.nor.startFails + 1, lastReason := x } :=
          (if_neg hnow).trans (if_neg (by omega))
        by_cases hthird : s.nor.startFails = 2
        · obtain ⟨hnor, hstate, hstart, hretry⟩ := failStart_halfMast (r := x) (s := s) (by rw [hcount]; dsimp only; omega)
          rw [hnor, hcount]
          exact ⟨rfl, hstart, fun _ => ⟨by dsimp only; omega, hstate, hretry⟩, fun _ h => by omega⟩
        · obtain ⟨hnor, hdev⟩ := failStart_waits (r := x) (s := s) (by rw [hcount]; dsimp only; omega)
          rw [hnor, hdev, hcount]
          exact ⟨rfl, rfl, fun h => (h.elim hnow hthird).elim, fun _ _ => ⟨rfl, rfl, rfl⟩⟩
    · have hrun := stageTimeout_of_overrun hr hfail hover
      exact ⟨fun hlate => congrArg Host.Outcome.next (hrun.trans (if_pos hlate)),
        fun hearly => congrArg Host.Outcome.next (hrun.trans (if_neg (Nat.not_le.2 hearly)))⟩
  case retry =>
    intro t0 ht
    refine ⟨fun hdue => congrArg Host.Outcome.next ?_, fun hearly => congrArg Host.Outcome.next ?_⟩
    · simp only [startRetry, ht]
      exact if_pos hdue
    · simp only [startRetry, ht]
      exact if_neg (Nat.not_le.2 hearly)
  case clear =>
    intro t0 ht hserves
    refine ⟨fun hdue => congrArg Host.Outcome.next ?_, fun hearly => congrArg Host.Outcome.next ?_⟩
    · simp only [failsClear, ht]
      exact if_pos ⟨hserves, hdue⟩
    · simp only [failsClear, ht]
      exact if_neg fun h => Nat.not_le.2 hearly h.2

end Sys2Proof.Machine

namespace Sys2Proof.Machine

/-! ### Patterns (03 R109-R112, 08 R258-R261) -/

theorem givenHandle_of_begun {s : State} {cid op : Nat} {c : Cmd} (h : Begun s cid op c) (hg : c.given = none) :
    givenHandle s cid = none := by
  simp [givenHandle, cmds_of_inProgress h, hg]

section
variable {cid op pi : Nat} {c : Cmd} {p : Pattern} {s : State} (h : Ready s cid op c)
  (hp : findPattern s (le c.pkt 20 4) = some (pi, p)) (htenant : c.tenant = some p.tenant)
include h hp htenant

/-- A command on a pattern of its own tenant runs its meaning. -/
theorem runPattern_of_own (f : Cmd → Nat → Pattern → State → State) : runPattern cid op f s = f c pi p s := by
  rw [runPattern, runCmdWith_of_ready h (by simp [patternFaultsAt, hp])]
  simp only [hp, htenant, ne_eq, not_true, if_false]

end

theorem patternStored_of_own {cid i : Nat} {c : Cmd} {plan : Plan} {s : State} (h : Begun s cid 0x0104 c) (hg : c.given = none)
    (hflash : flashLooped s = false) (hi : tfree s.pats 4096 = some i) :
    patternStored cid plan s = done cid 0 (BitVec.ofNat 64 (patHandle (tgetD s.patGens i 1) i)) { s with
      pats := tset s.pats i (storedPattern (tgetD s.patGens i 1) (c.tenant.getD 0) c.aux plan)
      patGens := tset s.patGens i (tgetD s.patGens i 1) } := by
  have hgiven := givenHandle_of_begun h hg
  simp only [patternStored, hflash, show inProgress s cid 0x0104 = some c from h, pickSlot, pickGen, hgiven, hi]
  rfl

theorem patternStaged_of_begun {cid : Nat} {c : Cmd} {p : Pattern} {s : State} (h : Begun s cid 0x0101 c)
    (hflash : flashLooped s = false) (hp : tget s.pats (c.aux.headD 0) = some p) :
    (p.damaged = none → roomFor s p.tenant (stagePages p) = true →
      patternStaged cid .complete s =
        let t := takePages p.tenant (stagePages p) (.pattern (c.aux.headD 0))
          (modPat (c.aux.headD 0) (fun p => { p with staging := none, staged := true }) s)
        done cid 0 0 (if le c.pkt 24 8 = 0 then t else writeHost (le c.pkt 24 8) 128 p.summary.toNat t)) ∧
    (∀ f, p.damaged = some f → patternStaged cid .complete s =
      refuse cid f.1 f.2 (modPat (c.aux.headD 0) (fun p => { p with staging := none }) s)) ∧
    (∀ b, patternStaged cid (.checkFail b) s = stageFails cid (c.aux.headD 0) b (checkEnd b) s) ∧
    (∀ b, patternStaged cid (.ldpcFail b) s = stageFails cid (c.aux.headD 0) b (ldpcEnd (c.aux.headD 0) b) s) := by
  have hnot : ¬flashLooped s = true := Bool.eq_false_iff.1 hflash
  refine ⟨fun hgood hroom => ?_, fun f hf => ?_, fun b => ?_, fun b => ?_⟩
  · simp only [patternStaged, if_neg hnot, show inProgress s cid 0x0101 = some c from h, hp, hgood, hroom]
    rfl
  · simp only [patternStaged, if_neg hnot, show inProgress s cid 0x0101 = some c from h, hp, hf]
  · simp only [patternStaged, if_neg hnot, show inProgress s cid 0x0101 = some c from h, hp]
  · simp only [patternStaged, if_neg hnot, show inProgress s cid 0x0101 = some c from h, hp]

/-- Settles O25, command by command. -/
theorem patternsStoredAndStaged : Obligations.PatternsStoredAndStaged := by
  unfold Obligations.PatternsStoredAndStaged
  intro cid c s
  refine ⟨?store, ?stored, ?stage, ?staged⟩
  case store =>
    intro im h hf
    refine congrArg Host.Outcome.next ?_
    rw [patternStore, runCmd_of_ready h, hf]
  case stored =>
    intro plan i h hg hflash hi
    exact congrArg Host.Outcome.next (patternStored_of_own h hg hflash hi)
  case stage =>
    intro pi p h hp htenant hstays hidle hbare hmajor hcores hplan hhalves
    refine congrArg Host.Outcome.next ?_
    rw [patternStage, runPattern_of_own h hp htenant, if_neg (by simp [hstays]), if_neg (by simp [hidle]), if_neg (by simp [hbare]),
      if_neg (not_not.2 hmajor), if_neg (by simp [hcores]), hplan]
    exact if_neg (by simp [hhalves])
  case staged =>
    intro p h hflash hp
    obtain ⟨hgood, hdamaged, hcheck, hldpc⟩ := patternStaged_of_begun h hflash hp
    refine ⟨fun hd hroom => congrArg Host.Outcome.next (hgood hd hroom), fun f hf => congrArg Host.Outcome.next (hdamaged f hf),
      fun b => congrArg Host.Outcome.next (hcheck b), ?_⟩
    rintro b d rfl
    exact congrArg Host.Outcome.next (hldpc b)

/-- Settles O26, command by command. -/
theorem patternsResidentAndEvicted : Obligations.PatternsResidentAndEvicted := by
  unfold Obligations.PatternsResidentAndEvicted
  intro cid pi c p s
  refine ⟨?reside, ?resident, ?evict, ?evicted, ?waits⟩
  case reside =>
    intro h hp htenant hstays hidle hunloaded hstaged hhalves
    have hrun : patternReside cid s = if c.pkt.getLsbD 192 then pinPattern cid pi p s else rotatePattern cid pi p s := by
      rw [patternReside, runPattern_of_own h hp htenant, if_neg (by simp [hstays]), if_neg (by simp [hidle, hunloaded]),
        if_neg (by simp [hstaged]), if_neg (by simp [hhalves])]
    refine ⟨fun hfree hfits => congrArg Host.Outcome.next ?_, fun hpin hpinned => congrArg Host.Outcome.next ?_,
      fun hpin hnew hfits => congrArg Host.Outcome.next ?_⟩
    · rw [hrun, if_neg (Bool.eq_false_iff.1 hfree), rotatePattern, if_neg (Bool.eq_false_iff.1 hfits)]
    · rw [hrun, if_pos hpin, pinPattern, if_pos hpinned]
    · rw [hrun, if_pos hpin, pinPattern, if_neg hnew, hfits]
  case resident =>
    rintro l h haux hp rfl hfits
    refine congrArg Host.Outcome.next ?_
    simp only [patternResident, show inProgress s cid 0x0102 = some c from h, haux, List.headD_cons, hp]
    exact if_pos hfits
  case evict =>
    intro h hp htenant hf
    refine congrArg Host.Outcome.next ?_
    rw [patternEvict, runPattern_of_own h hp htenant, hf]
  case evicted =>
    intro h haux hp hnone
    refine congrArg Host.Outcome.next ?_
    simp only [patternEvicted, show inProgress s cid 0x0103 = some c from h, haux, List.headD_cons, hp, hnone]
    rfl
  case waits =>
    intro h haux hp hsome
    refine congrArg Host.Outcome.next ?_
    simp only [patternEvicted, show inProgress s cid 0x0103 = some c from h, haux, List.headD_cons, hp]
    exact if_neg (by simpa using hsome)

end Sys2Proof.Machine

namespace Sys2Proof.Machine

/-! ### Cores changed one by one -/

theorem coreOf_congr {s t : State} (h : s.cores = t.cores) (k : Nat) : coreOf s k = coreOf t k :=
  congrArg (fun l : List Core => l.getD k Core.reset) h

/-- A fold over distinct cores that changes each core once leaves each core changed once. -/
theorem coreOf_foldl {g : State → Nat → State} {f : Nat → Core → Core} (hg : ∀ s k, (g s k).cores = (modCore k (f k) s).cores)
    {l : List Nat} (hl : l.Nodup) (s : State) :
    (l.foldl g s).cores.length = s.cores.length ∧
      ∀ j, j < s.cores.length → coreOf (l.foldl g s) j = if j ∈ l then f j (coreOf s j) else coreOf s j := by
  induction l generalizing s with
  | nil => exact ⟨rfl, fun j _ => (if_neg List.not_mem_nil).symm⟩
  | cons k l ih =>
    obtain ⟨hk, hnodup⟩ := List.nodup_cons.1 hl
    have hlen : (g s k).cores.length = s.cores.length := by
      rw [hg]
      exact List.length_set ..
    obtain ⟨hlength, hcores⟩ := ih hnodup (g s k)
    refine ⟨hlength.trans hlen, fun j hj => (hcores j (hlen.symm ▸ hj)).trans ?_⟩
    rw [coreOf_congr (hg s k) j]
    by_cases hjk : j = k
    · subst hjk
      rw [coreOf_modCore_same _ hj, if_neg hk, if_pos List.mem_cons_self]
    · rw [coreOf_modCore_other _ _ hjk]
      simp [hjk]

theorem setDivider_cores (k : Nat) (f : Core → Core) (s : State) : (setDivider k f s).cores = (modCore k f s).cores := by
  unfold setDivider
  dsimp only
  split <;> rfl

/-! ### The first of a sorted list -/

theorem head_insertBy {α : Type} {le : α → α → Bool} (htotal : ∀ a b, le a b = true ∨ le b a = true)
    (htrans : ∀ a b c, le a b = true → le b c = true → le a c = true) {x k : α} {l : List α}
    (hl : ∀ y, l.head? = some y → ∀ z ∈ l, le y z = true) (hk : (insertBy le x l).head? = some k) :
    ∀ z ∈ insertBy le x l, le k z = true := by
  have hrefl (a : α) : le a a = true := (htotal a a).elim id id
  cases l with
  | nil =>
    obtain rfl := Option.some.inj hk
    intro z hz
    obtain rfl := List.mem_singleton.1 hz
    exact hrefl z
  | cons y l =>
    have hy := hl y rfl
    intro z hz
    rw [mem_insertBy] at hz
    rw [insertBy] at hk
    split at hk
    · next hxy =>
      obtain rfl := Option.some.inj hk
      rcases hz with rfl | hz
      · exact hrefl z
      · exact htrans _ _ _ hxy (hy z hz)
    · next hxy =>
      obtain rfl := Option.some.inj hk
      rcases hz with rfl | hz
      · exact (htotal _ _).resolve_left hxy
      · exact hy z hz

/-- The first element of a sorted list comes before every other. -/
theorem head_sortBy {α : Type} {le : α → α → Bool} (htotal : ∀ a b, le a b = true ∨ le b a = true)
    (htrans : ∀ a b c, le a b = true → le b c = true → le a c = true) {k : α} {l : List α}
    (hk : (sortBy le l).head? = some k) : k ∈ l ∧ ∀ z ∈ l, le k z = true := by
  have hfirst : ∀ l : List α, ∀ y, (sortBy le l).head? = some y → ∀ z ∈ sortBy le l, le y z = true := by
    intro l
    induction l with
    | nil => exact fun _ h => nomatch h
    | cons x l ih => exact fun y hy => head_insertBy htotal htrans ih hy
  exact ⟨mem_sortBy.1 (List.mem_of_mem_head? hk), fun z hz => hfirst l k hk z (mem_sortBy.2 hz)⟩

/-! ### Feeds and hold-up (12 R369-R372) -/

theorem feedOf_modFeed_same (b : Bool) (f : Feed → Feed) (s : State) : feedOf (modFeed b f s) b = f (feedOf s b) := by
  cases b <;> rfl

theorem feedOf_modFeed_other (b : Bool) (f : Feed → Feed) (s : State) : feedOf (modFeed b f s) (!b) = feedOf s (!b) := by
  cases b <;> rfl

theorem feedTurns_summarized (b back : Bool) (s : State) : Summarized (fun j => j = bit b ∨ j = 11) s (feedTurns b back s) := by
  unfold feedTurns
  split
  · exact (setHealth_summarized ..).trans ((postEvent_summarized ..).mono fun _ => .inr)
  · exact .refl _ s

theorem bit_lt_two (b : Bool) : bit b < 2 := by cases b <;> decide

theorem feedTurns_bit {s : State} (h : s.clk.sclk = true) (b back : Bool) :
    (feedTurns b back s).health.bits.getLsbD (bit b) = !back := by
  have hlt := bit_lt_two b
  unfold feedTurns
  rw [if_pos h]
  exact ((postEvent_summarized ..).bit (by omega)).trans (setHealth_bit (by omega) _ s)

/-- A feed's turn changes the arbiter and the summary alone. -/
theorem feedTurns_changes (b back : Bool) (s : State) :
    ∃ a h, feedTurns b back s = { s with arb := a, health := h } ∧
      (s.clk.sclk = true → h.bits.getLsbD (bit b) = !back) := by
  obtain ⟨a, h, e⟩ := feedTurns_arbHealth b back s
  exact ⟨a, h, e, fun hsclk => by rw [← feedTurns_bit hsclk b back, e]⟩

/-- A feed lost: the other's voltage is taken, and the loss of the second begins hold-up unless it has begun. -/
theorem feedLost_of_present {b : Bool} {mv : Nat} {s : State} (h : (feedOf s b).present = true) :
    ∃ p a x, feedOf { s with power := p } b = { present := false, mv := 0 } ∧
      feedOf { s with power := p } (!b) = (if (feedOf s !b).present then { feedOf s (!b) with mv := mv } else feedOf s (!b)) ∧
      p.holdUp = s.power.holdUp ∧ (s.clk.sclk = true → x.bits.getLsbD (bit b) = true) ∧
      feedLost b mv s = if (feedOf s !b).present || s.power.holdUp.isSome then { s with power := p, arb := a, health := x }
        else bothLost { s with power := p, arb := a, health := x } := by
  let volts (f : Feed) : Feed := if f.present then { f with mv := mv } else f
  let t : State := modFeed (!b) volts (modFeed b (fun _ => { present := false, mv := 0 }) s)
  obtain ⟨a, x, e, hbit⟩ := feedTurns_changes b false t
  have ht : t = { s with power := t.power } := by cases b <;> rfl
  have hown : feedOf t b = { present := false, mv := 0 } := by cases b <;> rfl
  have hother : feedOf t (!b) = volts (feedOf s (!b)) := by cases b <;> rfl
  have hhold : t.power.holdUp = s.power.holdUp := by cases b <;> rfl
  have hpresent : (feedOf t !b).present = (feedOf s !b).present := by
    rw [hother]
    unfold volts
    split <;> rfl
  have hclk : t.clk = s.clk := by rw [ht]
  refine ⟨t.power, a, x, by rw [← ht, hown], by rw [← ht, hother], hhold, fun hsclk => hbit (by rw [hclk, hsclk]), ?_⟩
  rw [feedLost, if_pos h]
  show (if (feedOf (feedTurns b false t) !b).present || (feedTurns b false t).power.holdUp.isSome then feedTurns b false t
    else bothLost (feedTurns b false t)) = _
  have hturned : feedTurns b false t = { s with power := t.power, arb := a, health := x } := by
    rw [e]
    cases b <;> rfl
  rw [← hpresent, ← hhold, hturned]
  rfl

theorem holdUpEnd_of_held {t0 : Tick} {s : State} (h : s.power.holdUp = some t0) :
    holdUpEnd s =
      if s.clk.sclk = true ∧ now s < t0 + 200000 then s
      else if s.power.feedA.present || s.power.feedB.present then
        if s.clk.sclk then modDev (fun d => { d with on := true }) (moduleReset 0 { s with power := { s.power with holdUp := none } })
        else { s with power := { s.power with holdUp := none } }
      else
        { s with
          power := { s.power with holdUp := none }, clk := { s.clk with sclk := false, syspll := false }
          dev := { s.dev with on := false }, link := { s.link with up := false }, sent := { s.sent with alive := false }
          thermal := { s.thermal with tripped := none } } := by
  rw [holdUpEnd, h]

/-! ### The power controller (12 R365-R368) -/

theorem stepDown_cores (k : Nat) (s : State) :
    (stepDown k s).cores = (modCore k (fun c => { c with powerDiv := slower (divider c) }) s).cores := setDivider_cores ..

theorem fastWindow_cores {s : State} (hlen : s.cores.length = 8) (mw k : Nat) (hk : k < 8) :
    (coreOf (fastWindow mw s) k).ceiling = (coreOf s k).ceiling ∧ (coreOf (fastWindow mw s) k).powerDiv =
      if 1450000 < mw then slower (divider (coreOf s k)) else (coreOf s k).powerDiv := by
  unfold fastWindow
  dsimp only
  split
  · rw [coreOf_congr (refreshThrottled_cores _) k]
    obtain ⟨-, hcores⟩ := coreOf_foldl (f := fun _ c => { c with powerDiv := slower (divider c) }) (fun s k => stepDown_cores k s)
      (List.nodup_range (n := 8)) { s with power := { s.power with pFast := mw } }
    rw [hcores k (hlen.symm ▸ hk), if_pos (List.mem_range.2 hk)]
    exact ⟨rfl, rfl⟩
  · exact ⟨rfl, rfl⟩

theorem fastWindow_power (mw : Nat) (s : State) : (fastWindow mw s).power = { s.power with pFast := mw } := by
  have hdown (t : State) (k : Nat) : (stepDown k t).power = t.power := by
    unfold stepDown setDivider
    dsimp only
    split <;> rfl
  unfold fastWindow
  dsimp only
  split
  · have hthrottled (t : State) : (refreshThrottled t).power = t.power := by
      obtain ⟨a, b, al, e, -⟩ := refreshThrottled_summarized t
      rw [e]
    rw [hthrottled, foldl_keeps State.power hdown]
  · rfl

theorem hungriest_some {k : Nat} {s : State} (h : hungriest s = some k) :
    k < 8 ∧ divider (coreOf s k) ≠ 8 ∧
      ∀ j : Nat, j < 8 → divider (coreOf s j) ≠ 8 → s.power.coreW.getD j 0 ≤ s.power.coreW.getD k 0 := by
  obtain ⟨hmem, hfirst⟩ := head_sortBy (by simp [Nat.le_total]) (by simp; omega) h
  obtain ⟨hk, hdiv⟩ := List.mem_filter.1 hmem
  refine ⟨List.mem_range.1 hk, by simpa using hdiv, fun j hj hj8 => ?_⟩
  exact of_decide_eq_true (hfirst j (List.mem_filter.2 ⟨List.mem_range.2 hj, by simpa using hj8⟩))

theorem mostThrottled_some {k : Nat} {s : State} (h : mostThrottled s = some k) :
    k < 8 ∧ 4 < (coreOf s k).powerDiv ∧
      ∀ j : Nat, j < 8 → 4 < (coreOf s j).powerDiv → divider (coreOf s j) ≤ divider (coreOf s k) := by
  obtain ⟨hmem, hfirst⟩ := head_sortBy (by simp [Nat.le_total]) (by simp; omega) h
  obtain ⟨hk, hdiv⟩ := List.mem_filter.1 hmem
  refine ⟨List.mem_range.1 hk, by simpa using hdiv, fun j hj hj4 => ?_⟩
  exact of_decide_eq_true (hfirst j (List.mem_filter.2 ⟨List.mem_range.2 hj, by simpa using hj4⟩))

/-- Settles O46, event by event. -/
theorem power : Obligations.Power := by
  unfold Obligations.Power
  intro s
  refine ⟨?returned, ?lost, ?held, ?fast, ?slow, ?down, ?up⟩
  case returned =>
    intro b mv habsent hlow hhigh
    obtain ⟨a, x, e, hbit⟩ := feedTurns_changes b true (modFeed b (fun _ => { present := true, mv := mv }) s)
    have hrun : feedPresent b mv s = { s with
        power := (modFeed b (fun _ => { present := true, mv := mv }) s).power, arb := a, health := x } :=
      (if_pos ⟨habsent, hlow, hhigh⟩).trans (e.trans (by cases b <;> rfl))
    refine ⟨_, congrArg Host.Outcome.next hrun, ?_, ?_, hbit, rfl⟩
    · cases b <;> rfl
    · cases b <;> rfl
  case lost =>
    intro b mv hpresent
    obtain ⟨p, a, x, hown, hother, hhold, hbit, hrun⟩ := feedLost_of_present (mv := mv) hpresent
    refine ⟨fun hsecond => ?_, fun hlast hfresh hon => ?_⟩
    · rw [if_pos (by simp [hsecond])] at hrun
      refine ⟨_, congrArg Host.Outcome.next hrun, hown, ?_, hbit, hhold, rfl⟩
      refine Eq.trans hother ?_
      rw [if_pos hsecond]
      exact congrArg (fun q => Feed.mk q mv) hsecond
    · rw [if_neg (by simp [hlast, hfresh])] at hrun
      refine ⟨{ s with
          power := { p with holdUp := some (now s) }, arb := a, health := x
          sec := { s.sec with debugOpened := false, jtagOpen := false } },
        congrArg Host.Outcome.next (hrun.trans (if_pos hon)), rfl, rfl, rfl, rfl⟩
  case held =>
    intro t0 hheld
    have hrun := holdUpEnd_of_held hheld
    refine ⟨fun hsclk hearly => congrArg Host.Outcome.next (hrun.trans (if_pos ⟨hsclk, hearly⟩)), fun hsclk hdue hfeed => ?_,
      fun hdue ha hb => ?_⟩
    · have hsome : (s.power.feedA.present || s.power.feedB.present) = true := Bool.or_eq_true_iff.2 hfeed
      rw [if_neg fun h => Nat.not_lt.2 hdue h.2, if_pos hsome, if_pos hsclk] at hrun
      exact ⟨_, congrArg Host.Outcome.next hrun, rfl, rfl, rfl, rfl, rfl, rfl⟩
    · rw [if_neg fun h => Nat.not_lt.2 hdue h.2, if_neg (by simp [ha, hb])] at hrun
      exact ⟨_, congrArg Host.Outcome.next hrun, rfl, rfl, rfl, rfl⟩
  case fast =>
    intro mw coreW blockW mv hon hlen
    have hrun : powerWindow false mw coreW blockW mv s = fastWindow mw (measure coreW blockW mv s) := if_neg (by simp [hon])
    have hpower := fastWindow_power mw (measure coreW blockW mv s)
    refine ⟨_, congrArg Host.Outcome.next hrun, by rw [hpower], by rw [hpower]; rfl, fun k hk => ?_⟩
    exact fastWindow_cores (s := measure coreW blockW mv s) hlen mw k hk
  case slow =>
    intro mw coreW blockW mv hon
    have hrun : powerWindow true mw coreW blockW mv s = slowWindow mw (measure coreW blockW mv s) := if_neg (by simp [hon])
    refine ⟨_, congrArg Host.Outcome.next hrun, rfl, rfl, fun hseven => ?_, ?_, rfl⟩
    · exact Bool.or_eq_true_iff.2 (.inr (decide_eq_true hseven))
    · show mw + 50000 < s.power.capMw ↔ (if mw + 50000 < s.power.capMw then some _ else none : Option Tick).isSome = true
      split <;> simp [*]
  case down =>
    intro mean hon hstep
    have hruns : ¬(!hubOn s || !s.power.stepping) = true := by simp [hon, hstep]
    refine ⟨fun hbelow => congrArg Host.Outcome.next ?_, fun t0 habove hat hearly => congrArg Host.Outcome.next ?_,
      fun k habove hdue hk => ⟨congrArg Host.Outcome.next ?_, hungriest_some hk⟩⟩
    · rw [powerStepDown, if_neg hruns, if_pos hbelow]
    · rw [powerStepDown, if_neg hruns, if_neg (Nat.not_lt.2 habove), hat]
      exact if_pos (decide_eq_true hearly)
    · have hlate : ¬(s.power.steppedAt.any fun t => decide (now s < t + 10000)) = true := by
        rw [Option.any_eq_true]
        rintro ⟨t0, hat, hearly⟩
        exact Nat.not_lt.2 (hdue t0 hat) (of_decide_eq_true hearly)
      rw [powerStepDown, if_neg hruns, if_neg (Nat.not_lt.2 habove), if_neg hlate]
      simp only [show hungriest { s with power := { s.power with steppedAt := some (now s) } } = some k from hk]
      rfl
  case up =>
    intro t0 ht hon
    refine ⟨fun hearly => congrArg Host.Outcome.next ?_, fun k hdue hk => ⟨congrArg Host.Outcome.next ?_, mostThrottled_some hk⟩⟩
    · simp only [powerStepUp, ht]
      exact if_neg fun h => Nat.not_le.2 hearly h.2
    · simp only [powerStepUp, ht]
      rw [if_pos ⟨hon, hdue⟩]
      simp only [show mostThrottled { s with power := { s.power with underSince := some (now s) } } = some k from hk]
      rfl

end Sys2Proof.Machine

namespace Sys2Proof.Machine

/-! ### What DYING, a mode change and a request's return to ADMITTED leave alone -/

/-- A state with what a withdrawal of work touches taken from another: requests, sequences, pages and their bytes, waits for the partner,
fences, commands, candidates, events and counters. -/
def withWork (s x : State) : State :=
  { x with
    reqs := s.reqs, seqs := s.seqs, pages := s.pages, mem := s.mem, halves := s.halves, tenants := s.tenants, fences := s.fences
    cmds := s.cmds, arb := s.arb, health := s.health, bob := s.bob, svc := s.svc, pair := s.pair, tx := s.tx, free := s.free
    cores := s.cores }

/-- A core but for what it keeps of requests. -/
def duty (c : Core) : Core := { c with trees := [] }

/-- `t` differs from `s` only in what a withdrawal of work touches; of a core that is what it keeps of requests, and neither a half's fault nor
a bit of HEALTH_SUMMARY but EVENT_BACKLOG. -/
structure Withdrawn (s t : State) : Prop where
  frame : withWork s t = s
  cores : t.cores.map duty = s.cores.map duty
  halves : t.halves.map Half.faulted = s.halves.map Half.faulted
  bits : ∀ j, j ≠ 11 → t.health.bits.getLsbD j = s.health.bits.getLsbD j

theorem Withdrawn.refl (s : State) : Withdrawn s s := ⟨rfl, rfl, rfl, fun _ _ => rfl⟩

theorem Withdrawn.trans {s t u : State} (h : Withdrawn s t) (g : Withdrawn t u) : Withdrawn s u :=
  ⟨(congrArg (withWork s) g.frame).trans h.frame, g.cores.trans h.cores, g.halves.trans h.halves,
    fun j hj => (g.bits j hj).trans (h.bits j hj)⟩

theorem Withdrawn.foldl {α : Type} {f : State → α → State} (h : ∀ s x, Withdrawn s (f s x)) (l : List α) (s : State) :
    Withdrawn s (l.foldl f s) :=
  List.foldlRecOn l f (motive := Withdrawn s) (.refl s) fun t ht x _ => ht.trans (h t x)

theorem coreOf_duty {s t : State} (h : t.cores.map duty = s.cores.map duty) (k : Nat) : duty (coreOf t k) = duty (coreOf s k) := by
  have hget (l : List Core) : duty (l.getD k Core.reset) = (l.map duty).getD k (duty Core.reset) := by
    simp [List.getD_eq_getElem?_getD]
  exact (hget _).trans ((congrArg (fun l : List Core => l.getD k (duty Core.reset)) h).trans (hget _).symm)

/-- A state with what replies and updates owed to others touch taken from another. -/
def withAnswers (s x : State) : State :=
  { x with
    fences := s.fences, cmds := s.cmds, arb := s.arb, health := s.health, bob := s.bob, svc := s.svc, pair := s.pair, tx := s.tx
    free := s.free }

/-- `t` differs from `s` only in what replies and updates owed to others touch: fences, commands, candidates, events, counters and the
pair's records. -/
structure Answered (s t : State) : Prop where
  frame : withAnswers s t = s
  bits : ∀ j, j ≠ 11 → t.health.bits.getLsbD j = s.health.bits.getLsbD j

theorem Answered.refl (s : State) : Answered s s := ⟨rfl, fun _ _ => rfl⟩

theorem Answered.trans {s t u : State} (h : Answered s t) (g : Answered t u) : Answered s u :=
  ⟨(congrArg (withAnswers s) g.frame).trans h.frame, fun j hj => (g.bits j hj).trans (h.bits j hj)⟩

theorem Answered.foldl {α : Type} {f : State → α → State} (h : ∀ s x, Answered s (f s x)) (l : List α) (s : State) :
    Answered s (l.foldl f s) :=
  List.foldlRecOn l f (motive := Answered s) (.refl s) fun t ht x _ => ht.trans (h t x)

theorem Answered.withdrawn {s t : State} (h : Answered s t) : Withdrawn s t :=
  ⟨(congrArg (withWork s) h.frame :), (congrArg (fun x : State => x.cores.map duty) h.frame :),
    (congrArg (fun x : State => x.halves.map Half.faulted) h.frame :), h.bits⟩

/-- An event or a change of EVENT_BACKLOG. -/
theorem Summarized.answered {s t : State} (h : Summarized (· = 11) s t) : Answered s t := by
  obtain ⟨a, b, al, rfl, hb⟩ := h
  exact ⟨rfl, hb⟩

theorem Told.answered {s t : State} (h : Told s t) : Answered s t := by
  obtain ⟨n, sent, unacked, held, x, f, rfl⟩ := h
  exact ⟨rfl, fun _ _ => rfl⟩

theorem submit_answered (c : Cand) (s : State) : Answered s (submit c s) :=
  ⟨(congrArg (withAnswers s) (submit_frame c s) :),
    fun j _ => (congrArg (fun x : State => x.health.bits.getLsbD j) (submit_frame c s) :)⟩

theorem finish_answered (cid : Nat) (st : Status) (d : Nat) (v : BitVec 64) (fl : BitVec 16) (a : OnAccept) (s : State) :
    Answered s (finish cid st d v fl a s) :=
  ⟨(congrArg (withAnswers s) (finish_frame cid st d v fl a s) :),
    fun j _ => (congrArg (fun x : State => x.health.bits.getLsbD j) (finish_frame cid st d v fl a s) :)⟩

theorem bobPost_answered (u c a : Nat) (s : State) : Answered s (bobPost u c a s) := ⟨rfl, fun _ _ => rfl⟩
theorem modPair_answered (f : Pair → Pair) (s : State) : Answered s (modPair f s) := ⟨rfl, fun _ _ => rfl⟩

theorem tellReq_told (k : Nat) (s : State) : Told s (tellReq k s) := by
  unfold tellReq
  split
  · exact .refl s
  · exact tell_told ..

theorem tellFence_told (i : Nat) (s : State) : Told s (tellFence i s) := by
  unfold tellFence
  split <;> exact tell_told ..

theorem setFence_answered (i : Nat) (v : BitVec 64) (s : State) : Answered s (setFence i v s) :=
  Answered.trans (t := { s with fences := tmod s.fences i fun f => { f with value := v } }) ⟨rfl, fun _ _ => rfl⟩
    (tellFence_told i _).answered

theorem settleCancels_answered (s : State) : Answered s (settleCancels s) :=
  .foldl (fun _ _ => finish_answered ..) _ s

theorem leaveMirrored_answered (s : State) : Answered s (leaveMirrored s) := by
  unfold leaveMirrored
  extract_lets keep
  exact Answered.trans (t := { s with arb := { s.arb with cands := s.arb.cands.filter keep } }) ⟨rfl, fun _ _ => rfl⟩
    (settleCancels_answered _)

theorem updateFence_answered (f n : BitVec 32) (st : Status) (s : State) : Answered s (updateFence f n st s) := by
  unfold updateFence
  dsimp only
  split
  · exact .refl s
  · split
    · split
      · exact setFence_answered ..
      · exact bobPost_answered ..
    · exact bobPost_answered ..

theorem signalNow_answered (cid i gen : Nat) (s : State) : Answered s (signalNow cid i gen s) := by
  unfold signalNow
  split
  · dsimp only
    split
    · exact finish_answered ..
    · exact (setFence_answered ..).trans (finish_answered ..)
  · exact finish_answered ..
  · exact .refl s

theorem releaseAck_answered (u : Unacked) (s : State) : Answered s (releaseAck u s) := by
  unfold releaseAck
  extract_lets t
  have ht : Answered s t := by
    unfold t
    split
    · exact submit_answered ..
    · exact .refl s
  split
  · exact ht.trans (signalNow_answered ..)
  · exact ht.trans (updateFence_answered ..)
  · exact ht

theorem releaseWaits_answered (s : State) : Answered s (releaseWaits s) := by
  unfold releaseWaits
  exact ((modPair_answered _ s).trans (.foldl (fun t u => releaseAck_answered u t) _ _)).trans
    (.foldl (fun _ _ => submit_answered ..) _ _)

theorem sendFrames_told (cutsShort : Bool) (s : State) : Told s (sendFrames cutsShort s) := by
  unfold sendFrames
  split
  · exact .refl s
  · dsimp only
    split <;> exact ⟨_, _, _, _, _, _, rfl⟩

theorem setReqState_withdrawn (slot : Nat) (st : ReqState) (s : State) : Withdrawn s (setReqState slot st s) :=
  Withdrawn.trans (t := modReq slot (fun r => { r with st := st }) s) ⟨rfl, rfl, rfl, fun _ _ => rfl⟩
    (tellReq_told slot _).answered.withdrawn

theorem retireKeys_withdrawn (t : Nat) (s : State) : Withdrawn s (retireKeys t s) := by
  unfold retireKeys
  split
  · exact .refl s
  · next x _ =>
    split
    · exact .refl s
    · split
      · exact .refl s
      · exact Withdrawn.trans (t := { s with tenants := tset s.tenants t { x with prev := none } }) ⟨rfl, rfl, rfl, fun _ _ => rfl⟩
          (postEvent_summarized ..).answered.withdrawn

theorem freePagesOf_withdrawn (p : PageUse → Bool) (s : State) : Withdrawn s (freePagesOf p s) := by
  unfold freePagesOf retireAll
  extract_lets gone
  exact Withdrawn.trans (t := zeroPages gone.contains { s with pages := s.pages.filter fun e => !p e.2.use })
    ⟨rfl, rfl, by simp [zeroPages], fun _ _ => rfl⟩ (.foldl (fun t k => retireKeys_withdrawn k t) _ _)

theorem dropHeld_withdrawn (slot : Nat) (s : State) : Withdrawn s (dropHeld slot s) :=
  ⟨rfl, by simp [dropHeld, duty], by simp [dropHeld], fun _ _ => rfl⟩

theorem modReq_withdrawn (k : Nat) (f : Req → Req) (s : State) : Withdrawn s (modReq k f s) := ⟨rfl, rfl, rfl, fun _ _ => rfl⟩
theorem modSeq_withdrawn (i : Nat) (f : Sequence → Sequence) (s : State) : Withdrawn s (modSeq i f s) := ⟨rfl, rfl, rfl, fun _ _ => rfl⟩
theorem coolPages_withdrawn (i : Nat) (s : State) : Withdrawn s (coolPages i s) :=
  ⟨rfl, rfl, by simp [coolPages], fun _ _ => rfl⟩

theorem storeLists_withdrawn (i : Nat) (s : State) : Withdrawn s (storeLists i s) := by
  unfold storeLists
  extract_lets put
  have hone (t : State) (h : Nat) : Withdrawn t (put t h) := by
    unfold put
    dsimp only
    refine List.foldlRecOn _ _ (motive := Withdrawn t) (.refl t) fun u hu e _ => hu.trans ?_
    exact ⟨rfl, rfl, rfl, fun _ _ => rfl⟩
  exact (hone s 0).trans (hone _ 1)

theorem trimSeq_withdrawn (i n : Nat) (s : State) : Withdrawn s (trimSeq i n s) := by
  unfold trimSeq
  split
  · exact .refl s
  · exact ((freePagesOf_withdrawn _ s).trans (modSeq_withdrawn i _ _)).trans (storeLists_withdrawn i _)

theorem releasePages_withdrawn (slot : Nat) (r : Req) (s : State) : Withdrawn s (releasePages slot r s) := by
  unfold releasePages
  extract_lets scratch t
  have ht : Withdrawn s t := (freePagesOf_withdrawn scratch s).trans (dropHeld_withdrawn slot _)
  split
  · exact ht
  · next i _ =>
    split
    · exact ht
    · refine (ht.trans ?_).trans (trimSeq_withdrawn ..)
      split
      · exact .refl t
      · exact coolPages_withdrawn i t

theorem backToAdmitted_withdrawn (slot : Nat) (s : State) : Withdrawn s (backToAdmitted slot s) := by
  unfold backToAdmitted
  split
  · exact .refl s
  · exact ((modReq_withdrawn slot _ s).trans (releasePages_withdrawn ..)).trans (setReqState_withdrawn ..)

theorem shedLent_withdrawn (s : State) : Withdrawn s (shedLent s) := by
  refine .foldl (fun t k => ?_) _ s
  unfold shedOne
  split
  · exact backToAdmitted_withdrawn k t
  · exact .refl t

theorem setMode_withdrawn (m : PairMode) (r : Role) (s : State) : Withdrawn s (setMode m r s) := by
  unfold setMode
  extract_lets t u
  have ht : Withdrawn s t := ⟨rfl, rfl, rfl, fun _ _ => rfl⟩
  have hu : Withdrawn s u := by
    unfold u
    split
    · exact ht
    · exact ht.trans (shedLent_withdrawn t)
  split
  · exact hu
  · exact hu.trans (postEvent_summarized ..).answered.withdrawn

/-- Where nothing is lent nothing is called back. -/
theorem shedLent_of_none {s : State} (h : ∀ e ∈ s.reqs, e.2.lent = false) : shedLent s = s := by
  refine List.foldlRecOn _ _ (motive := fun t => t = s) rfl fun t ht k _ => ?_
  rw [ht]
  refine if_neg ?_
  rw [Option.any_eq_true]
  rintro ⟨r, hr, hlent⟩
  rw [h _ (mem_of_tget hr)] at hlent
  cases hlent

/-- What precedes the change of mode when a module signals DYING. -/
def dyingFrames (cause : Nat) (s : State) : State :=
  let leaving := s.pair.role = .active ∧ s.pair.mode = .activeStandby
  let s := sendFrames true (modPair (fun p => { p with dyingSent := some cause, leaves := leaving, copies := holdsCopy s }) s)
  if leaving then leaveMirrored s else s

theorem dyingFrames_answered (cause : Nat) (s : State) : Answered s (dyingFrames cause s) := by
  have hsent (f : Pair → Pair) : Answered s (sendFrames true (modPair f s)) :=
    (modPair_answered f s).trans (sendFrames_told true _).answered
  unfold dyingFrames
  dsimp only
  split
  · exact (hsent _).trans (leaveMirrored_answered _)
  · exact hsent _

theorem signalDying_eq (cause : Nat) (s : State) :
    signalDying cause s = if !bound s || s.pair.dyingSent.isSome then s
      else releaseWaits (bobPost 0x1A 0x0018 cause (setMode .degraded .none (dyingFrames cause s))) := rfl

theorem signalDying_withdrawn (cause : Nat) (s : State) : Withdrawn s (signalDying cause s) := by
  rw [signalDying_eq]
  split
  · exact .refl s
  · exact ((dyingFrames_answered cause s).withdrawn.trans (setMode_withdrawn ..)).trans
      ((bobPost_answered ..).trans (releaseWaits_answered _)).withdrawn

theorem setMode_of_none_lent (m : PairMode) (r : Role) {s : State} (h : ∀ e ∈ s.reqs, e.2.lent = false) :
    Answered s (setMode m r s) := by
  unfold setMode
  extract_lets t u
  have hu : u = t := by
    unfold u
    split
    · rfl
    · exact shedLent_of_none h
  rw [hu]
  split
  · exact modPair_answered ..
  · exact (modPair_answered ..).trans (postEvent_summarized ..).answered

/-- A module that has lent nothing keeps its requests and cores as they are when it signals DYING. -/
theorem signalDying_of_none_lent (cause : Nat) {s : State} (h : ∀ e ∈ s.reqs, e.2.lent = false) :
    Answered s (signalDying cause s) := by
  rw [signalDying_eq]
  split
  · exact .refl s
  · have hframes := dyingFrames_answered cause s
    have hreqs : (dyingFrames cause s).reqs = s.reqs := (congrArg State.reqs hframes.frame :)
    exact ((hframes.trans (setMode_of_none_lent .degraded .none (hreqs ▸ h))).trans (bobPost_answered ..)).trans
      (releaseWaits_answered _)

end Sys2Proof.Machine

namespace Sys2Proof.Machine

/-! ### Sweeps (03 R96, R97) -/

theorem submit_changes (c : Cand) (s : State) : ∃ a v, submit c s = { s with arb := a, svc := v } :=
  ⟨_, _, (congrArg (fun x : State => { x with arb := (submit c s).arb, svc := (submit c s).svc }) (submit_frame c s) :)⟩

theorem sweep_changes (st : Status) (d : Nat) (after : AfterSweep) (s : State) : ∃ a v, sweep st d after s = { s with
    sent := { s.sent with sweep := some (strongest s.sent.sweep after) }, arb := a, svc := v } := by
  unfold sweep
  refine List.foldlRecOn _ _ (motive := fun t : State => ∃ a v, t = { s with
    sent := { s.sent with sweep := some (strongest s.sent.sweep after) }, arb := a, svc := v }) ⟨_, _, rfl⟩ fun t ht e _ => ?_
  obtain ⟨a, v, rfl⟩ := ht
  exact submit_changes _ _ |>.imp fun b hb => hb.imp fun w hw => hw

/-! ### Halted cores (12 R379) -/

/-- What a core runs at and why it is halted. -/
def run (c : Core) : Core := { Core.reset with ceiling := c.ceiling, powerDiv := c.powerDiv, tj := c.tj, halted := c.halted }

theorem run_of_duty {a b : Core} (h : duty a = duty b) : run a = run b :=
  (congrArg run h : run (duty a) = run (duty b))

/-- Outside patterns and stages, `t` is `s` but for withdrawn work and the summary. -/
structure Replanned (s t : State) : Prop where
  frame : withWork s { t with pats := s.pats, stages := s.stages } = s
  duty : t.cores.map duty = s.cores.map duty

theorem Withdrawn.replanned {s t : State} (h : Withdrawn s t) : Replanned s t :=
  ⟨(congrArg (fun x : State => { x with pats := s.pats, stages := s.stages }) h.frame :), h.cores⟩

theorem Replanned.trans {s t u : State} (h : Replanned s t) (g : Replanned t u) : Replanned s u :=
  ⟨(congrArg (fun x : State => withWork s { x with pats := s.pats, stages := s.stages }) g.frame :).trans h.frame,
    g.duty.trans h.duty⟩

theorem Replanned.thermal {s t : State} (h : Replanned s t) : t.thermal = s.thermal := (congrArg State.thermal h.frame :)

theorem migrateParts_replanned (s : State) : Replanned s (migrateParts s) :=
  ⟨(congrArg (fun x : State => withWork s { x with stages := s.stages }) (migrateParts_frame s) :),
    (congrArg (fun x : State => x.cores.map Sys2Proof.Machine.duty) (migrateParts_frame s) :)⟩

theorem replanIdle_replanned (s : State) : Replanned s (replanIdle s) := ⟨rfl, rfl⟩

theorem refreshThrottled_replanned (s : State) : Replanned s (refreshThrottled s) := by
  obtain ⟨a, b, al, e, -⟩ := refreshThrottled_summarized s
  rw [e]
  exact ⟨rfl, rfl⟩

theorem haltCore_replanned (k : Nat) (cause : HaltCause) (s : State) :
    Replanned (modCore k (fun c => { c with halted := some cause, below := none }) s) (haltCore k cause s) := by
  unfold haltCore
  extract_lets work t u
  have hu : Withdrawn t u := by
    refine .foldl (fun x e => ?_) work t
    split
    · split
      · exact .refl x
      · exact backToAdmitted_withdrawn e.1 x
    · exact .refl x
  exact ((hu.replanned.trans (migrateParts_replanned u)).trans (replanIdle_replanned _)).trans (refreshThrottled_replanned _)

theorem length_of_duty {s t : State} (h : t.cores.map duty = s.cores.map duty) : t.cores.length = s.cores.length := by
  simpa using congrArg List.length h

theorem modCore_length (k : Nat) (f : Core → Core) (s : State) : (modCore k f s).cores.length = s.cores.length := by
  simp [modCore]

theorem haltCore_length (k : Nat) (cause : HaltCause) (s : State) : (haltCore k cause s).cores.length = s.cores.length :=
  (length_of_duty (haltCore_replanned k cause s).duty).trans (modCore_length ..)

theorem haltCore_same {k : Nat} (cause : HaltCause) {s : State} (hk : k < s.cores.length) :
    run (coreOf (haltCore k cause s) k) = run { coreOf s k with halted := some cause } := by
  rw [run_of_duty (coreOf_duty (haltCore_replanned k cause s).duty k), coreOf_modCore_same _ hk]
  rfl

theorem haltCore_other {j k : Nat} (cause : HaltCause) (s : State) (h : j ≠ k) :
    run (coreOf (haltCore k cause s) j) = run (coreOf s j) := by
  rw [run_of_duty (coreOf_duty (haltCore_replanned k cause s).duty j), coreOf_modCore_other _ _ h]

section
variable {k : Nat} {c : HaltCause} {p : Prop} [Decidable p]

theorem ite_haltCore_length (s : State) : (if p then haltCore k c s else s).cores.length = s.cores.length := by
  split
  · exact haltCore_length ..
  · rfl

theorem ite_haltCore_other {j : Nat} (h : j ≠ k) (s : State) :
    run (coreOf (if p then haltCore k c s else s) j) = run (coreOf s j) := by
  split
  · exact haltCore_other c s h
  · rfl

theorem ite_haltCore_thermal (s : State) : (if p then haltCore k c s else s).thermal = s.thermal := by
  split
  · exact (haltCore_replanned k c s).thermal
  · rfl

theorem ite_haltCore_same {s : State} (hk : k < s.cores.length) :
    run (coreOf (if p then haltCore k c s else s) k) =
      run { coreOf s k with halted := if p then some c else (coreOf s k).halted } := by
  split
  · exact haltCore_same c hk
  · rfl

end

/-! ### Throttling (12 R376) -/

/-- The state in which a core's new Tj has taken effect, before the time below its release threshold is counted. -/
def throttled (k : Nat) (t : Int) (s : State) : State :=
  let s := setDivider k (fun c => { c with tj := t, ceiling := max c.ceiling (ceilingFor t) }) s
  let s := if 7040 ≤ t ∧ (coreOf s k).halted = none then haltCore k .tj s else s
  if (coreOf s k).bothOut && ((coreOf s k).halted.isNone || (coreOf s k).halted == some .tj) then haltCore k .sensors s else s

/-- The time that a core's Tj has stayed below its release threshold. -/
def timeBelow (now : Tick) (t : Int) (c : Core) : Core :=
  { c with below := if t < releaseBelow c ∧ (4 < c.ceiling ∨ c.halted = some .tj) then some (c.below.getD now) else none }

theorem throttle_eq (k : Nat) (t : Int) (s : State) :
    throttle k t s = modCore k (timeBelow (now (throttled k t s)) t) (throttled k t s) := rfl

theorem setDivider_thermal (k : Nat) (f : Core → Core) (s : State) : (setDivider k f s).thermal = s.thermal := by
  unfold setDivider
  dsimp only
  split <;> rfl

/-- A core after a new Tj: its ceiling has not risen, and at 110 °C or above it is halted. -/
structure Throttled (t : Int) (before after : Core) : Prop where
  ceiling : after.ceiling = max before.ceiling (ceilingFor t)
  powerDiv : after.powerDiv = before.powerDiv
  tj : after.tj = t
  halted : 7040 ≤ t → after.halted.isSome = true

theorem run_fields {a b : Core} (h : run a = run b) :
    a.ceiling = b.ceiling ∧ a.powerDiv = b.powerDiv ∧ a.tj = b.tj ∧ a.halted = b.halted :=
  ⟨(congrArg Core.ceiling h :), (congrArg Core.powerDiv h :), (congrArg Core.tj h :), (congrArg Core.halted h :)⟩

theorem Throttled.congr {t : Int} {a b c d : Core} (h : Throttled t a b) (hac : run c = run a) (hbd : run d = run b) :
    Throttled t c d := by
  obtain ⟨hceiling, hpower, -, -⟩ := run_fields hac
  obtain ⟨gceiling, gpower, gtj, ghalted⟩ := run_fields hbd
  exact ⟨by rw [gceiling, hceiling, h.ceiling], by rw [gpower, hpower, h.powerDiv], gtj.trans h.tj,
    fun ht => ghalted ▸ h.halted ht⟩

/-- What a new Tj does to its core, and leaves of the other cores and of the coolant. -/
theorem throttled_core {k : Nat} (t : Int) {s : State} (hk : k < s.cores.length) :
    Throttled t (coreOf s k) (coreOf (throttled k t s) k) ∧ (∀ j, j ≠ k → run (coreOf (throttled k t s) j) = run (coreOf s j)) ∧
    (throttled k t s).cores.length = s.cores.length ∧ (throttled k t s).thermal = s.thermal := by
  unfold throttled
  extract_lets s1 s2
  have hcores : s1.cores = (modCore k (fun c => { c with tj := t, ceiling := max c.ceiling (ceilingFor t) }) s).cores :=
    setDivider_cores ..
  have hcore : coreOf s1 k = { coreOf s k with tj := t, ceiling := max (coreOf s k).ceiling (ceilingFor t) } :=
    (coreOf_congr hcores k).trans (coreOf_modCore_same _ hk)
  have hlen1 : s1.cores.length = s.cores.length := (congrArg List.length hcores).trans (modCore_length ..)
  have hlen2 : s2.cores.length = s1.cores.length := ite_haltCore_length s1
  have hk1 : k < s1.cores.length := hlen1.symm ▸ hk
  refine ⟨?_, fun j hj => ?_, ?_, ?_⟩
  · have h1 : Throttled t (coreOf s k) { coreOf s1 k with
        halted := if 7040 ≤ t ∧ (coreOf s1 k).halted = none then some .tj else (coreOf s1 k).halted } := by
      rw [hcore]
      refine ⟨rfl, rfl, rfl, fun ht => ?_⟩
      dsimp only
      split
      · rfl
      · next hnot => exact Option.isSome_iff_ne_none.2 fun h => hnot ⟨ht, h⟩
    have h2 : Throttled t (coreOf s k) (coreOf s2 k) := h1.congr rfl (ite_haltCore_same hk1)
    split
    · have h3 : Throttled t (coreOf s k) { coreOf s2 k with halted := some .sensors } :=
        ⟨h2.ceiling, h2.powerDiv, h2.tj, fun _ => rfl⟩
      exact h3.congr rfl (haltCore_same .sensors (hlen2.symm ▸ hk1))
    · exact h2
  · rw [ite_haltCore_other hj, ite_haltCore_other hj, coreOf_congr hcores j, coreOf_modCore_other _ _ hj]
  · exact (ite_haltCore_length s2).trans (hlen2.trans hlen1)
  · exact (ite_haltCore_thermal s2).trans ((ite_haltCore_thermal s1).trans (setDivider_thermal ..))

theorem throttle_core {k : Nat} (t : Int) {s : State} (hk : k < s.cores.length) :
    Throttled t (coreOf s k) (coreOf (throttle k t s) k) ∧ (∀ j, j ≠ k → run (coreOf (throttle k t s) j) = run (coreOf s j)) ∧
    (throttle k t s).cores.length = s.cores.length ∧ (throttle k t s).thermal = s.thermal := by
  obtain ⟨hsame, hother, hlen, hthermal⟩ := throttled_core t hk
  rw [throttle_eq]
  refine ⟨?_, fun j hj => ?_, (modCore_length ..).trans hlen, hthermal⟩
  · rw [coreOf_modCore_same _ (hlen.symm ▸ hk)]
    exact hsame.congr rfl rfl
  · rw [coreOf_modCore_other _ _ hj]
    exact hother j hj

/-- Every core of a list takes its own Tj once. -/
theorem throttleAll_cores (tj : Nat → Int) {l : List Nat} (hl : l.Nodup) (s : State) (hin : ∀ k ∈ l, k < s.cores.length) :
    let t := l.foldl (fun s k => throttle k (tj k) s) s
    (∀ k ∈ l, Throttled (tj k) (coreOf s k) (coreOf t k)) ∧ (∀ j, j ∉ l → run (coreOf t j) = run (coreOf s j)) ∧
      t.cores.length = s.cores.length ∧ t.thermal = s.thermal := by
  induction l generalizing s with
  | nil => exact ⟨fun _ h => absurd h List.not_mem_nil, fun _ _ => rfl, rfl, rfl⟩
  | cons k l ih =>
    obtain ⟨hk, hnodup⟩ := List.nodup_cons.1 hl
    obtain ⟨hsame, hother, hlen, hthermal⟩ := throttle_core (tj k) (hin k List.mem_cons_self)
    obtain ⟨hsame', hother', hlen', hthermal'⟩ := ih hnodup (throttle k (tj k) s)
      fun j hj => hlen.symm ▸ hin j (List.mem_cons_of_mem _ hj)
    refine ⟨fun j hj => ?_, fun j hj => ?_, hlen'.trans hlen, hthermal'.trans hthermal⟩
    · by_cases hjk : j = k
      · subst hjk
        exact hsame.congr rfl (hother' j hk)
      · have hmem := (List.mem_cons.1 hj).resolve_left hjk
        exact (hsame' j hmem).congr (hother j hjk).symm rfl
    · obtain ⟨hjk, hjl⟩ := not_or.1 fun h => hj (List.mem_cons.2 h)
      exact (hother' j hjl).trans (hother j hjk)

/-! ### Readings (12 R374, R375) -/

/-- How every core runs, and the coolant. -/
def runs (s : State) : List Core × Thermal := (s.cores.map run, s.thermal)

theorem coreOf_run {s t : State} (h : t.cores.map run = s.cores.map run) (k : Nat) : run (coreOf t k) = run (coreOf s k) := by
  have hget (l : List Core) : run (l.getD k Core.reset) = (l.map run).getD k (run Core.reset) := by
    simp [List.getD_eq_getElem?_getD]
  exact (hget _).trans ((congrArg (fun l : List Core => l.getD k (run Core.reset)) h).trans (hget _).symm)

theorem modCore_runs (k : Nat) {f : Core → Core} (hf : ∀ c, run (f c) = run c) (s : State) : runs (modCore k f s) = runs s := by
  have hcores : (modCore k f s).cores.map run = s.cores.map run := by
    refine List.ext_getElem? fun i => ?_
    by_cases hi : i = k
    · subst hi
      by_cases hlt : i < s.cores.length
      · simp [modCore, coreOf, hlt, hf]
      · simp [modCore, Nat.not_lt.1 hlt]
    · simp [modCore, List.getElem?_set_ne (Ne.symm hi)]
  exact congrArg (fun l => (l, s.thermal)) hcores

theorem markSuspect_runs (k : Nat) (raw : List (Option Int)) (s : State) : runs (markSuspect k raw s) = runs s := by
  have hmarked : runs (modCore k (fun c => { c with suspect := true }) s) = runs s := modCore_runs k (by exact fun _ => rfl) s
  unfold markSuspect
  split
  · rfl
  · dsimp only
    obtain ⟨a, h, e⟩ := setHealth_arbHealth 4 true (modCore k (fun c => { c with suspect := true }) s)
    rw [e]
    exact hmarked

theorem judgePair_runs (raw : List (Option Int)) (s : State) (k : Nat) : runs (judgePair raw s k) = runs s := by
  unfold judgePair
  split
  · dsimp only
    split
    · split
      · exact (markSuspect_runs ..).trans (modCore_runs k (by exact fun _ => rfl) s)
      · exact modCore_runs k (by exact fun _ => rfl) s
    · exact modCore_runs k (by exact fun _ => rfl) s
  · exact modCore_runs k (by exact fun _ => rfl) s
  · exact (markSuspect_runs ..).trans (modCore_runs k (by exact fun _ => rfl) s)

/-! ### Coolant (12 R381) -/

/-- A coolant stop leaves how every core runs, and the sensors. -/
theorem coolantStop_runs (s : State) : (coolantStop s).cores.map run = s.cores.map run ∧
    (coolantStop s).thermal.sensors = s.thermal.sensors := by
  have hrun {l m : List Core} (h : l.map duty = m.map duty) : l.map run = m.map run := by
    have hcomp (l : List Core) : l.map run = (l.map duty).map run := by
      rw [List.map_map]
      rfl
    rw [hcomp l, h, ← hcomp m]
  unfold coolantStop
  split
  · exact ⟨rfl, rfl⟩
  · extract_lets h u
    have hu : Withdrawn (endFlowStop s) u := signalDying_withdrawn 3 _
    obtain ⟨a, v, e⟩ := sweep_changes .thermalAbort 0 .nothing { u with thermal := { u.thermal with hold := some h, drain := none } }
    rw [e]
    exact ⟨hrun hu.cores, (congrArg (fun x : State => x.thermal.sensors) hu.frame :)⟩

theorem judgeOutlet_runs (s : State) : (judgeOutlet s).cores.map run = s.cores.map run ∧
    (judgeOutlet s).thermal.sensors = s.thermal.sensors := by
  unfold judgeOutlet
  split
  · exact ⟨rfl, rfl⟩
  · dsimp only
    split
    · exact coolantStop_runs _
    · exact ⟨rfl, rfl⟩

/-- A coolant stop that begins. -/
theorem coolantStop_of_governed {s : State} (hfree : s.thermal.hold = none) (hgoverned : flowGoverned s = true) :
    (coolantStop s).thermal = { s.thermal with hold := some { t0 := s.clk.localTime, bound := bound s, okSince := none }, drain := none } := by
  unfold coolantStop
  rw [if_neg (by simp [hfree, hgoverned])]
  extract_lets h u
  have hu : Withdrawn (endFlowStop s) u := signalDying_withdrawn 3 _
  obtain ⟨a, v, e⟩ := sweep_changes .thermalAbort 0 .nothing { u with thermal := { u.thermal with hold := some h, drain := none } }
  rw [e]
  have hthermal : u.thermal = s.thermal := (congrArg State.thermal hu.frame :)
  dsimp only
  rw [hthermal]
  rfl

/-- The readings of a serving module are judged core by core. -/
theorem sensorSample_of_serving {raw : List (Option Int)} {s : State} (hsclk : s.clk.sclk = true) (htrip : s.thermal.tripped = none)
    (hcool : tripSensor (takeReadings raw s) = none) (hon : s.dev.on = true) (hserves : serving s = true) :
    sensorSample raw s = judgeOutlet (refreshThrottled ((List.range 8).foldl
      (fun t k => throttle k (((List.range 8).map (tjOf ((List.range 8).foldl (judgePair raw) (takeReadings raw s)))).getD k 0) t)
      ((List.range 8).foldl (judgePair raw) (takeReadings raw s)))) := by
  have hstate : ¬(s.dev.state = .halfMast ∨ s.dev.state = .shutdown ∨ s.dev.on = false) := by
    rintro (h | h | h)
    · simp [serving, h] at hserves
    · simp [serving, h] at hserves
    · simp [hon] at h
  rw [sensorSample, if_neg (by simp [hsclk])]
  dsimp only
  rw [if_neg (by simp [takeReadings, htrip]), hcool]
  exact if_neg hstate

/-- Readings judged, every core throttled by its new Tj, and the outlet judged. -/
theorem throttledReadings_cores (raw : List (Option Int)) {s : State} (hlen : s.cores.length = 8) :
    let s1 := (List.range 8).foldl (judgePair raw) (takeReadings raw s)
    let t := judgeOutlet (refreshThrottled ((List.range 8).foldl
      (fun t k => throttle k (((List.range 8).map (tjOf s1)).getD k 0) t) s1))
    t.thermal.sensors = (takeReadings raw s).thermal.sensors ∧ ∀ k : Nat, k < 8 →
      (coreOf t k).ceiling = max (coreOf s k).ceiling (ceilingFor (coreOf t k).tj) ∧ (coreOf t k).powerDiv = (coreOf s k).powerDiv ∧
        (7040 ≤ (coreOf t k).tj → (coreOf t k).halted.isSome = true) := by
  intro s1 t
  have h1 : runs s1 = runs (takeReadings raw s) := foldl_keeps runs (judgePair_runs raw) _ _
  clear_value s1
  have hcores1 : s1.cores.map run = s.cores.map run := congrArg Prod.fst h1
  have hlen1 : s1.cores.length = 8 := by
    simpa [hlen] using congrArg List.length hcores1
  obtain ⟨hthrottled, -, -, hthermal⟩ := throttleAll_cores (fun k => ((List.range 8).map (tjOf s1)).getD k 0)
    (List.nodup_range (n := 8)) s1 fun k hk => hlen1.symm ▸ List.mem_range.1 hk
  unfold t
  generalize (List.range 8).foldl (fun t k => throttle k (((List.range 8).map (tjOf s1)).getD k 0) t) s1 = s2 at hthrottled hthermal ⊢
  obtain ⟨hcores, hsensors⟩ := judgeOutlet_runs (refreshThrottled s2)
  refine ⟨?_, fun k hk => ?_⟩
  · rw [hsensors, (refreshThrottled_replanned s2).thermal, hthermal, show s1.thermal = _ from congrArg Prod.snd h1]
    rfl
  · have hafter : run (coreOf (judgeOutlet (refreshThrottled s2)) k) = run (coreOf s2 k) :=
      (coreOf_run hcores k).trans (congrArg run (coreOf_congr (refreshThrottled_cores s2) k))
    have h := (hthrottled k (List.mem_range.2 hk)).congr (coreOf_run hcores1 k).symm hafter
    exact ⟨h.tj.symm ▸ h.ceiling, h.powerDiv, fun ht => h.halted (h.tj ▸ ht)⟩

/-- The state in which a flow sample has been taken. -/
def flowTaken (f : Nat) (s : State) : State := { s with thermal := { s.thermal with
  sensors := s.thermal.sensors.set 0x32 (some (f : Int))
  flows := ((s.clk.localTime, f) :: s.thermal.flows).filter fun e => decide (s.clk.localTime ≤ e.1 + 5000000) } }

theorem flowSample_of_inRange {f : Nat} {s : State} (hon : hubOn s = true) (hf : f ≤ 6000) :
    flowSample (some f) s = if flowStops s f then coolantStop (flowTaken f s) else flowTaken f s := by
  have hrange : withinRange 0x32 (some (f : Int)) = some (f : Int) := by
    have h : (0 : Int) ≤ f ∧ (f : Int) ≤ 6000 := by omega
    simpa [withinRange, sensorRange, Option.filter] using h.2
  rw [flowSample, if_neg (by simp [hon])]
  simp only [Option.pure_def, Option.bind_eq_bind, Option.bind_some, Option.map_some, hrange]
  rfl

theorem holdFlow_changes (f : Nat) (s : State) : ∃ th, holdFlow f s = { s with thermal := th } := by
  unfold holdFlow
  split
  · exact ⟨s.thermal, rfl⟩
  · exact ⟨_, rfl⟩

/-- An orderly shutdown that begins. -/
theorem orderlyShutdown_of_governed {s : State} (hfree : s.thermal.drain = none) (hgoverned : flowGoverned s = true) :
    (orderlyShutdown s).thermal = { s.thermal with drain := some s.clk.localTime } ∧
      (orderlyShutdown s).dev = { s.dev with stopping := some (s.dev.stopping.getD .flow) } := by
  have hu := (signalDying_withdrawn 7 s).frame
  have hthermal : (signalDying 7 s).thermal = s.thermal := (congrArg State.thermal hu :)
  have hclk : (signalDying 7 s).clk = s.clk := (congrArg State.clk hu :)
  have hdev : (signalDying 7 s).dev = s.dev := (congrArg State.dev hu :)
  unfold orderlyShutdown
  rw [if_neg (by simp [hfree, hgoverned])]
  dsimp only [modDev]
  rw [hthermal, hdev, now, hclk]
  exact ⟨rfl, rfl⟩

/-- Settles O47, event by event. -/
theorem thermalControl : Obligations.ThermalControl := by
  unfold Obligations.ThermalControl
  intro s
  refine ⟨?sample, ?release, fun pi hon => congrArg Host.Outcome.next (if_pos hon), ?flow, ?cap⟩
  case sample =>
    intro raw hsclk htrip
    refine ⟨fun i hi hon hlent => ?_, fun hcool hstate => congrArg Host.Outcome.next ?_, fun hcool hon hserves hlen => ?_⟩
    · have hrun : sensorSample raw s = trip i (takeReadings raw s) := by
        rw [sensorSample, if_neg (by simp [hsclk])]
        dsimp only
        rw [if_neg (by simp [takeReadings, htrip]), hi]
        exact if_pos hon
      have hdying := signalDying_of_none_lent 2 (s := takeReadings raw s) hlent
      refine ⟨_, congrArg Host.Outcome.next hrun, rfl, ?_, ?_⟩
      · obtain ⟨a, v, e⟩ := sweep_changes .thermalAbort 0 .cutHub (bobPost 0x1D 0x001B i (signalDying 2 (takeReadings raw s)))
        unfold trip zeroAllKeys
        dsimp only
        rw [e]
        exact congrArg some (by unfold strongest; split <;> simp_all)
      · obtain ⟨a, v, e⟩ := sweep_changes .thermalAbort 0 .cutHub (bobPost 0x1D 0x001B i (signalDying 2 (takeReadings raw s)))
        unfold trip zeroAllKeys
        dsimp only
        rw [e]
        exact (congrArg State.cores hdying.frame :)
    · rw [sensorSample, if_neg (by simp [hsclk])]
      dsimp only
      rw [if_neg (by simp [takeReadings, htrip]), hcool]
      exact if_pos (hstate.elim .inl fun h => .inr (.inl h))
    · exact ⟨_, congrArg Host.Outcome.next (sensorSample_of_serving hsclk htrip hcool hon hserves), throttledReadings_cores raw hlen⟩
  case release =>
    intro k t0 hk hlen ht
    have hklen : k < s.cores.length := hlen.symm ▸ hk
    have hset (f : Core → Core) : coreOf (setDivider k f s) k = f (coreOf s k) :=
      (coreOf_congr (setDivider_cores k f s) k).trans (coreOf_modCore_same f hklen)
    have hsetlen (f : Core → Core) : k < (setDivider k f s).cores.length := by
      rw [setDivider_cores, modCore_length]
      exact hklen
    refine ⟨fun hhot hdue => ?_, fun hcold hdue => ?_, fun hearly => congrArg Host.Outcome.next ?_⟩
    · have hrun : throttleRelease k s = serveCore k (setDivider k (fun c => { c with ceiling := 6 }) s) := by
        rw [throttleRelease, ht]
        dsimp only
        rw [if_pos hhot]
        exact if_pos hdue
      refine ⟨_, congrArg Host.Outcome.next hrun, ?_, ?_⟩
      · rw [coreOf_serveCore (hsetlen _)]
      · rw [coreOf_serveCore (hsetlen _), hset]
    · have hrun : throttleRelease k s =
          refreshThrottled (setDivider k (fun c => { c with ceiling := faster c.ceiling, below := none }) s) := by
        rw [throttleRelease, ht]
        dsimp only
        rw [if_neg hcold]
        exact if_pos hdue
      refine ⟨_, congrArg Host.Outcome.next hrun, ?_, ?_⟩
      · rw [coreOf_congr (refreshThrottled_cores _) k, hset]
      · rw [coreOf_congr (refreshThrottled_cores _) k, hset]
    · rw [throttleRelease, ht]
      dsimp only
      split
      · exact if_neg fun h => Nat.not_le.2 hearly (Nat.le_trans (Nat.add_le_add_left (by decide) t0) h)
      · exact if_neg (Nat.not_le.2 hearly)
  case flow =>
    intro f hon hf
    have hrun := flowSample_of_inRange hon hf
    refine ⟨fun hflows => congrArg Host.Outcome.next (hrun.trans (if_neg (by simp [hflows]))), fun hstops hgoverned hfree => ?_⟩
    have hthermal := coolantStop_of_governed (s := flowTaken f s) hfree hgoverned
    refine ⟨_, congrArg Host.Outcome.next (hrun.trans (if_pos hstops)), ?_, ?_⟩
    · rw [hthermal]
    · rw [hthermal]
      rfl
  case cap =>
    intro f hon hserves
    have hstate : ¬(!hubOn s || s.dev.state == .halfMast || s.dev.state == .shutdown) = true := by
      have : s.dev.state = .ready ∨ s.dev.state = .degraded := by simpa [serving] using hserves
      rcases this with h | h <;> simp [hon, h]
    refine ⟨fun hflows => ?_, fun hlow hfree hdrain htrip => ?_⟩
    · have hrun : flowCapUpdate f s =
          holdFlow f (setHealth 2 (decide (capFor f < 1300000)) { s with power := { s.power with capMw := capFor f } }) := by
        rw [flowCapUpdate, if_neg hstate, if_neg (Nat.not_lt.2 hflows)]
      obtain ⟨a, b, al, e, -⟩ := setHealth_summarized 2 (decide (capFor f < 1300000)) { s with power := { s.power with capMw := capFor f } }
      have hbit := setHealth_bit (i := 2) (by decide) (decide (capFor f < 1300000)) { s with power := { s.power with capMw := capFor f } }
      rw [e] at hrun hbit
      obtain ⟨th, hheld⟩ := holdFlow_changes f { s with
        power := { s.power with capMw := capFor f }, arb := a, health := { s.health with bits := b, alert := al } }
      refine ⟨_, congrArg Host.Outcome.next (hrun.trans hheld), rfl, ?_, rfl, rfl⟩
      refine Eq.trans hbit (decide_eq_decide.2 ?_)
      unfold capFor
      split <;> omega
    · have hheld : holdFlow f s = s := by rw [holdFlow, hfree]
      have hgoverned : flowGoverned s = true := by simp [flowGoverned, hon, htrip, hserves]
      have hrun : flowCapUpdate f s = orderlyShutdown s := by
        rw [flowCapUpdate, if_neg hstate, if_pos hlow, hheld]
        exact if_neg (by simp [hfree])
      obtain ⟨hthermal, hdev⟩ := orderlyShutdown_of_governed hdrain hgoverned
      exact ⟨_, congrArg Host.Outcome.next hrun, by rw [hthermal], by rw [hdev]⟩

end Sys2Proof.Machine

namespace Sys2Proof.Machine

/-! ### Drain and hold (12 R381, R382) -/

theorem setDevState_state (d : DevState) (s : State) : (setDevState d s).dev.state = d := by
  obtain ⟨since, x, b, al, e⟩ := setDevState_changes d s
  rw [e]

theorem refreshService_changes (s : State) : ∃ d x b h, refreshService s = { s with dev := d, tx := x, bob := b, health := h } ∧
    (serving s = true → d.state = serviceState s) := by
  unfold refreshService
  split
  · obtain ⟨since, x, b, al, e⟩ := setDevState_changes (serviceState s) s
    exact ⟨_, x, b, _, e, fun _ => rfl⟩
  · next h => exact ⟨s.dev, s.tx, s.bob, s.health, rfl, fun hs => absurd hs h⟩

/-! ### Margin windows (12 R385) -/

theorem le_foldl_max {v : Nat} {l : List Nat} (h : v ∈ l) (a : Nat) : v ≤ l.foldl max a := by
  have hstart : ∀ (l : List Nat) (a : Nat), a ≤ l.foldl max a := fun l => by
    induction l with
    | nil => exact fun a => Nat.le_refl a
    | cons b l ih => exact fun a => (Nat.le_max_left a b).trans (ih _)
  induction l generalizing a with
  | nil => cases h
  | cons b l ih =>
    rcases List.mem_cons.1 h with rfl | h
    · exact (Nat.le_max_right a v).trans (hstart l _)
    · exact ih h _

theorem marginClass_le_worstClass {v : Int} {l : List Int} (h : v ∈ l) (measure : Nat) :
    marginClass (thresholds.getD measure (0, 0)) v ≤ worstClass measure l :=
  le_foldl_max (List.mem_map_of_mem h) 0

/-- A value below WARN is of class 1 at least, one below ACT of class 2. -/
theorem marginClass_of_lt {warn act : Int} (hle : act ≤ warn) {v : Int} :
    (v < warn → 1 ≤ marginClass (warn, act) v) ∧ (v < act → 2 ≤ marginClass (warn, act) v) := by
  unfold marginClass
  dsimp only
  refine ⟨fun h => ?_, fun h => ?_⟩
  · split
    · decide
    · exact Nat.le_refl 1
  · rw [if_pos h]

/-- The bits of a margin class are set, and the marks that keep them through the hour. -/
theorem markMargin_marks (cls : Nat) (s : State) : ∃ a h, markMargin cls s = { s with arb := a, health := h } ∧
    (1 ≤ cls → h.bits.getLsbD 7 = true ∧ h.margins.warnDirty = true) ∧
    (2 ≤ cls → h.bits.getLsbD 8 = true ∧ h.margins.actDirty = true) := by
  unfold markMargin
  extract_lets _ _ marked warned
  have hset {i : Nat} (hi : i < 11) {p : Prop} [Decidable p] (t : State) :
      Summarized (fun j => j = i ∨ j = 11) t (if p then setHealth i true t else t) ∧
        (p → (if p then setHealth i true t else t).health.bits.getLsbD i = true) := by
    split
    · exact ⟨setHealth_summarized .., fun _ => setHealth_bit hi ..⟩
    · next hp => exact ⟨.refl _ t, fun h => absurd h hp⟩
  obtain ⟨h7, hbit7⟩ := hset (i := 7) (by decide) (p := 1 ≤ cls) marked
  obtain ⟨h8, hbit8⟩ := hset (i := 8) (by decide) (p := 2 ≤ cls) warned
  obtain ⟨a, h, e⟩ := (h7.arbHealth.trans h8.arbHealth)
  have hmargins := h8.margins.trans h7.margins
  rw [e] at hmargins hbit8 h8 ⊢
  refine ⟨a, h, rfl, fun hc => ⟨(h8.bit (by decide)).trans (hbit7 hc), ?_⟩, fun hc => ⟨hbit8 hc, ?_⟩⟩
  · rw [show h.margins = _ from hmargins]
    simp [marked, hc]
  · rw [show h.margins = _ from hmargins]
    simp [marked, hc]

/-- The hour's end leaves the bits that its windows have marked. -/
theorem closeHour_marks (s : State) : ∃ a h, closeHour s = { s with arb := a, health := h } ∧
    (s.health.margins.warnDirty = true → h.bits.getLsbD 7 = s.health.bits.getLsbD 7) ∧
    (s.health.margins.actDirty = true → h.bits.getLsbD 8 = s.health.bits.getLsbD 8) := by
  unfold closeHour
  extract_lets m warned acted _ _
  split
  · exact ⟨s.arb, s.health, rfl, fun _ => rfl, fun _ => rfl⟩
  · have h7 : Summarized (fun j => m.warnDirty = false ∧ j = 7 ∨ j = 11) s warned := by
      unfold warned
      split
      · exact .refl _ s
      · next h => exact (setHealth_summarized 7 false s).mono fun j hj => hj.imp (⟨Bool.eq_false_iff.2 h, ·⟩) id
    have h8 : Summarized (fun j => m.actDirty = false ∧ j = 8 ∨ j = 11) warned acted := by
      unfold acted
      split
      · exact .refl _ warned
      · next h => exact (setHealth_summarized 8 false warned).mono fun j hj => hj.imp (⟨Bool.eq_false_iff.2 h, ·⟩) id
    obtain ⟨a, h, e⟩ := h7.arbHealth.trans h8.arbHealth
    have hset (g : Health) : { acted with health := g } = { s with arb := a, health := g } :=
      (congrArg (fun x : State => { x with health := g }) e :)
    refine ⟨a, _, hset _, fun hd => ?_, fun hd => ?_⟩
    · exact (h8.bit (by simp)).trans (h7.bit (by simp [m, hd]))
    · exact (h8.bit (by simp [m, hd])).trans (h7.bit (by simp))

/-- What a 1 s window keeps of a core. -/
def windowCore (supply slack : List Nat) (k : Nat) (c : Core) : Core :=
  { c with supplyMv := supply.getD k c.supplyMv, slackPs := slack.getD k c.slackPs, stretchLast := c.stretches, stretches := 0 }

theorem marginWindow_of_on {s : State} (hon : hubOn s = true) (supply slack : List Nat) :
    let t := (List.range 8).foldl (fun s k => modCore k (windowCore supply slack k) s) s
    marginWindow supply slack s = (let u := markMargin (max s.health.margins.optical
        (max (worstClass 0 (t.cores.map fun c => (c.supplyMv : Int))) (worstClass 1 (t.cores.map fun c => (c.slackPs : Int))))) t
      closeHour { u with health := { u.health with margins := { u.health.margins with optical := 0 } } }) := by
  intro t
  have ht : t.health.margins.optical = s.health.margins.optical :=
    foldl_keeps (fun s : State => s.health.margins.optical) (f := fun s k => modCore k (windowCore supply slack k) s)
      (fun _ _ => rfl) _ _
  rw [marginWindow, if_neg (by simp [hon]), ← ht]
  rfl

theorem marginWindow_marks {supply slack : List Nat} {s : State} (hon : hubOn s = true) (hlen : s.cores.length = 8)
    (hsupply : supply.length = 8) (hslack : slack.length = 8) :
    ∃ a h cs, marginWindow supply slack s = { s with arb := a, health := h, cores := cs } ∧
      (∀ k : Nat, k < 8 → cs.getD k Core.reset = windowCore supply slack k (coreOf s k)) ∧
      ((∃ v ∈ supply, v < 705) ∨ (∃ v ∈ slack, v < 25) → h.bits.getLsbD 7 = true) ∧
      ((∃ v ∈ supply, v < 690) ∨ (∃ v ∈ slack, v < 10) → h.bits.getLsbD 8 = true) := by
  have hrun := marginWindow_of_on hon supply slack
  obtain ⟨cs, hcs⟩ : ∃ cs, (List.range 8).foldl (fun s k => modCore k (windowCore supply slack k) s) s = { s with cores := cs } :=
    List.foldlRecOn _ _ (motive := fun t : State => ∃ cs, t = { s with cores := cs }) ⟨_, rfl⟩ fun t ht k _ => by
      obtain ⟨cs, rfl⟩ := ht
      exact ⟨_, rfl⟩
  obtain ⟨hlength, hcores⟩ := coreOf_foldl (g := fun s k => modCore k (windowCore supply slack k) s) (f := windowCore supply slack)
    (fun _ _ => rfl) (List.nodup_range (n := 8)) s
  rw [hcs] at hrun hlength hcores
  have hcore (k : Nat) (hk : k < 8) : cs.getD k Core.reset = windowCore supply slack k (coreOf s k) :=
    (hcores k (hlen.symm ▸ hk)).trans (if_pos (List.mem_range.2 hk))
  have hmem {k : Nat} (hk : k < 8) : windowCore supply slack k (coreOf s k) ∈ cs := by
    rw [← hcore k hk, List.getD_eq_getElem _ _ (by rw [show cs.length = 8 from hlength.trans hlen]; exact hk)]
    exact List.getElem_mem _
  -- a value below a threshold is some core's, and so counts in the worst class
  have hvalue {l : List Nat} (hl : l.length = 8) {v : Nat} (hv : v ∈ l) : ∃ k, k < 8 ∧ ∀ d, l.getD k d = v := by
    obtain ⟨k, hk, rfl⟩ := List.getElem_of_mem hv
    exact ⟨k, hl ▸ hk, fun d => List.getD_eq_getElem l d hk⟩
  have hworst0 {v : Nat} (hv : v ∈ supply) : marginClass (705, 690) v ≤ worstClass 0 (cs.map fun c => (c.supplyMv : Int)) := by
    obtain ⟨k, hk, hget⟩ := hvalue hsupply hv
    exact marginClass_le_worstClass (List.mem_map.2 ⟨_, hmem hk, congrArg Int.ofNat (hget _)⟩) 0
  have hworst1 {v : Nat} (hv : v ∈ slack) : marginClass (25, 10) v ≤ worstClass 1 (cs.map fun c => (c.slackPs : Int)) := by
    obtain ⟨k, hk, hget⟩ := hvalue hslack hv
    exact marginClass_le_worstClass (List.mem_map.2 ⟨_, hmem hk, congrArg Int.ofNat (hget _)⟩) 1
  dsimp only at hrun
  generalize hcls : max s.health.margins.optical (max (worstClass 0 (cs.map fun c => (c.supplyMv : Int)))
    (worstClass 1 (cs.map fun c => (c.slackPs : Int)))) = cls at hrun
  have hclass0 {v n : Nat} (hv : v ∈ supply) (hn : n ≤ marginClass (705, 690) v) : n ≤ cls := by
    have := hworst0 hv
    omega
  have hclass1 {v n : Nat} (hv : v ∈ slack) (hn : n ≤ marginClass (25, 10) v) : n ≤ cls := by
    have := hworst1 hv
    omega
  obtain ⟨a, h, hmarked, hwarn, hact⟩ := markMargin_marks cls { s with cores := cs }
  rw [hmarked] at hrun
  obtain ⟨b, g, hclosed, h7, h8⟩ := closeHour_marks { s with
    cores := cs, arb := a, health := { h with margins := { h.margins with optical := 0 } } }
  refine ⟨b, g, cs, hrun.trans hclosed, hcore, fun hlow => ?_, fun hlow => ?_⟩
  · have hone : 1 ≤ cls := by
      rcases hlow with ⟨v, hv, hlt⟩ | ⟨v, hv, hlt⟩
      · exact hclass0 hv ((marginClass_of_lt (by decide)).1 (by omega))
      · exact hclass1 hv ((marginClass_of_lt (by decide)).1 (by omega))
    exact (h7 (hwarn hone).2).trans (hwarn hone).1
  · have htwo : 2 ≤ cls := by
      rcases hlow with ⟨v, hv, hlt⟩ | ⟨v, hv, hlt⟩
      · exact hclass0 hv ((marginClass_of_lt (by decide)).2 (by omega))
      · exact hclass1 hv ((marginClass_of_lt (by decide)).2 (by omega))
    exact (h8 (hact htwo).2).trans (hact htwo).1

/-- Settles O48, event by event. -/
theorem coolantAndMargins : Obligations.CoolantAndMargins := by
  unfold Obligations.CoolantAndMargins
  intro s
  refine ⟨?drain, ?hold, ?droop, ?window, ?optical⟩
  case drain =>
    intro t0 ht hon
    refine ⟨fun hover => ?_, fun hnot => congrArg Host.Outcome.next ?_⟩
    · refine ⟨drainEnd s, rfl, ?_, ?_, ?_⟩ <;> rw [drainEnd, ht] <;> dsimp only <;> rw [if_pos (by simp [hon, hover])]
      exact setDevState_state ..
    · rw [drainEnd, ht]
      exact if_neg (by simp [hnot])
  case hold =>
    intro h t0 hheld hon
    refine ⟨fun hok hdrain hlate hwithin => ?_, fun hnever => congrArg Host.Outcome.next ?_, fun hdue => congrArg Host.Outcome.next ?_,
      fun hearly => congrArg Host.Outcome.next ?_⟩
    · have hrun : holdEnd s = refreshService { s with thermal := { s.thermal with hold := none } } := by
        rw [holdEnd, hheld]
        dsimp only
        rw [hok]
        exact if_pos ⟨hon, hdrain, hlate, hwithin⟩
      obtain ⟨d, x, b, g, e, hstate⟩ := refreshService_changes { s with thermal := { s.thermal with hold := none } }
      exact ⟨_, congrArg Host.Outcome.next (hrun.trans e), rfl, rfl, hstate⟩
    · rw [holdEnd, hheld]
      dsimp only
      rw [hnever]
    · rw [holdTimeout, hheld]
      exact if_pos hdue
    · rw [holdTimeout, hheld]
      exact if_neg (Nat.not_le.2 hearly)
  case droop =>
    intro k hon hserves
    exact congrArg Host.Outcome.next (if_pos ⟨hon, by simp [hserves]⟩)
  case window =>
    intro supply slack hon hlen hsupply hslack
    obtain ⟨a, h, cs, hrun, hcore, hwarn, hact⟩ := marginWindow_marks hon hlen hsupply hslack
    refine ⟨_, congrArg Host.Outcome.next hrun, fun k hk => ?_, hwarn, hact, rfl⟩
    have hget {l : List Nat} (hl : l.length = 8) (d : Nat) : l.getD k d = l.getD k 0 := by
      rw [List.getD_eq_getElem l d (hl.symm ▸ hk), List.getD_eq_getElem l 0 (hl.symm ▸ hk)]
    rw [show coreOf { s with arb := a, health := h, cores := cs } k = _ from hcore k hk]
    exact ⟨hget hsupply _, hget hslack _, rfl, rfl⟩
  case optical =>
    intro tx rx hon hoptics
    exact ⟨_, congrArg Host.Outcome.next (if_pos (by simp [hon, hoptics])), rfl, rfl, rfl, rfl⟩

end Sys2Proof.Machine

namespace Sys2Proof.Machine

/-! ### A channel that leaves service while work is lent (08 R253, 10 R308, R322) -/

/-- A RUNNING request that the active has lent to its partner, of sequence 0. -/
def lentRequest : Req :=
  { gen := 1, st := .running, opcode := 0x0201, cls := 0, tenant := 0, mirror := false, account := 0, ring := 0, order := 0,
    ordered := false, queue := 0, tag := 0, seqNo := 0, fence := none, pattern := 0, patHandle := 0, applique := none,
    deadline := none, doorbell := 0, guard := 0, hemPolicy := 0, minHem := 0, deepest := 0, charged := 0, used := 0, counted := 0,
    number := 0, seqIdx := some 0, baseLen := 0, inUnits := 0, genTokens := 0, cands := 0, verify := none, adapt := none,
    keyGen := 0, bufFlags := 0, inCrc := 0, inOk := true, outAddr := 0, ioAddr := 0, picture := none, cores := [], result := none,
    final := none, stopped := false, ran := false, partner := false, fast := false, table := false, empties := 0, lent := true }

/-- An OPEN sequence of which nothing is committed. -/
def emptySequence : Sequence :=
  { gen := 1, pattern := 0, tenant := 0, applique := none, st := .open, committed := 0, prov := none, mirrored := false,
    closer := none, freed := 0 }

/-- The active of an ACTIVE/STANDBY pair: its one page, in half 0, is reserved by the lent request for that sequence. -/
def lentState : State :=
  { State.reset with
    reqs := [(0, lentRequest)], seqs := [(0, emptySequence)]
    pages := [(0, { tenant := 0, epoch := 0, parity := 0, restitching := false, use := .kv 0 0 0 false false })]
    pair := { Pair.reset with mode := .activeStandby, role := .active } }

/-- The channel's loss makes the module DYING first; that calls the lent request back, whose reserved page goes with it, so that the sequence
has no page left in the half when the sequences to break are chosen. -/
theorem phyFault_lentState : ((tget (phyFault 0 lentState).seqs 0).map (·.st)) = some .open := by decide

/-- Refutes O49: in `lentState` sequence 0 has a page in half 0, and channel 0 leaves service without breaking it. -/
theorem not_channels : ¬ Obligations.Channels := by
  unfold Obligations.Channels
  intro h
  obtain ⟨-, -, -, -, hleaves, -⟩ := h 0 lentState
  obtain ⟨t, ht, -, -, -, hbroken⟩ := hleaves (.channelPhyFault 0) (by decide) (.inr rfl)
  obtain rfl : phyFault 0 lentState = t := Host.Outcome.next.inj ht
  have hst := hbroken 0 emptySequence rfl (by decide) (by decide)
  rw [phyFault_lentState] at hst
  cases hst

end Sys2Proof.Machine

namespace Sys2Proof.Machine

/-! ### Halves and the rotation of patterns (03 R113, 05 R169) -/

/-- A half but for its pricking store. -/
def bare (x : Half) : Half := { x with pricks := [] }

theorem stockHalves_bare (s : State) : (stockHalves s).halves.map bare = s.halves.map bare := by
  have hone (h : Nat) (x : Half) : bare (stockPricks s h x) = bare x := by
    unfold stockPricks
    split <;> rfl
  unfold stockHalves
  rw [List.map_map]
  refine (List.map_congr_left fun e _ => hone e.2 e.1).trans ?_
  rw [← Function.comp_def bare Prod.fst, ← List.map_map, List.zipIdx_map_fst]

theorem loadWanted_bare (s : State) : (loadWanted s).halves.map bare = s.halves.map bare := by
  unfold loadWanted
  extract_lets want
  rw [show (migrateParts _).halves = _ from (congrArg State.halves (migrateParts_frame _) :), stockHalves_bare]
  refine foldl_keeps (fun x : State => x.halves.map bare) (fun t e => ?_) _ _
  split <;> rfl

theorem rotate_bare (s : State) : (rotate s).halves.map bare = s.halves.map bare := by
  unfold rotate startSlice
  split
  · split
    · exact loadWanted_bare _
    · exact loadWanted_bare s
  · exact loadWanted_bare _

theorem faulted_of_bare {s t : State} (h : t.halves.map bare = s.halves.map bare) :
    t.halves.map Half.faulted = s.halves.map Half.faulted := by
  have hcomp (l : List Half) : l.map Half.faulted = (l.map bare).map Half.faulted := by
    rw [List.map_map]
    rfl
  rw [hcomp, h, ← hcomp]

theorem halfOf_bare {s t : State} (h : t.halves.map bare = s.halves.map bare) (k : Nat) : bare (halfOf t k) = bare (halfOf s k) := by
  have hget (l : List Half) : bare (l.getD k Half.reset) = (l.map bare).getD k (bare Half.reset) := by
    simp [List.getD_eq_getElem?_getD]
  exact (hget _).trans ((congrArg (fun l : List Half => l.getD k (bare Half.reset)) h).trans (hget _).symm)

theorem halfOf_faulted {s t : State} (h : t.halves.map Half.faulted = s.halves.map Half.faulted) (k : Nat) :
    (halfOf t k).faulted = (halfOf s k).faulted := by
  have hget (l : List Half) : (l.getD k Half.reset).faulted = (l.map Half.faulted).getD k Half.reset.faulted := by
    simp [List.getD_eq_getElem?_getD]
  exact (hget _).trans ((congrArg (fun l : List Bool => l.getD k Half.reset.faulted) h).trans (hget _).symm)

theorem halfOf_modHalf_same {k : Nat} (f : Half → Half) {s : State} (hk : k < s.halves.length) :
    halfOf (modHalf k f s) k = f (halfOf s k) := by
  simp [halfOf, modHalf, List.getD_eq_getElem?_getD, hk]

theorem halfOf_modHalf_other {j k : Nat} (f : Half → Half) (s : State) (h : j ≠ k) : halfOf (modHalf k f s) j = halfOf s j := by
  simp [halfOf, modHalf, List.getD_eq_getElem?_getD, List.getElem?_set_ne (Ne.symm h)]

/-! ### What a half's loss keeps -/

/-- The state of the module's parts: DEVICE_STATE and its like, the halves' faults, and the summary but for EVENT_BACKLOG. -/
structure Standing (s t : State) : Prop where
  dev : t.dev = s.dev
  faulted : t.halves.map Half.faulted = s.halves.map Half.faulted
  bits : ∀ j, j ≠ 11 → t.health.bits.getLsbD j = s.health.bits.getLsbD j

theorem Standing.refl (s : State) : Standing s s := ⟨rfl, rfl, fun _ _ => rfl⟩

theorem Standing.trans {s t u : State} (h : Standing s t) (g : Standing t u) : Standing s u :=
  ⟨g.dev.trans h.dev, g.faulted.trans h.faulted, fun j hj => (g.bits j hj).trans (h.bits j hj)⟩

theorem Standing.foldl {α : Type} {f : State → α → State} (h : ∀ s x, Standing s (f s x)) (l : List α) (s : State) :
    Standing s (l.foldl f s) :=
  List.foldlRecOn l f (motive := Standing s) (.refl s) fun t ht x _ => ht.trans (h t x)

theorem Withdrawn.standing {s t : State} (h : Withdrawn s t) : Standing s t := ⟨(congrArg State.dev h.frame :), h.halves, h.bits⟩

theorem Answered.standing {s t : State} (h : Answered s t) : Standing s t := h.withdrawn.standing

theorem rotate_standing (s : State) : Standing s (rotate s) :=
  ⟨(congrArg State.dev (rotate_frame s) :), faulted_of_bare (rotate_bare s),
    fun j _ => (congrArg (fun x : State => x.health.bits.getLsbD j) (rotate_frame s) :)⟩

theorem refuse_standing (cid : Nat) (st : Status) (d : Nat) (s : State) : Standing s (refuse cid st d s) :=
  (finish_answered ..).standing

theorem refuseAll_standing (l : List Nat) (st : Status) (d : Nat) (s : State) : Standing s (refuseAll l st d s) :=
  .foldl (fun t c => refuse_standing c st d t) l s

theorem endReq_answered (k : Nat) (st : Status) (d : Nat) (s : State) : Answered s (endReq k st d s) := by
  unfold endReq
  split
  · exact .refl s
  · exact submit_answered ..

theorem stopReqs_standing (l : List Nat) (st : Status) (d : Nat) (s : State) : Standing s (stopReqs l st d s) :=
  .foldl (fun t k => (modReq_withdrawn k _ t).standing.trans (endReq_answered k st d _).standing) l s

theorem freePagesOf_standing (p : PageUse → Bool) (s : State) : Standing s (freePagesOf p s) := (freePagesOf_withdrawn p s).standing


theorem drainPrevious_standing (i : Nat) (s : State) : Standing s (drainPrevious i s) := by
  unfold drainPrevious
  split
  · exact .refl s
  · split
    · exact .refl s
    · split
      · exact .refl s
      · refine Standing.trans ?_ (rotate_standing _)
        refine Standing.trans ?_ (postEvent_summarized ..).answered.standing
        exact Standing.trans (t := modApp i _ s) ⟨rfl, rfl, fun _ _ => rfl⟩ (freePagesOf_standing ..)

theorem freeRetired_standing (i : Nat) (s : State) : Standing s (freeRetired i s) := by
  unfold freeRetired
  split
  · exact .refl s
  · next a _ =>
    split
    · refine Standing.trans ?_ (rotate_standing _)
      refine Standing.trans ?_ (postEvent_summarized ..).answered.standing
      exact Standing.trans (t := { s with apps := tdel s.apps i, appGens := tset s.appGens i (nextGen 62 a.gen) })
        ⟨rfl, rfl, fun _ _ => rfl⟩ (freePagesOf_standing ..)
    · exact .refl s

theorem drainApplique_standing (i : Nat) (s : State) : Standing s (drainApplique i s) :=
  (drainPrevious_standing i s).trans (freeRetired_standing i _)

theorem releasePlace_standing (t : Target) (i : Nat) (s : State) : Standing s (releasePlace t i s) := by
  unfold releasePlace
  split
  · exact .refl s
  · split
    · refine Standing.trans ?_ (drainApplique_standing i _)
      refine Standing.trans ?_ (rotate_standing _)
      exact Standing.trans (t := modApp i _ s) ⟨rfl, rfl, fun _ _ => rfl⟩ (freePagesOf_standing ..)
    · exact .refl s

theorem dropLoad_standing (i : Nat) (s : State) : Standing s (dropLoad i s) := by
  unfold dropLoad
  split
  · exact .refl s
  · split
    · refine Standing.trans ?_ (rotate_standing _)
      exact Standing.trans (t := { s with apps := tdel s.apps i }) ⟨rfl, rfl, fun _ _ => rfl⟩ (freePagesOf_standing ..)
    · split
      · exact releasePlace_standing ..
      · exact .refl s

theorem endHalfCmds_standing (h : Nat) (evict : Bool) (st : Status) (d : Nat) (s : State) : Standing s (endHalfCmds h evict st d s) := by
  unfold endHalfCmds
  extract_lets cids loads stop t
  have ht : Standing s t := ⟨rfl, rfl, fun _ _ => rfl⟩
  exact (ht.trans (.foldl (fun u i => dropLoad_standing i u) loads t)).trans (refuseAll_standing ..)

theorem endHalfVideo_standing (h : Nat) (st : Status) (d : Nat) (s : State) : Standing s (endHalfVideo h st d s) := by
  unfold endHalfVideo
  extract_lets feed feeds frames idx t
  exact Standing.trans (t := t) (refuseAll_standing ..) ⟨rfl, rfl, fun _ _ => rfl⟩

theorem tellSeq_told (i : Nat) (s : State) : Told s (tellSeq i s) := by
  unfold tellSeq
  split
  · split
    · exact tell_told ..
    · exact .refl s
  · exact .refl s

theorem breakSeq_standing (i : Nat) (s : State) : Standing s (breakSeq i s) := by
  unfold breakSeq
  split
  · exact .refl s
  · split
    · exact .refl s
    · exact (modSeq_withdrawn i _ s).standing.trans (tellSeq_told i _).answered.standing

theorem lostApplique_standing (i : Nat) (s : State) : Standing s (lostApplique i s) := by
  unfold lostApplique
  split
  · exact .refl s
  · next a _ =>
    extract_lets t
    have ht : Standing s t := Standing.trans (t := { s with apps := tdel s.apps i, appGens := tset s.appGens i (nextGen 62 a.gen) })
      ⟨rfl, rfl, fun _ _ => rfl⟩ (freePagesOf_standing ..)
    split
    · exact ht
    · exact ht.trans (postEvent_summarized ..).answered.standing

theorem lostPattern_standing (pi : Nat) (s : State) : Standing s (lostPattern pi s) := by
  unfold lostPattern
  extract_lets mine t
  have ht : Standing s t := .foldl (fun u i => lostApplique_standing i u) _ s
  have hm : Standing t (modPat pi unstage t) := ⟨rfl, rfl, fun _ _ => rfl⟩
  exact ((ht.trans hm).trans (freePagesOf_standing ..)).trans ⟨rfl, rfl, fun _ _ => rfl⟩

theorem closeStream_standing (i cid : Nat) (cancel : Bool) (s : State) : Standing s (closeStream i cid cancel s) := by
  unfold closeStream
  split
  · exact .refl s
  · extract_lets running clear t
    have ht : Standing s t := ⟨rfl, rfl, fun _ _ => rfl⟩
    split
    · exact ht.trans (refuseAll_standing ..)
    · exact ht

theorem finishEncoder_standing (i : Nat) (s : State) : Standing s (finishEncoder i s) := by
  unfold finishEncoder
  split
  · exact .refl s
  · next e _ =>
    split
    · exact .refl s
    · split
      · exact .refl s
      · refine Standing.trans ?_ (finish_answered ..).standing
        refine Standing.trans ?_ (retireKeys_withdrawn ..).standing
        exact Standing.trans (t := { s with encs := tdel s.encs i, encGens := tset s.encGens i (nextGen 65535 e.gen) })
          ⟨rfl, rfl, fun _ _ => rfl⟩ (freePagesOf_standing ..)

theorem closeEncoder_standing (i cid : Nat) (cancel : Bool) (s : State) : Standing s (closeEncoder i cid cancel s) := by
  unfold closeEncoder
  split
  · exact .refl s
  · extract_lets waiting t
    have ht : Standing s t := ⟨rfl, rfl, fun _ _ => rfl⟩
    refine Standing.trans ?_ (finishEncoder_standing i _)
    split
    · exact ht.trans (refuseAll_standing ..)
    · exact ht

theorem modCore_standing (k : Nat) (f : Core → Core) (s : State) : Standing s (modCore k f s) := ⟨rfl, rfl, fun _ _ => rfl⟩

/-- The objects that a half held are gone: sequences, patterns, streams and encoders, and what its cores held. -/
def loseObjects (h : Nat) (s : State) : State :=
  let s := (halfSeqs s h).foldl (fun s i => breakSeq i s) s
  let gone := (s.pats.filter fun e => usesHalf e.2 h && (e.2.staged || resident e.2)).map Prod.fst
  let s := gone.foldl (fun s i => lostPattern i s) s
  let s := (halfStreams s h).foldl (fun s i => closeStream i 0 true s) s
  let s := (halfEncs s h).foldl (fun s i => closeEncoder i 0 true s) s
  (List.range 4).foldl (fun s k => modCore (4 * h + k) Core.wiped s) s

theorem loseObjects_standing (h : Nat) (s : State) : Standing s (loseObjects h s) := by
  unfold loseObjects
  extract_lets a gone b c d
  have ha : Standing s a := .foldl (fun u i => breakSeq_standing i u) _ s
  have hb : Standing a b := .foldl (fun u i => lostPattern_standing i u) _ a
  have hc : Standing b c := .foldl (fun u i => closeStream_standing i 0 true u) _ b
  have hd : Standing c d := .foldl (fun u i => closeEncoder_standing i 0 true u) _ c
  exact (((ha.trans hb).trans hc).trans hd).trans (.foldl (fun u k => modCore_standing (4 * h + k) Core.wiped u) _ d)

/-- What a half held is gone with its stores, its pages and its bytes. -/
theorem loseHalf_eq (h : Nat) (s : State) : ∃ b : BitVec 128, loseHalf h s =
    { modHalf h (fun x => { x with store := [], hot := [], diagonal := [], pricks := [], window := false }) (loseObjects h s) with
      pages := (loseObjects h s).pages.filter fun e => decide (e.1 / 2 ^ 21 ≠ h)
      mem := { (loseObjects h s).mem with
        data := (loseObjects h s).mem.data.filter fun e => decide (e.1 / 2 ^ 37 ≠ h), inService := b } } := ⟨_, rfl⟩

/-- A half at fault whose commands and requests have ended, before what it held is lost. -/
def halfEnded (h : Nat) (s : State) : State :=
  let s := signalDying 6 s
  let s := setHealth (5 + h) true (modHalf h (fun x => { x with faulted := true }) s)
  let s := stopReqs (halfReqs s h) .stateLost 4 s
  endHalfVideo h .stateLost 4 (endHalfCmds h false .stateLost 4 s)

theorem halfFault_of_sound {h : Nat} {s : State} (hs : (halfOf s h).faulted = false) :
    halfFault h s = rotate (refreshService (loseHalf h (halfEnded h s))) :=
  if_neg (Bool.eq_false_iff.1 hs)

theorem halfEnded_half {h : Nat} {s : State} (hh : h < 2) (hlen : s.halves.length = 2) :
    (halfEnded h s).dev = s.dev ∧ (halfOf (halfEnded h s) h).faulted = true ∧
      (∀ j, j ≠ h → (halfOf (halfEnded h s) j).faulted = (halfOf s j).faulted) ∧
      (halfEnded h s).halves.length = 2 ∧ (halfEnded h s).health.bits.getLsbD (5 + h) = true := by
  unfold halfEnded
  extract_lets a b c
  have ha : Standing s a := (signalDying_withdrawn 6 s).standing
  have hblen : a.halves.length = 2 := by
    have := congrArg List.length ha.faulted
    simpa [hlen] using this
  obtain ⟨x, y, z, hb, -⟩ := setHealth_summarized (5 + h) true (modHalf h (fun x => { x with faulted := true }) a)
  have hb : b = _ := hb
  have hbbit : b.health.bits.getLsbD (5 + h) = true := setHealth_bit (Nat.lt_of_lt_of_le (Nat.add_lt_add_left hh 5) (by decide)) ..
  have hbc : Standing b c := stopReqs_standing ..
  have hcend := (endHalfCmds_standing h false .stateLost 4 c).trans (endHalfVideo_standing h .stateLost 4 _)
  have hbend := hbc.trans hcend
  generalize endHalfVideo h .stateLost 4 (endHalfCmds h false .stateLost 4 c) = e at hbend
  have hbhalves : b.halves = (modHalf h (fun x => { x with faulted := true }) a).halves := (congrArg State.halves hb :)
  have hbof (j : Nat) : (halfOf b j) = halfOf (modHalf h (fun x => { x with faulted := true }) a) j :=
    congrArg (fun l : List Half => l.getD j Half.reset) hbhalves
  refine ⟨hbend.dev.trans ((congrArg State.dev hb :).trans ha.dev), ?_, fun j hj => ?_, ?_, ?_⟩
  · rw [halfOf_faulted hbend.faulted, hbof, halfOf_modHalf_same _ (hblen ▸ hh)]
  · rw [halfOf_faulted hbend.faulted, hbof, halfOf_modHalf_other _ _ hj, halfOf_faulted ha.faulted]
  · have := congrArg List.length hbend.faulted
    rw [List.length_map, List.length_map, hbhalves] at this
    exact this.trans ((List.length_set ..).trans hblen)
  · rw [hbend.bits _ (by omega), hbbit]


theorem refreshService_bits (s : State) : (refreshService s).health.bits = s.health.bits := by
  unfold refreshService
  split
  · obtain ⟨since, x, b, al, e⟩ := setDevState_changes (serviceState s) s
    rw [e]
  · rfl

/-- A half without its stores. -/
def emptied (x : Half) : Half := { x with store := [], hot := [], diagonal := [], pricks := [], window := false }

/-- A state whose half has lost its stores, its pages and its bytes. -/
def withoutHalf (h : Nat) (b : BitVec 128) (s : State) : State :=
  { modHalf h emptied s with
    pages := s.pages.filter fun e => decide (e.1 / 2 ^ 21 ≠ h)
    mem := { s.mem with data := s.mem.data.filter fun e => decide (e.1 / 2 ^ 37 ≠ h), inService := b } }

theorem loseHalf_withoutHalf (h : Nat) (s : State) : ∃ b, loseHalf h s = withoutHalf h b (loseObjects h s) := loseHalf_eq h s

/-- The module's service after the loss: the half's fault is what puts it in DEGRADED. -/
theorem withoutHalf_settled {h : Nat} {b : BitVec 128} {s t : State} (hh : h < s.halves.length)
    (hs : (halfOf s h).faulted = true) (ht : t = rotate (refreshService (withoutHalf h b s))) :
    (halfOf t h).faulted = true ∧ (halfOf t h).store = [] ∧ (∀ j, j ≠ h → (halfOf t j).faulted = (halfOf s j).faulted) ∧
      t.pages = (withoutHalf h b s).pages ∧ t.mem.data = (withoutHalf h b s).mem.data ∧ t.health.bits = s.health.bits ∧
      (serving s = true → t.dev.state = .degraded) := by
  obtain ⟨d, x, bob, g, e, hdev⟩ := refreshService_changes (withoutHalf h b s)
  have hbits := refreshService_bits (withoutHalf h b s)
  have hhalf (j : Nat) : bare (halfOf t j) = bare (halfOf (modHalf h emptied s) j) := by
    rw [ht, halfOf_bare (rotate_bare _) j, e]
    rfl
  have hsame := (hhalf h).trans (congrArg bare (halfOf_modHalf_same emptied hh))
  refine ⟨(congrArg Half.faulted hsame :).trans hs, (congrArg Half.store hsame :), fun j hj => ?_, ?_, ?_, ?_, fun hserves => ?_⟩
  · exact (congrArg Half.faulted (hhalf j) :).trans (congrArg Half.faulted (halfOf_modHalf_other emptied s hj) :)
  · rw [ht, show (rotate _).pages = _ from (congrArg State.pages (rotate_frame _) :), e]
  · rw [ht, show (rotate _).mem = _ from (congrArg State.mem (rotate_frame _) :), e]
  · rw [ht, show (rotate _).health = _ from (congrArg State.health (rotate_frame _) :), hbits]
    rfl
  · have himpaired : impaired (withoutHalf h b s) = true := by
      have hlen : (withoutHalf h b s).halves.length = s.halves.length := List.length_set ..
      have hmem : halfOf (withoutHalf h b s) h ∈ (withoutHalf h b s).halves := by
        unfold halfOf
        rw [List.getD_eq_getElem _ _ (hlen ▸ hh)]
        exact List.getElem_mem _
      have hfault : (halfOf (withoutHalf h b s) h).faulted = true :=
        (congrArg Half.faulted (halfOf_modHalf_same emptied hh)).trans hs
      unfold impaired
      rw [List.any_eq_true.2 ⟨_, hmem, hfault⟩]
      rfl
    rw [ht, show (rotate _).dev = _ from (congrArg State.dev (rotate_frame _) :), e]
    exact (hdev hserves).trans (if_pos himpaired)

theorem page_of_withoutHalf {h : Nat} {b : BitVec 128} {s : State} {e : Nat × Page} (he : e ∈ (withoutHalf h b s).pages) :
    e.1 / 2 ^ 21 ≠ h := by
  unfold withoutHalf at he
  exact of_decide_eq_true (List.mem_filter.1 he).2

theorem byte_of_withoutHalf {h : Nat} {b : BitVec 128} {s : State} {e : Nat × Byte} (he : e ∈ (withoutHalf h b s).mem.data) :
    e.1 / 2 ^ 37 ≠ h := by
  unfold withoutHalf at he
  exact of_decide_eq_true (List.mem_filter.1 he).2

/-- A half fault takes the half out of service with what it held. -/
theorem halfFault_loses {h : Nat} {s : State} (hh : h < 2) (hlen : s.halves.length = 2) (hs : (halfOf s h).faulted = false) :
    (halfOf (halfFault h s) h).faulted = true ∧ (halfOf (halfFault h s) h).store = [] ∧
      (halfOf (halfFault h s) (1 - h)).faulted = (halfOf s (1 - h)).faulted ∧
      (∀ e ∈ (halfFault h s).pages, e.1 / 2 ^ 21 ≠ h) ∧ (∀ e ∈ (halfFault h s).mem.data, e.1 / 2 ^ 37 ≠ h) ∧
      (halfFault h s).health.bits.getLsbD (5 + h) = true ∧ (serving s = true → (halfFault h s).dev.state = .degraded) := by
  obtain ⟨hdev, hfault, hother, hends, hbit⟩ := halfEnded_half hh hlen
  have hgone := loseObjects_standing h (halfEnded h s)
  have hcount := congrArg List.length hgone.faulted
  rw [List.length_map, List.length_map, hends] at hcount
  obtain ⟨b, hlost⟩ := loseHalf_withoutHalf h (halfEnded h s)
  obtain ⟨hf, hstore, ho, hpages, hdata, hbits, hdeg⟩ := withoutHalf_settled (hcount ▸ hh)
    ((halfOf_faulted hgone.faulted h).trans hfault) ((halfFault_of_sound hs).trans (congrArg (fun t => rotate (refreshService t)) hlost))
  have hj : 1 - h ≠ h := by omega
  refine ⟨hf, hstore, ?_, ?_, ?_, ?_, fun hserves => hdeg ?_⟩
  · exact ((ho _ hj).trans (halfOf_faulted hgone.faulted _)).trans (hother _ hj)
  · rw [hpages]
    exact fun e he => page_of_withoutHalf he
  · rw [hdata]
    exact fun e he => byte_of_withoutHalf he
  · exact (congrArg (BitVec.getLsbD · (5 + h)) hbits).trans ((hgone.bits _ (by omega)).trans hbit)
  · exact (congrArg (fun d => d.state == .ready || d.state == .degraded) (hgone.dev.trans hdev) :).trans hserves

/-! ### Single errors -/

theorem chanOf_modChannel (ch : Nat) (f : Channel → Channel) (s : State) : chanOf (modChannel ch f s) ch = f (chanOf s ch) :=
  congrArg (Option.getD · _) (tget_tset_same ..)

theorem chanOf_tally_modChannel (ch k n : Nat) (f : Channel → Channel) (s : State) :
    chanOf (tally k ch n (modChannel ch f s)) ch = f (chanOf s ch) := chanOf_modChannel ..

/-- A channel's 65th corrected line in a window sets ECC_WARN. -/
theorem countCorrected_warns {ch : Nat} {s : State} (h : (chanOf s ch).corrected = 64) :
    (countCorrected ch s).health.bits.getLsbD 9 = true ∧ (countCorrected ch s).mem.eccClean = false := by
  have hcount : 64 < (chanOf (tally 0x0030 ch 1 (modChannel ch (fun c => { c with corrected := c.corrected + 1 }) s)) ch).corrected := by
    rw [chanOf_tally_modChannel]
    show 64 < (chanOf s ch).corrected + 1
    rw [h]
    decide
  rw [countCorrected, if_pos hcount]
  generalize tally 0x0030 ch 1 (modChannel ch (fun c => { c with corrected := c.corrected + 1 }) s) = t
  obtain ⟨a, b, al, e, -⟩ := setHealth_summarized 9 true { t with mem := { t.mem with eccClean := false } }
  exact ⟨setHealth_bit (by decide) .., (congrArg (fun x : State => x.mem.eccClean) e :)⟩

theorem countCorrected_of_few {ch : Nat} {s : State} (h : (chanOf s ch).corrected < 64) :
    countCorrected ch s = tally 0x0030 ch 1 (modChannel ch (fun c => { c with corrected := c.corrected + 1 }) s) := by
  refine if_neg ?_
  rw [chanOf_tally_modChannel]
  exact Nat.not_lt.2 h

/-- Up to 16 uncorrectable lines in a window the channel stays in service. -/
theorem countUncorrectable_of_few {ch : Nat} (line : Nat) {s : State} (h : (chanOf s ch).uncorrectable < 16) :
    ∃ m b, countUncorrectable ch line s = { s with mem := m, bob := b } ∧ (ch, line) ∈ m.badLines ∧ m.inService = s.mem.inService ∧
      chanOf (countUncorrectable ch line s) ch = { chanOf s ch with uncorrectable := (chanOf s ch).uncorrectable + 1 } := by
  have hchan := chanOf_modChannel ch (fun c => { c with uncorrectable := c.uncorrectable + 1 }) s
  unfold countUncorrectable
  extract_lets t _ u
  have hu : chanOf u ch = chanOf t ch := rfl
  have hfew : ¬16 < (chanOf u ch).uncorrectable := by
    rw [hu, hchan]
    exact Nat.not_lt.2 h
  rw [if_neg hfew]
  exact ⟨u.mem, u.bob, rfl, List.mem_cons_self .., rfl, hu.trans hchan⟩

section
variable {s : State} {ch line : Nat} {r : LineRead}

theorem eccOf_of_sound (hsound : (ch, line) ∉ s.mem.badLines) (n : Nat) :
    eccOf s ch line { symbols := n, wrongLine := false } = match n with
      | 0 => .clean
      | 1 => .corrected
      | 2 | 3 => .uncorrectable
      | n => Config.manySymbols n := by
  refine (if_neg ?_).trans ?_
  · simpa using hsound
  · rfl

theorem eccOf_of_bad (h : r.symbols = 2 ∨ r.symbols = 3 ∨ r.wrongLine = true ∨ (ch, line) ∈ s.mem.badLines) :
    eccOf s ch line r = .uncorrectable := by
  unfold eccOf
  split
  · rfl
  · next hclean =>
    rcases h with h | h | h | h
    · rw [h]
      rfl
    · rw [h]
      rfl
    · exact absurd (by rw [h]; rfl) hclean
    · exact absurd (by simp [h]) hclean

theorem lpddrScrub_of_runs (hruns : channelRuns s ch = true) (hfree : looped s 1 ch = false) : lpddrScrub ch line r s =
    match eccOf s ch line r with
    | .clean => s
    | .corrected => countCorrected ch s
    | .uncorrectable => countUncorrectable ch line s := by
  refine if_neg ?_
  rw [hruns, hfree]
  decide

end


theorem Told.frame {s t : State} (h : Told s t) : { t with pair := s.pair, tx := s.tx, free := s.free } = s := by
  obtain ⟨n, sent, unacked, held, x, f, rfl⟩ := h
  rfl

theorem breakSeq_breaks {i : Nat} {q : Sequence} {s : State} (hq : tget s.seqs i = some q) (hopen : q.st ≠ .closing) :
    ((tget (breakSeq i s).seqs i).map (·.st)) = some .broken ∧ (breakSeq i s).mem = s.mem := by
  have hbreak : breakSeq i s = tellSeq i (modSeq i (fun q => { q with st := .broken }) s) := by
    unfold breakSeq
    rw [hq]
    exact if_neg hopen
  have htold := (tellSeq_told i (modSeq i (fun q => { q with st := .broken }) s)).frame
  rw [hbreak]
  refine ⟨?_, (congrArg State.mem htold :)⟩
  rw [show (tellSeq i _).seqs = tmod s.seqs i fun q => { q with st := .broken } from (congrArg State.seqs htold :), tget_tmod_same, hq]
  rfl

/-- An uncorrectable line that holds a committed position breaks its sequence. -/
theorem memoryError_breaks {ch line i pos : Nat} {r : LineRead} {q : Sequence} {s : State} (hon : hubOn s = true)
    (hbad : r.symbols = 2 ∨ r.symbols = 3 ∨ r.wrongLine = true) (hq : tget s.seqs i = some q) (hpos : pos < q.committed) :
    memoryError none (.lpddr ch line r (.kv i pos)) s = countUncorrectable ch line (breakSeq i s) := by
  have hecc : eccOf s ch line r = .uncorrectable := eccOf_of_bad (by rcases hbad with h | h | h <;> simp [h])
  have hcommitted : committedAt s i pos = true := by
    unfold committedAt
    rw [hq]
    exact decide_eq_true hpos
  refine (if_neg (by rw [hon]; decide)).trans ?_
  dsimp only
  rw [hecc]
  exact congrArg (countUncorrectable ch line) (if_pos hcommitted)

/-- Settles O50: each access and patrol by what the controller makes of the line; a half fault by `halfFault_loses`. -/
theorem errors : Obligations.Errors := by
  unfold Obligations.Errors
  intro s
  refine ⟨?lpddr, ?sram, ?flash, ?repair, ?kv, ?cmd, ?half, ?bridge⟩
  case lpddr =>
    intro ch line hruns hfree
    have hscrub (r : LineRead) := lpddrScrub_of_runs (line := line) (r := r) hruns hfree
    refine ⟨fun hsound => ?_, fun hsound hfew => ?_, fun hsound hfull => ?_, fun r hbad hfew => ?_⟩
    · exact congrArg Host.Outcome.next ((hscrub _).trans (by rw [eccOf_of_sound hsound]; rfl))
    · refine congrArg Host.Outcome.next ((hscrub _).trans ?_)
      rw [eccOf_of_sound hsound]
      exact countCorrected_of_few hfew
    · refine ⟨_, congrArg Host.Outcome.next ((hscrub _).trans ?_), countCorrected_warns hfull⟩
      rw [eccOf_of_sound hsound]
      rfl
    · obtain ⟨m, b, e, hline, hservice, hchan⟩ := countUncorrectable_of_few line hfew
      refine ⟨countUncorrectable ch line s, congrArg Host.Outcome.next ((hscrub r).trans ?_), ?_, ?_, ?_⟩
      · rw [eccOf_of_bad hbad]
      · rw [hchan]
      · rw [e]
        exact hline
      · rw [e]
        exact hservice
  case sram =>
    intro unit word hon
    have hscrub (r : EccResult) (slot : Option Nat) : sramScrub unit word r slot s = _ := if_neg (by rw [hon]; decide)
    refine ⟨congrArg Host.Outcome.next (hscrub _ _), congrArg Host.Outcome.next (hscrub _ _), congrArg Host.Outcome.next (hscrub _ _), ?_⟩
    intro slot e he
    have hlose : loseEntry slot (bobPost unit 0x0010 word s) =
        bobPost 0x16 0x0015 slot (modEntry slot (fun e => { e with lost := true }) (bobPost unit 0x0010 word s)) := by
      refine if_pos ?_
      rw [show tget (bobPost unit 0x0010 word s).sent.entries slot = some e from he]
      rfl
    refine ⟨_, congrArg Host.Outcome.next ((hscrub _ _).trans hlose), ?_, rfl⟩
    exact (tget_tmod_same s.sent.entries slot _).trans (congrArg (Option.map _) he)
  case flash =>
    intro pi block p heavy hp hon hfree
    have hpatrol (r : EccResult) : flashPatrol pi block r heavy s = match r with
        | .clean => s
        | .corrected => tally 0x0032 (flashOf pi block) 1 s
        | .uncorrectable => bobPost 0x19 0x0010 block (modPat pi (fun p => { p with damaged := some (ldpcEnd pi block) }) s) := by
      unfold flashPatrol
      rw [hp]
      exact if_neg (by rw [hon, hfree]; decide)
    refine ⟨congrArg Host.Outcome.next (hpatrol _), congrArg Host.Outcome.next (hpatrol _), ?_⟩
    exact congrArg Host.Outcome.next ((hpatrol _).trans (congrArg (fun l => bobPost 0x19 0x0010 block { s with pats := l })
      (tmod_some _ hp)))
  case repair =>
    intro half unit arg
    exact ⟨fun h => congrArg Host.Outcome.next (if_pos h), fun h => congrArg Host.Outcome.next (if_neg (Bool.eq_false_iff.1 h))⟩
  case kv =>
    intro ch line i pos r q hon hbad hq hpos hopen hfew
    obtain ⟨hst, hmem⟩ := breakSeq_breaks hq hopen
    have hchan : chanOf (breakSeq i s) ch = chanOf s ch := congrArg (fun m : Memory => tgetD m.channels ch _) hmem
    obtain ⟨m, b, e, hline, -⟩ := countUncorrectable_of_few line (hchan.symm ▸ hfew)
    exact ⟨_, congrArg Host.Outcome.next ((memoryError_breaks hon hbad hq hpos).trans e), hst, hline⟩
  case cmd =>
    intro cid c hon hc hphase
    have hrun (tgt : Option Target) (e : MemError) : memoryError tgt e s = _ := if_neg (by rw [hon]; decide)
    have hend (st : Status) (d : Nat) : endTarget (some (.cmd cid)) st d s = refuse cid st d (dropWork cid s) := by
      unfold endTarget
      dsimp only
      rw [hc]
      exact if_neg (by simpa using hphase)
    refine ⟨fun unit => congrArg Host.Outcome.next (hrun _ _), fun half page => ?_, fun half unit arg => ?_⟩
    · exact congrArg Host.Outcome.next ((hrun _ _).trans (congrArg (bobPost (0x0A + half) 0x0014 page) (hend ..)))
    · exact congrArg Host.Outcome.next ((hrun _ _).trans (congrArg (bobPost unit 0x0010 arg) (hend ..)))
  case half =>
    intro h i hi hon hh hlen hs
    refine ⟨halfFault h s, ?_, halfFault_loses hh hlen hs⟩
    have hlink (l : DieLink) : dieLinkFault l s = _ := if_neg (by rw [hon]; decide)
    rcases hi with rfl | rfl | rfl
    · exact congrArg Host.Outcome.next (if_pos hon)
    · exact congrArg Host.Outcome.next (hlink _)
    · exact congrArg Host.Outcome.next (hlink _)
  case bridge =>
    intro hon
    obtain ⟨a, b, al, e, -⟩ := setHealth_summarized 10 true { s with mem := { s.mem with bridgeDown := true } }
    have hbit := setHealth_bit (i := 10) (by decide) true { s with mem := { s.mem with bridgeDown := true } }
    obtain ⟨d, x, b', g, e', hdev⟩ := refreshService_changes (setHealth 10 true { s with mem := { s.mem with bridgeDown := true } })
    refine ⟨_, congrArg Host.Outcome.next (if_neg (by rw [hon]; decide)), ?_, fun hserves => ?_, ?_⟩
    · exact (congrArg (BitVec.getLsbD · 10) (refreshService_bits _)).trans hbit
    · have himpaired : serviceState (setHealth 10 true { s with mem := { s.mem with bridgeDown := true } }) = .degraded := by
        rw [e]
        refine if_pos ?_
        simp [impaired]
      exact (congrArg (fun t : State => t.dev.state) e').trans ((hdev (e ▸ hserves)).trans himpaired)
    · exact (congrArg State.halves e').trans (congrArg State.halves e :)

end Sys2Proof.Machine

namespace Sys2Proof.Machine

/-! ### A module that no longer mirrors -/

/-- `t`'s pair is `s`'s but for the candidates that wait for the partner's report. -/
def Awaits (s t : State) : Prop := ∃ ws, t.pair = { s.pair with awaiting := ws }

theorem Awaits.refl (s : State) : Awaits s s := ⟨_, rfl⟩

theorem Awaits.trans {s t u : State} (h : Awaits s t) (g : Awaits t u) : Awaits s u := by
  obtain ⟨ws, h⟩ := h
  obtain ⟨vs, g⟩ := g
  exact ⟨vs, by rw [g, h]⟩

theorem Awaits.mirroring {s t : State} (h : Awaits s t) : mirroring t = mirroring s := by
  obtain ⟨ws, h⟩ := h
  unfold Machine.mirroring
  rw [h]

theorem submit_awaits (k : Cand) (s : State) : Awaits s (submit k s) := ⟨s.pair.awaiting, (congrArg State.pair (submit_frame k s) :)⟩

section
variable {s : State} (hquiet : mirroring s = false)
include hquiet

theorem finish_awaits (cid : Nat) (st : Status) (d : Nat) (v : BitVec 64) (fl : BitVec 16) (a : OnAccept) :
    Awaits s (finish cid st d v fl a s) := by
  unfold finish
  split
  · exact .refl s
  · dsimp only
    split
    · exact ⟨_, rfl⟩
    · split
      · next h =>
        rw [show mirroring (modCmd _ _ s) = false from hquiet] at h
        cases h
      · exact Awaits.trans (t := modCmd cid _ s) ⟨_, rfl⟩ (submit_awaits ..)

theorem setFence_awaits (i : Nat) (v : BitVec 64) : Awaits s (setFence i v s) := by
  unfold setFence
  rw [tellFence_of_not_mirroring]
  · exact ⟨_, rfl⟩
  · exact hquiet

theorem updateFence_awaits (f n : BitVec 32) (st : Status) : Awaits s (updateFence f n st s) := by
  unfold updateFence
  dsimp only
  split
  · exact .refl s
  · split
    · split
      · exact setFence_awaits hquiet ..
      · exact ⟨_, rfl⟩
    · exact ⟨_, rfl⟩

theorem signalNow_awaits (cid i gen : Nat) : Awaits s (signalNow cid i gen s) := by
  unfold signalNow
  split
  · dsimp only
    split
    · exact finish_awaits hquiet ..
    · have hset := setFence_awaits hquiet
      exact (hset ..).trans (finish_awaits ((hset ..).mirroring.trans hquiet) ..)
  · exact finish_awaits hquiet ..
  · exact .refl s

theorem releaseAck_awaits (u : Unacked) : Awaits s (releaseAck u s) := by
  unfold releaseAck
  extract_lets t
  have ht : Awaits s t := by
    unfold t
    split
    · exact submit_awaits ..
    · exact .refl s
  have hquiet := ht.mirroring.trans hquiet
  split
  · exact ht.trans (signalNow_awaits hquiet ..)
  · exact ht.trans (updateFence_awaits hquiet ..)
  · exact ht

theorem foldl_awaits {α : Type} {f : State → α → State} (h : ∀ t x, mirroring t = false → Awaits t (f t x)) (l : List α) :
    Awaits s (l.foldl f s) :=
  List.foldlRecOn l f (motive := Awaits s) (.refl s) fun t ht x _ => ht.trans (h t x (ht.mirroring.trans hquiet))

/-- Nothing waits for an acknowledgement any more. -/
theorem releaseWaits_pair : ∃ ws, (releaseWaits s).pair = { s.pair with unacked := [], awaiting := ws } := by
  have hquiet' : mirroring (modPair (fun p => { p with unacked := [], awaiting := [] }) s) = false := hquiet
  have hacks := foldl_awaits hquiet' (f := fun s u => releaseAck u s) (fun t u ht => releaseAck_awaits ht u) s.pair.unacked
  obtain ⟨ws, e⟩ := hacks.trans (foldl_awaits (hacks.mirroring.trans hquiet')
    (f := fun (s : State) (w : Nat × Cand) => submit { w.2 with tick := arrival s w.2.queue } s) (fun t w _ => submit_awaits ..) s.pair.awaiting)
  exact ⟨ws, e⟩

end

/-! ### What a change of mode keeps of the pair -/

/-- A module's pair but for its records: their numbers and copies, and what waits for an acknowledgement or a report. -/
def unowed (s : State) : Pair := { s.pair with commitSeq := 0, recordsSent := 0, unacked := [], held := [], awaiting := [] }

theorem Told.unowed {s t : State} (h : Told s t) : unowed t = unowed s := by
  obtain ⟨n, sent, unacked, held, x, f, rfl⟩ := h
  rfl

theorem Awaits.unowed {s t : State} (h : Awaits s t) : unowed t = unowed s := by
  obtain ⟨ws, h⟩ := h
  unfold Machine.unowed
  rw [h]

/-- A state with what the release of pages touches taken from another. -/
def withPages (s x : State) : State :=
  { x with pages := s.pages, mem := s.mem, halves := s.halves, cores := s.cores, tenants := s.tenants, seqs := s.seqs, arb := s.arb
           health := s.health }

theorem withPages_trans {s t u : State} (h : withPages s t = s) (g : withPages t u = t) : withPages s u = s :=
  (congrArg (withPages s) g).trans h

theorem withPages_foldl {α : Type} {f : State → α → State} (h : ∀ s x, withPages s (f s x) = s) (l : List α) (s : State) :
    withPages s (l.foldl f s) = s :=
  List.foldlRecOn l f (motive := fun t => withPages s t = s) rfl fun t ht x _ => withPages_trans ht (h t x)

theorem postEvent_frame (code object detail : Nat) (v : BitVec 64) (st : Status) (s : State) :
    { postEvent code object detail v st s with arb := s.arb, health := s.health } = s :=
  (postEvent_arbHealth code object detail v st s).frame

theorem retireKeys_frame (t : Nat) (s : State) : withPages s (retireKeys t s) = s := by
  unfold retireKeys
  split
  · rfl
  · next x _ =>
    split
    · rfl
    · split
      · rfl
      · exact withPages_trans (t := { s with tenants := tset s.tenants t { x with prev := none } }) rfl
          (congrArg (withPages _) (postEvent_frame ..) :)

theorem freePagesOf_frame (p : PageUse → Bool) (s : State) : withPages s (freePagesOf p s) = s := by
  unfold freePagesOf retireAll
  extract_lets gone
  exact withPages_trans (t := zeroPages gone.contains { s with pages := s.pages.filter fun e => !p e.2.use }) rfl
    (withPages_foldl (fun t k => retireKeys_frame k t) _ _)

theorem storeLists_frame (i : Nat) (s : State) : withPages s (storeLists i s) = s := by
  unfold storeLists
  extract_lets put
  have hput (t : State) (h : Nat) : withPages t (put t h) = t := withPages_foldl (by exact fun _ _ => rfl) _ t
  exact withPages_trans (hput s 0) (hput _ 1)

theorem trimSeq_frame (i n : Nat) (s : State) : withPages s (trimSeq i n s) = s := by
  unfold trimSeq
  split
  · rfl
  · exact withPages_trans (freePagesOf_frame ..) (withPages_trans (t := modSeq i _ _) rfl (storeLists_frame ..))

/-- A request's pages are released without a change of a request, a command or the pair. -/
theorem releasePages_frame (slot : Nat) (r : Req) (s : State) : withPages s (releasePages slot r s) = s := by
  unfold releasePages
  extract_lets scratch t
  have ht : withPages s t = s := withPages_trans (freePagesOf_frame scratch s) rfl
  split
  · exact ht
  · split
    · exact ht
    · refine withPages_trans (withPages_trans ht ?_) (trimSeq_frame ..)
      split <;> rfl

theorem releasePages_unowed (slot : Nat) (r : Req) (s : State) : unowed (releasePages slot r s) = unowed s :=
  (congrArg unowed (releasePages_frame slot r s) :)

theorem releasePages_reqs (slot : Nat) (r : Req) (s : State) : (releasePages slot r s).reqs = s.reqs :=
  (congrArg State.reqs (releasePages_frame slot r s) :)

theorem postEvent_unowed (code object detail : Nat) (v : BitVec 64) (st : Status) (s : State) :
    unowed (postEvent code object detail v st s) = unowed s :=
  (congrArg unowed (postEvent_frame code object detail v st s) :)

theorem setReqState_unowed (slot : Nat) (st : ReqState) (s : State) : unowed (setReqState slot st s) = unowed s :=
  (tellReq_told slot _).unowed

theorem shedLent_unowed (s : State) : unowed (shedLent s) = unowed s := by
  refine foldl_keeps unowed (fun t k => ?_) _ s
  unfold shedOne backToAdmitted
  split
  · split
    · rfl
    · exact (setReqState_unowed ..).trans (releasePages_unowed ..)
  · rfl

/-- A change of mode changes the mode and the role. -/
theorem setMode_unowed (m : PairMode) (r : Role) (s : State) : unowed (setMode m r s) = { unowed s with mode := m, role := r } := by
  unfold setMode
  extract_lets t u
  have hu : unowed u = unowed t := by
    unfold u
    split
    · rfl
    · exact shedLent_unowed t
  split
  · exact hu
  · exact (postEvent_unowed ..).trans hu

theorem setMode_role (m : PairMode) (r : Role) (s : State) : (setMode m r s).pair.role = r :=
  (congrArg Pair.role (setMode_unowed m r s) :)

theorem setMode_mode (m : PairMode) (r : Role) (s : State) : (setMode m r s).pair.mode = m :=
  (congrArg Pair.mode (setMode_unowed m r s) :)

/-- With nothing lent, a change of mode or role is one of the pair and an event. -/
theorem setMode_of_unlent {m : PairMode} {r : Role} {s : State} (h : ∀ e ∈ s.reqs, e.2.lent = false)
    (hne : s.pair.mode ≠ m ∨ s.pair.role ≠ r) :
    setMode m r s = postEvent 4 (modeCode m) 0 0 .done (modPair (fun p => { p with mode := m, role := r }) s) := by
  unfold setMode
  extract_lets t u
  have hu : u = t := by
    unfold u
    split
    · rfl
    · exact shedLent_of_none h
  rw [hu]
  refine if_neg fun hsame => ?_
  rcases hne with hne | hne
  · exact hne hsame.1
  · exact hne hsame.2

/-- DEGRADED and SOLO mirror nothing. -/
theorem setMode_quiet {m : PairMode} (hm : m = .degraded ∨ m = .solo) (r : Role) (s : State) : mirroring (setMode m r s) = false := by
  unfold mirroring
  rw [setMode_mode]
  rcases hm with rfl | rfl <;> simp

theorem finish_unowed (cid : Nat) (st : Status) (d : Nat) (v : BitVec 64) (fl : BitVec 16) (a : OnAccept) (s : State) :
    unowed (finish cid st d v fl a s) = unowed s := by
  unfold finish
  split
  · rfl
  · dsimp only
    split
    · rfl
    · split
      · rfl
      · exact (submit_awaits ..).unowed


/-! ### Records (10 R304, R309-R311) -/

/-- With no applied command waiting there is nothing to report. -/
theorem reportApplied_of_none {s : State} (h : s.pair.awaiting = []) : reportApplied s = s := by
  unfold reportApplied
  split
  · rfl
  · rw [h]
    show { s with pair := { s.pair with awaiting := [] } } = s
    rw [← h]

theorem tryHandover_of_none {s : State} (h : s.pair.switching = none) : tryHandover s = s := by
  refine if_neg ?_
  rw [h]
  simp

theorem copies_of_intakeOpen {s : State} (h : intakeOpen s = true) : holdsCopy s = true := by
  unfold intakeOpen at h
  simp only [Bool.and_eq_true] at h
  exact h.1.2

section
variable {r : Record} {s : State} (htag : r.tagOk = true) (hcrc : r.crcOk = true) (hburgee : burgeeFits s r.burgee = true)
  (hopen : intakeOpen s = true)
include htag hcrc hburgee hopen

theorem recordRx_of_valid : recordRx r s = reportApplied (intake r s) := by
  refine if_pos ?_
  rw [hopen, htag, hcrc, hburgee]
  rfl

variable {n : Nat} {k : BitVec 32} (hphase : waitsForPhase s r = false)
  (hheld : tget s.pair.held (objKey (recKind r.body) r.key) = some (n, k))
include hphase hheld

theorem recordRx_of_held : recordRx r s = reportApplied
    (if n < r.commitSeq then
      emit (.ack r.commitSeq) (applyRecord r (modPair (fun p =>
        { p with held := tset p.held (objKey (recKind r.body) r.key) (r.commitSeq, r.crc), commitSeq := max p.commitSeq r.commitSeq }) s))
    else if r.commitSeq < n then s
    else if k = r.crc then emit (.ack r.commitSeq) s
    else diverge r s) := by
  rw [recordRx_of_valid htag hcrc hburgee hopen, intake, if_neg (Bool.eq_false_iff.1 hphase), takeRecord, hheld]

end

/-- A standby that has lent nothing becomes DEGRADED at the loss of the mirror link. -/
theorem linkLost_of_standby {s : State} (hmode : s.pair.mode = .activeStandby) (hrole : s.pair.role = .standby)
    (hprogress : progressing s.pair.heardB (now s) = true) (hnone : ∀ e ∈ s.reqs, e.2.lent = false) :
    ∃ a h, linkLost s = { s with pair := { s.pair with linkUp := false, mode := .degraded }, arb := a, health := h } := by
  have hdegraded := setMode_of_unlent (m := .degraded) (r := s.pair.role) (s := modPair (fun p => { p with linkUp := false }) s)
    hnone (.inl fun hmode' => nomatch hmode.symm.trans hmode')
  obtain ⟨a, h, e⟩ := postEvent_arbHealth 4 (modeCode .degraded) 0 0 .done
    (modPair (fun p => { p with linkUp := false, mode := .degraded, role := s.pair.role }) s)
  have hset := hdegraded.trans e
  have hcopy : holdsCopy (setMode .degraded s.pair.role (modPair (fun p => { p with linkUp := false }) s)) = true := by
    rw [hset]
    show (s.pair.role == .standby || s.pair.role == .spare || s.pair.copies) = true
    rw [hrole]
    rfl
  exact ⟨a, h, ((if_pos ⟨hmode, hprogress⟩).trans (if_pos hcopy)).trans hset⟩

/-- Settles O45: a record by what its header and the copy held say; the modes by `setMode_unowed`. -/
theorem records : Obligations.Records := by
  unfold Obligations.Records
  intro s
  refine ⟨fun r n k => ⟨?refused, ?waits, ?held⟩, ?ack, ?timeout, ?report, ?lost, ?lostElse, ?up, ?noPower, ?window⟩
  case refused =>
    intro hbad
    refine congrArg Host.Outcome.next (if_neg ?_)
    rcases hbad with h | h | h <;> simp [h]
  case waits =>
    intro htag hcrc hburgee hopen hnone hphase
    refine congrArg Host.Outcome.next ((recordRx_of_valid htag hcrc hburgee hopen).trans ?_)
    rw [intake, if_pos hphase]
    exact reportApplied_of_none hnone
  case held =>
    intro htag hcrc hburgee hopen hnone hphase hheld
    have hrx := recordRx_of_held htag hcrc hburgee hopen hphase hheld
    refine ⟨fun hlt => ?_, fun heq hk => ?_, fun hlt b w hbody => ?_⟩
    · rw [if_neg (Nat.lt_asymm hlt), if_pos hlt] at hrx
      exact congrArg Host.Outcome.next (hrx.trans (reportApplied_of_none hnone))
    · rw [if_neg (Nat.not_lt.2 (Nat.le_of_eq heq)), if_neg (Nat.not_lt.2 (Nat.le_of_eq heq.symm)), if_pos hk, heq] at hrx
      exact congrArg Host.Outcome.next (hrx.trans (reportApplied_of_none hnone))
    · rw [if_pos hlt, applyRecord, hbody] at hrx
      exact congrArg Host.Outcome.next (hrx.trans (reportApplied_of_none hnone))
  case ack =>
    intro n u hu hnoAck hnoFence hswitch
    refine congrArg Host.Outcome.next ?_
    unfold ackRx
    rw [hu]
    dsimp only
    unfold releaseAck
    rw [hnoAck, hnoFence]
    exact tryHandover_of_none hswitch
  case timeout =>
    intro hmode hrole
    refine ⟨fun ⟨u, hu, hlate⟩ => ?_, fun hearly => ?_⟩
    · have hany : (s.pair.unacked.any fun u => decide (u.tick + 1200 ≤ now s)) = true :=
        List.any_eq_true.2 ⟨u, hu, decide_eq_true hlate⟩
      obtain ⟨ws, e⟩ := releaseWaits_pair (setMode_quiet (.inl rfl) .active s)
      refine ⟨_, congrArg Host.Outcome.next (if_pos ⟨hmode, hrole, hany⟩), ?_, ?_, ?_⟩
      · exact (congrArg Pair.mode e).trans (setMode_mode ..)
      · exact (congrArg Pair.role e).trans (setMode_role ..)
      · exact congrArg Pair.unacked e
    · refine congrArg Host.Outcome.next (if_neg fun h => ?_)
      obtain ⟨u, hu, hlate⟩ := List.any_eq_true.1 h.2.2
      exact Nat.not_le.2 (hearly u hu) (of_decide_eq_true hlate)
  case report =>
    intro cid c k hk htarget hc hcopy hswitch
    refine congrArg Host.Outcome.next ?_
    unfold setupReport
    rw [if_neg (Bool.eq_false_iff.1 hcopy), hk]
    refine (if_pos rfl).trans ((tryHandover_of_none ?_).trans ?_)
    · exact (congrArg Pair.switching ((submit_awaits ..).unowed : unowed (submit _ _) = _) :).trans hswitch
    · unfold submit
      dsimp only
      rw [htarget]
      exact if_pos (by rw [show tget (modPair _ s).cmds cid = some c from hc]; rfl)
  case lost =>
    intro hmode hrole hprogress hnone
    obtain ⟨a, h, e⟩ := linkLost_of_standby hmode hrole hprogress hnone
    exact ⟨_, congrArg Host.Outcome.next e, rfl, rfl, rfl⟩
  case lostElse =>
    intro hmode
    exact congrArg Host.Outcome.next (if_neg fun h => hmode h.1)
  case up =>
    intro hon hoptics
    exact congrArg Host.Outcome.next (if_pos (by rw [hon, hoptics]; rfl))
  case noPower =>
    intro hoptics
    exact congrArg Host.Outcome.next (if_neg (by rw [hoptics]; simp))
  case window =>
    intro h hwindow
    exact congrArg Host.Outcome.next (if_pos hwindow)

end Sys2Proof.Machine

namespace Sys2Proof.Machine

/-! ### Takeover (10 R325) -/

/-- Takeover before its new mode: the entries armed and answered for, the partner's commands lost, and what is not mirrored lost. -/
def takenOver (s : State) : State :=
  let s := armCopies (reportApplied s)
  let s := modPair (fun p => { p with role := .active }) s
  let due := sortBy (fun a b => tickLe a.2.fallback b.2.fallback) (s.sent.entries.filter fun e => !e.2.final)
  let s := due.foldl (fun s e => takeoverEntry e.1 e.2 s) s
  let s := s.pair.openCmds.foldl (fun s c => loseCommand c.1 c.2.1 c.2.2.1 c.2.2.2.1 c.2.2.2.2 s) s
  let s := s.pair.setups.foldl (fun s c => loseCommand c.1 0 0 c.2.1 c.2.2 s) s
  openWindows (openRings (loseWork (shedLent { s with cmds := tmap s.cmds fun _ c => { c with given := none } })))

theorem takeover_eq (handover : Bool) (s : State) : takeover handover s =
    setMode (if handover then .activeStandby else .solo) .active (modPair (fun p =>
      { p with role := .standby, results := [], openCmds := [], setups := [], unacked := [], lastTakeover := now (takenOver s) })
      (takenOver s)) := rfl

theorem takeoverEntry_withdrawn (slot : Nat) (e : SEntry) (s : State) : Withdrawn s (takeoverEntry slot e s) := by
  unfold takeoverEntry
  split
  · exact .refl s
  · split
    · exact (endReq_answered ..).withdrawn
    · extract_lets late t
      have ht : Withdrawn s t := by
        unfold t
        split
        · exact (submit_answered ..).withdrawn
        · exact .refl s
      split
      · exact (ht.trans (modReq_withdrawn ..)).trans (submit_answered ..).withdrawn
      · exact ht

theorem loseCommand_sent (ring slot op : Nat) (tag : BitVec 64) (seqNo : BitVec 32) (s : State) :
    (loseCommand ring slot op tag seqNo s).sent = s.sent := by
  unfold loseCommand
  split
  · rfl
  · exact (congrArg State.sent (finish_answered ..).frame :)

theorem openWindows_sent (s : State) : (openWindows s).sent = s.sent := foldl_keeps State.sent (by exact fun _ _ => rfl) _ s

theorem Withdrawn.sent {s t : State} (h : Withdrawn s t) : t.sent = s.sent := (congrArg State.sent h.frame :)

theorem openRings_loseWork_sent (s : State) : (openRings (loseWork s)).sent = s.sent := rfl

theorem takenOver_sent (s : State) : (takenOver s).sent = (armCopies (reportApplied s)).sent := by
  unfold takenOver
  extract_lets a b due c d e
  have hc : c.sent = b.sent := (Withdrawn.foldl (fun u x => takeoverEntry_withdrawn x.1 x.2 u) due b).sent
  have hd : d.sent = c.sent := foldl_keeps State.sent (fun u x => loseCommand_sent _ _ _ _ _ u) _ c
  have he : e.sent = d.sent := foldl_keeps State.sent (fun u x => loseCommand_sent _ _ _ _ _ u) _ d
  have hopen : { e with cmds := tmap e.cmds fun _ c => { c with given := none } }.sent = e.sent := rfl
  rw [openWindows_sent, openRings_loseWork_sent, (shedLent_withdrawn _).sent, hopen, he, hd, hc]
  rfl

theorem takenOver_time (s : State) : now (takenOver s) = now s := by
  have h : lasting (takenOver s) = lasting s := by
    unfold takenOver
    simp
  exact (congrArg Lasting.time h :)


/-- A mirrored entry that is not final is armed, its fallback tick in this module's time. -/
theorem takenOver_armed {s : State} {slot : Nat} {e : SEntry} (hnone : s.pair.awaiting = []) (he : tget s.sent.entries slot = some e)
    (hmirror : e.mirror = true) (hlive : e.final = false) :
    ∃ x, tget (takenOver s).sent.entries slot = some x ∧ x.armed = true ∧ x.fallback = e.fallback.map (convertTick s) := by
  rw [takenOver_sent, reportApplied_of_none hnone]
  unfold armCopies
  extract_lets arm conv shift
  refine ⟨arm e, ?_, ?_, rfl⟩
  · show tget (tmap s.sent.entries fun _ e => arm e) slot = some (arm e)
    rw [tget_tmap, he]
    rfl
  · show (!e.final && e.mirror) = true
    rw [hlive, hmirror]
    rfl

theorem takeover_solo (s : State) : (takeover false s).pair.role = .active ∧ (takeover false s).pair.mode = .solo ∧
    (takeover false s).pair.lastTakeover = now s ∧ (takeover false s).pair.results = [] ∧ (takeover false s).pair.setups = [] ∧
    (takeover false s).sent = (takenOver s).sent := by
  rw [takeover_eq, takenOver_time]
  generalize takenOver s = u
  have hpair := setMode_unowed .solo .active (modPair (fun p =>
      { p with role := .standby, results := [], openCmds := [], setups := [], unacked := [], lastTakeover := now s }) u)
  exact ⟨setMode_role .., setMode_mode .., (congrArg Pair.lastTakeover hpair :), (congrArg Pair.results hpair :),
    (congrArg Pair.setups hpair :), (setMode_withdrawn ..).sent⟩

section
variable {s : State} (hon : hubOn s = true) (hgone : partnerGone s = true) (hquiet : s.pair.dyingSent = none)
  (hmode : s.pair.mode = .activeStandby)
include hon hgone hquiet hmode

theorem partnerLost_of_standby (hrole : s.pair.role = .standby) : partnerLost s = takeover false s := by
  unfold partnerLost
  rw [if_neg, hrole, hmode]
  unfold bound
  rw [hon, hgone, hquiet, hmode]
  decide

theorem partnerLost_of_active (hrole : s.pair.role = .active) :
    partnerLost s = releaseWaits (setMode .solo .active (modPair (fun p => { p with leaves := false }) (endPairCmds s))) := by
  unfold partnerLost
  rw [if_neg, hrole, hmode]
  unfold bound
  rw [hon, hgone, hquiet, hmode]
  decide

end

/-! ### The active goes on alone (10 R324) -/

theorem endPairCmds_pair (s : State) : (endPairCmds s).pair.resilver = none ∧ (endPairCmds s).pair.switching = none := ⟨rfl, rfl⟩

theorem active_alone (s : State) : ∃ t, t = releaseWaits (setMode .solo .active (modPair (fun p => { p with leaves := false }) (endPairCmds s))) ∧
    t.pair.role = .active ∧ t.pair.mode = .solo ∧ t.pair.resilver = none ∧ t.pair.switching = none ∧ t.pair.unacked = [] := by
  have hpair := setMode_unowed .solo .active (modPair (fun p => { p with leaves := false }) (endPairCmds s))
  obtain ⟨ws, e⟩ := releaseWaits_pair (setMode_quiet (.inr rfl) .active (modPair (fun p => { p with leaves := false }) (endPairCmds s)))
  refine ⟨_, rfl, ?_, ?_, ?_, ?_, ?_⟩
  · exact (congrArg Pair.role e).trans (setMode_role ..)
  · exact (congrArg Pair.mode e).trans (setMode_mode ..)
  · exact (congrArg Pair.resilver e).trans (congrArg Pair.resilver hpair :)
  · exact (congrArg Pair.switching e).trans (congrArg Pair.switching hpair :)
  · exact congrArg Pair.unacked e

/-! ### Frames -/

theorem sendFrames_of_clocked {s : State} (hclk : s.clk.sclk = true) (cutsShort : Bool) : sendFrames cutsShort s = { s with
    tx := s.tx ++ (if s.pair.linkUp && opticsOn s then [.halyardA (frameA s)] else []) ++ [.halyardB (frameB s) cutsShort] } := by
  refine (if_neg (by rw [hclk]; decide)).trans ?_
  dsimp only
  split
  · rfl
  · exact congrArg (fun l => { s with tx := l ++ [Tx.halyardB (frameB s) cutsShort] }) (List.append_nil s.tx).symm

/-- A module's frames do not tell when its next one is due. -/
theorem frameA_nextBeat (n : Nat) (s : State) : frameA (modPair (fun p => { p with nextBeat := n }) s) = frameA s := by
  unfold frameA hbFlags
  rfl

theorem frameB_nextBeat (n : Nat) (s : State) : frameB (modPair (fun p => { p with nextBeat := n }) s) = frameB s := by
  unfold frameB hbFlags
  rfl

theorem heartbeat_sends {s : State} (hclk : s.clk.sclk = true) (hbound : bound s = true) (hdue : s.pair.nextBeat ≤ now s)
    (hnone : s.pair.awaiting = []) : heartbeat s = { s with
      pair := { s.pair with nextBeat := s.pair.nextBeat + 400 }
      tx := s.tx ++ (if s.pair.linkUp && opticsOn s then [.halyardA (frameA s)] else []) ++ [.halyardB (frameB s) false] } := by
  refine (if_pos ?_).trans ((congrArg _ (congrArg _ (reportApplied_of_none hnone))).trans ?_)
  · rw [hclk, hbound, decide_eq_true hdue]
    rfl
  · have hsend := sendFrames_of_clocked (s := modPair (fun p => { p with nextBeat := s.pair.nextBeat + 400 }) s) hclk false
    rw [frameA_nextBeat, frameB_nextBeat] at hsend
    exact hsend

/-- A frame that does not signal HANDOVER leaves the pair with what it says. -/
theorem takeFrame_of_no_handover {flags : Nat} {s : State} (h : flags.testBit 1 = false ∨ s.pair.role = .active) (a : Bool)
    (cause progress : Nat) : takeFrame a flags cause progress s =
      (let push := fun (l : Heard) => (now s, progress) :: l.filter fun e => decide (now s ≤ e.1 + 1200)
       let t := modPair (fun p => { p with heardA := if a then push p.heardA else p.heardA,
                                           heardB := if a then p.heardB else push p.heardB,
                                           partnerRole := roleOf (bitsOf flags 3 2) }) s
       if flags.testBit 0 && !s.pair.partnerDying then
         bobPost (if a then 0x1A else 0x1B) 0x0019 cause (modPair (fun p => { p with partnerDying := true, lastCause := cause }) t)
       else t) := by
  unfold takeFrame
  extract_lets push t u
  have hrole : u.pair.role = s.pair.role := by
    unfold u
    split <;> rfl
  refine (if_neg ?_).trans rfl
  rw [hrole]
  rcases h with h | h <;> simp [h]

/-- A valid Halyard A frame at an active whose mode byte is not UNPAIRED. -/
theorem frameARx_of_valid {f : BitVec 256} {s : State} (hon : hubOn s = true) (hbound : bound s = true) (hup : s.pair.linkUp = true)
    (hcrc : crc32c 28 (f.toNat % 2 ^ 224) = bytesAt f 0x1C 4) (hid : bytesAt f 4 4 = s.pair.pairId.toNat) (hmode : bytesAt f 3 1 ≠ 0)
    (hrole : s.pair.role = .active) : frameARx f s = takeFrame true (bytesAt f 1 1) (bytesAt f 2 1) (bytesAt f 0x10 8)
      (stepFree (modPair (fun p => { p with offset := offsetEstimate s (bytesAt f 8 8) }) s)) := by
  have hlater (t : State) (h : t.pair.role = .active) : followMode (bytesAt f 3 1) t = t := if_pos (.inr (.inl h))
  refine (if_neg ?_).trans ((if_neg hmode).trans (hlater _ ?_))
  · rw [hon, hbound, hup, decide_eq_false (not_not.2 hcrc), decide_eq_false (not_not.2 hid)]
    decide
  · rw [takeFrame_of_no_handover (.inr (by exact hrole))]
    dsimp only
    split <;> exact hrole

/-- An active that hears DYING records it and its cause. -/
theorem takeFrame_of_dying {flags : Nat} {s : State} (hrole : s.pair.role = .active) (hflag : flags.testBit 0 = true)
    (hdying : s.pair.partnerDying = false) (cause progress : Nat) : ∃ b l, takeFrame true flags cause progress s = { s with
      pair := { s.pair with heardA := (now s, progress) :: l, partnerRole := roleOf (bitsOf flags 3 2), partnerDying := true, lastCause := cause }
      bob := b } := by
  rw [takeFrame_of_no_handover (.inr hrole)]
  exact ⟨_, _, if_pos (by rw [hflag, hdying]; rfl)⟩

/-- Settles O44: frames by `takeFrame`, the loss of the partner by `takeover_solo` and `active_alone`. -/
theorem halyards : Obligations.Halyards := by
  unfold Obligations.Halyards
  intro s
  refine ⟨?beat, ?frameA, ?frameB, ?lost⟩
  case beat =>
    intro hclk hbound hdue hnone
    exact ⟨_, congrArg Host.Outcome.next (heartbeat_sends hclk hbound hdue hnone), rfl, rfl, rfl⟩
  case frameA =>
    intro f hon hbound hup
    refine ⟨fun hcrc => congrArg Host.Outcome.next (if_pos (by rw [decide_eq_true hcrc]; simp)), fun hcrc hid hrole hmode hflag hdying => ?_⟩
    have hrx := frameARx_of_valid hon hbound hup hcrc hid hmode hrole
    obtain ⟨b, l, e⟩ := takeFrame_of_dying (s := stepFree (modPair (fun p => { p with offset := offsetEstimate s (bytesAt f 8 8) }) s))
      hrole hflag hdying (bytesAt f 2 1) (bytesAt f 0x10 8)
    exact ⟨_, congrArg Host.Outcome.next (hrx.trans e), rfl, rfl, rfl, rfl, rfl, rfl⟩
  case frameB =>
    intro n l f hf hon hbound
    have hrx : frameBRx n l s = if !(hubOn s && bound s) || crc32c 12 (f.toNat % 2 ^ 96) ≠ bytesAt f 0xC 4 ||
        bytesAt f 2 2 ≠ s.pair.pairId.toNat % 2 ^ 16 then s else takeFrame false (bytesAt f 0 1) (bytesAt f 1 1) (bytesAt f 4 4) s := by
      unfold frameBRx
      rw [hf]
    refine ⟨fun hcrc => congrArg Host.Outcome.next (hrx.trans (if_pos (by rw [decide_eq_true hcrc]; simp))), fun hcrc hid hhandover hdying => ?_⟩
    refine congrArg Host.Outcome.next (hrx.trans ((if_neg ?_).trans ?_))
    · rw [hon, hbound, decide_eq_false (not_not.2 hcrc), decide_eq_false (not_not.2 hid)]
      decide
    · rw [takeFrame_of_no_handover (.inl hhandover)]
      exact if_neg (by simp [hdying])
  case lost =>
    intro hon hgone hquiet hmode
    refine ⟨fun hrole => ?_, fun hrole => ?_⟩
    · obtain ⟨hactive, hsolo, htime, hresults, hsetups, hsent⟩ := takeover_solo s
      refine ⟨_, congrArg Host.Outcome.next (partnerLost_of_standby hon hgone hquiet hmode hrole), hactive, hsolo, htime, hresults,
        hsetups, fun slot e he hmirror hlive hnone => ?_⟩
      rw [hsent]
      exact takenOver_armed hnone he hmirror hlive
    · obtain ⟨t, rfl, hactive, hsolo, hresilver, hswitching, hunacked⟩ := active_alone s
      exact ⟨_, congrArg Host.Outcome.next (partnerLost_of_active hon hgone hquiet hmode hrole), hactive, hsolo, hresilver, hswitching,
        hunacked⟩

end Sys2Proof.Machine

namespace Sys2Proof.Machine

/-! ### Resilvering (10 R332, R333) -/

theorem Told.foldl {α : Type} {f : State → α → State} (h : ∀ s x, Told s (f s x)) (l : List α) (s : State) : Told s (l.foldl f s) :=
  List.foldlRecOn l f (motive := Told s) (.refl s) fun t ht x _ => ht.trans (h t x)

theorem emit_told (x : Tx) (s : State) : Told s (emit x s) := ⟨_, _, _, _, _, _, rfl⟩

theorem copyPhase_told (n : Nat) (s : State) : Told s (copyPhase n s) := by
  unfold copyPhase
  split
  · refine ((Told.foldl (fun t e => ?_) _ s).trans (.foldl (fun t e => ?_) _ _)).trans (.foldl (fun t e => ?_) _ _)
    · exact tell_told ..
    · split
      · exact .refl t
      · exact tell_told ..
    · exact tellReq_told ..
  · refine (((emit_told _ s).trans (.foldl (fun t e => ?_) _ _)).trans (.foldl (fun t e => ?_) _ _)).trans (.foldl (fun t e => ?_) _ _)
    · exact tell_told ..
    · exact tellFence_told ..
    · exact tellSeq_told ..
  · exact .foldl (fun t e => .foldl (fun u j => tell_told ..) _ t) _ s
  · exact .refl s

/-- Records are sent after what is on its way already. -/
theorem mem_tx_tell {x : Tx} {s : State} (h : x ∈ s.tx) (b : RecBody) (key slot : Nat) (t : Option Nat) : x ∈ (tell b key slot t s).tx := by
  unfold tell
  split
  · exact List.mem_append_left _ h
  · exact h

theorem mem_tx_foldl {α : Type} {f : State → α → State} {x : Tx} (hf : ∀ t e, x ∈ t.tx → x ∈ (f t e).tx) (l : List α) {s : State}
    (h : x ∈ s.tx) : x ∈ (l.foldl f s).tx :=
  List.foldlRecOn l f (motive := fun t => x ∈ t.tx) h fun t ht e _ => hf t e ht

theorem mem_tx_tellFence {x : Tx} {s : State} (h : x ∈ s.tx) (i : Nat) : x ∈ (tellFence i s).tx := by
  unfold tellFence
  split <;> exact mem_tx_tell h ..

theorem mem_tx_tellSeq {x : Tx} {s : State} (h : x ∈ s.tx) (i : Nat) : x ∈ (tellSeq i s).tx := by
  unfold tellSeq
  split
  · split
    · exact mem_tx_tell h ..
    · exact h
  · exact h

/-- Phase 2 sends the copy. -/
theorem copied_mem_copyPhase (s : State) : Tx.copied (copyOf s) ∈ (copyPhase 2 s).tx := by
  have hcopied : Tx.copied (copyOf s) ∈ (emit (.copied (copyOf s)) s).tx := List.mem_append_right _ (List.mem_singleton_self _)
  exact mem_tx_foldl (fun t e h => mem_tx_tellSeq h e.1) _
    (mem_tx_foldl (fun t e h => mem_tx_tellFence h e.1) _ (mem_tx_foldl (fun t e h => mem_tx_tell h ..) _ hcopied))

/-- A state with what the spare adds of its own to a copy taken from another: queues, keys, pages and the rotation. -/
def withOwn (s x : State) : State :=
  { x with queues := s.queues, tenants := s.tenants, sec := s.sec, pages := s.pages, pats := s.pats, halves := s.halves
           sliceAt := s.sliceAt }

theorem withOwn_trans {s t u : State} (h : withOwn s t = s) (g : withOwn t u = t) : withOwn s u = s :=
  (congrArg (withOwn s) g).trans h

theorem withOwn_foldl {α : Type} {f : State → α → State} (h : ∀ s x, withOwn s (f s x) = s) (l : List α) (s : State) :
    withOwn s (l.foldl f s) = s :=
  List.foldlRecOn l f (motive := fun t => withOwn s t = s) rfl fun t ht x _ => withOwn_trans ht (h t x)

theorem bindCopied_frame (k : Copied) (descs : Tbl (BitVec 256)) (s : State) : withOwn s (bindCopied k descs s) = s := by
  refine withOwn_foldl (fun t e => ?_) _ s
  unfold bindQueue
  split
  · rfl
  · split <;> rfl

theorem drawKeys_frame (s : State) : withOwn s (drawKeys s) = s := by
  refine withOwn_foldl (fun t e => ?_) _ s
  rfl

theorem allocPages_frame (h t : Nat) (uses : List PageUse) (s : State) : withOwn s (allocPages h t uses s) = s := by
  unfold allocPages
  rfl

theorem takePages_frame (t : Nat) (n : Nat → Nat) (u : PageUse) (s : State) : withOwn s (takePages t n u s) = s :=
  withOwn_trans (allocPages_frame ..) (allocPages_frame ..)

theorem pagesForCopied_frame (k : Copied) (s : State) : withOwn s (pagesForCopied k s) = s := by
  unfold pagesForCopied
  extract_lets a b c
  have ha : withOwn s a = s := by
    refine withOwn_foldl (fun t e => ?_) _ s
    split
    · exact takePages_frame ..
    · rfl
  have hb : withOwn a b = a := by
    refine withOwn_foldl (fun t e => ?_) _ a
    dsimp only
    split
    · exact withOwn_trans (takePages_frame ..) (takePages_frame ..)
    · exact takePages_frame ..
  have hc : withOwn b c = b := by
    refine withOwn_foldl (fun t e => ?_) _ b
    exact allocPages_frame ..
  refine withOwn_trans (withOwn_trans (withOwn_trans ha hb) hc) (withOwn_foldl (fun t e => ?_) _ c)
  exact allocPages_frame ..

/-- The spare's tables once phase 2 has brought them: what is copied as it is. -/
theorem install_tables (k : Copied) (descs : Tbl (BitVec 256)) (s : State) :
    (install k descs s).fences = k.fences ∧ (install k descs s).accts = k.accts ∧ (install k descs s).seqs = k.seqs ∧
      (install k descs s).parts = k.parts ∧ (install k descs s).streams = k.streams ∧ (install k descs s).apps = k.apps ∧
      (install k descs s).cfg.live = k.cfg ∧ (install k descs s).pair = s.pair := by
  unfold install
  extract_lets own _ t
  have hrotate (u : State) : withOwn u (rotate u) = u := (congrArg (withOwn u) (rotate_frame u) :)
  have h : withOwn t (rotate (pagesForCopied k (bindCopied k descs (drawKeys t)))) = t :=
    withOwn_trans (withOwn_trans (withOwn_trans (drawKeys_frame t) (bindCopied_frame ..)) (pagesForCopied_frame ..)) (hrotate _)
  generalize rotate (pagesForCopied k (bindCopied k descs (drawKeys t))) = u at h
  exact ⟨(congrArg State.fences h :), (congrArg State.accts h :), (congrArg State.seqs h :), (congrArg State.parts h :),
    (congrArg State.streams h :), (congrArg State.apps h :), (congrArg (fun x : State => x.cfg.live) h :), (congrArg State.pair h :)⟩


/-! ### Requests that stop at a boundary or return to ADMITTED (03 R86, 10 R308, R337) -/

theorem setReqState_reqs (slot : Nat) (st : ReqState) (s : State) :
    (setReqState slot st s).reqs = tmod s.reqs slot fun r => { r with st := st } :=
  (congrArg State.reqs (tellReq_told slot _).frame :)

theorem profile_reqs (id index n : Nat) (s : State) : (profile id index n s).reqs = s.reqs := by
  unfold profile
  split <;> rfl

theorem backToAdmitted_reqs_other {j k : Nat} (h : j ≠ k) (s : State) : tget (backToAdmitted k s).reqs j = tget s.reqs j := by
  unfold backToAdmitted
  split
  · rfl
  · dsimp only
    rw [setReqState_reqs, tget_tmod_other _ _ _ _ h, releasePages_reqs]
    exact tget_tmod_other _ _ _ _ h

/-- A request that is not lent stays as it is when lent work is called back. -/
theorem shedLent_reqs_own {slot : Nat} {r : Req} {s : State} (h : tget s.reqs slot = some r) (hown : r.lent = false) :
    tget (shedLent s).reqs slot = some r := by
  refine List.foldlRecOn _ _ (motive := fun t : State => tget t.reqs slot = some r) h fun t ht k _ => ?_
  unfold shedOne
  split
  · next hlent =>
    have hne : slot ≠ k := by
      rintro rfl
      rw [ht] at hlent
      simp [hown] at hlent
    rw [backToAdmitted_reqs_other hne, ht]
  · exact ht

theorem preemptOne_reqs (k : Nat) (r : Req) (s : State) : (preemptOne k r s).reqs =
    if (tget s.reqs k).any (·.st == .running) then tmod s.reqs k fun r => { r with st := .preempted } else s.reqs := by
  unfold preemptOne
  split
  · exact (foldl_keeps State.reqs (fun t c => profile_reqs 0x0104 c 1 t) _ _).trans (setReqState_reqs ..)
  · rfl

theorem preemptAll_reqs_idle {slot : Nat} {r : Req} {s : State} (h : tget s.reqs slot = some r) (hidle : r.st ≠ .running)
    (l : List (Nat × Req)) : tget (preemptAll l s).reqs slot = some r := by
  refine List.foldlRecOn _ _ (motive := fun t : State => tget t.reqs slot = some r) h fun t ht e _ => ?_
  rw [preemptOne_reqs]
  split
  · next hrun =>
    have hne : slot ≠ e.1 := by
      rintro rfl
      rw [ht] at hrun
      exact hidle (by simpa using hrun)
    rw [tget_tmod_other _ _ _ _ hne, ht]
  · exact ht

/-- Each running request of a list stops. -/
theorem preemptAll_preempts {slot : Nat} {r : Req} (hrun : r.st = .running) {l : List (Nat × Req)} (hl : slot ∈ l.map Prod.fst)
    {s : State} (h : tget s.reqs slot = some r) : tget (preemptAll l s).reqs slot = some { r with st := .preempted } := by
  induction l generalizing s with
  | nil => cases hl
  | cons e l ih =>
    by_cases he : slot = e.1
    · refine preemptAll_reqs_idle ?_ (show ReqState.preempted ≠ .running by decide) l
      rw [preemptOne_reqs, ← he, if_pos (by rw [h]; simp [hrun]), tget_tmod_same, h]
      rfl
    · refine ih ((List.mem_cons.1 hl).resolve_left he) ?_
      rw [preemptOne_reqs]
      split
      · rw [tget_tmod_other _ _ _ _ he, h]
      · exact h

theorem preemptAll_unowed (l : List (Nat × Req)) (s : State) : unowed (preemptAll l s) = unowed s := by
  refine foldl_keeps unowed (fun t e => ?_) l s
  have hprofile (id index n : Nat) (u : State) : unowed (profile id index n u) = unowed u := by
    unfold profile
    split <;> rfl
  unfold preemptOne
  split
  · exact (foldl_keeps unowed (fun u c => hprofile 0x0104 c 1 u) _ _).trans (setReqState_unowed ..)
  · rfl

/-- A HANDOVER leaves requests and the switch-back under way. -/
theorem tryHandover_keeps (s : State) : (tryHandover s).reqs = s.reqs ∧ (tryHandover s).pair.switching = s.pair.switching := by
  unfold tryHandover
  split
  · unfold handOver
    extract_lets t other mine
    have hother : other.reqs = s.reqs ∧ other.pair = t.pair :=
      ⟨foldl_keeps State.reqs (by exact fun _ _ => rfl) _ t, foldl_keeps State.pair (by exact fun _ _ => rfl) _ t⟩
    have hsent := sendFrames_told false { other with arb := { other.arb with cands := other.arb.cands.filter mine }, cmds := other.cmds.filter fun e => e.2.ring = 0 }
    have hswitching : _ = other.pair.switching := (congrArg Pair.switching hsent.unowed :)
    exact ⟨(congrArg State.reqs hsent.frame :).trans hother.1, hswitching.trans (congrArg Pair.switching hother.2 :)⟩
  · exact ⟨rfl, rfl⟩


/-! ### The commands of the pair -/

theorem runActive_of_active {cid op : Nat} {mode : PairMode} {c : Cmd} {s : State} (h : Ready s cid op c) (hmode : s.pair.mode = mode)
    (hrole : s.pair.role = .active) (f : Cmd → State → State) : runActive cid op mode f s = f c s :=
  (runCmd_of_ready h _).trans (if_pos ⟨hmode, hrole⟩)

theorem cmds_begun {cid : Nat} {c : Cmd} {s : State} (h : tget s.cmds cid = some c) (aux : List Nat) :
    tget (begun cid aux s).cmds cid = some { c with phase := .begun, since := now s, aux := aux } := by
  show tget (tmod s.cmds cid _) cid = _
  rw [tget_tmod_same, h]
  rfl

section
variable {cid bytes : Nat} {c : Cmd} {copy : Option Copied} {descs : Tbl (BitVec 256)} {s : State}
  (hrole : s.pair.role = .active) (hlink : (hubOn s && s.pair.linkUp) = true)
include hrole hlink

/-- The state in which a phase that the active ends has been copied. -/
def phaseCopied (cid bytes : Nat) (c : Cmd) (s : State) : State :=
  modPair (fun p => { p with phase := s.pair.phase + 1 })
    (copyPhase s.pair.phase (modCmd cid (fun x => { x with aux := [c.aux.headD 0 + bytes] }) s))

theorem phaseComplete_of_active (hcid : s.pair.resilver = some cid) (hb : Begun s cid 0x0603 c) (hne : s.pair.phase ≠ 4) :
    phaseComplete bytes copy descs s =
      if s.pair.phase < 3 then phaseCopied cid bytes c s
      else done cid 0 (BitVec.ofNat 64 (c.aux.headD 0 + bytes)) (setMode .activeStandby .active
        (modPair (fun p => { p with resilver := none, storeLeft := storedBlocks (phaseCopied cid bytes c s) }) (phaseCopied cid bytes c s))) := by
  unfold phaseComplete
  rw [if_neg (by rw [hlink]; decide), if_neg (by rw [hrole]; decide), if_neg (by rw [hrole]; decide), hcid]
  split
  · next h => exact absurd h hne
  · next hcid' _ =>
    obtain rfl := Option.some.inj hcid'
    dsimp only
    rw [show inProgress s cid 0x0603 = some c from hb]
    rfl
  · next h _ => cases h

end

theorem phaseCopied_keeps {cid bytes : Nat} {c : Cmd} {s : State} (hc : tget s.cmds cid = some c) :
    unowed (phaseCopied cid bytes c s) = { unowed s with phase := s.pair.phase + 1 } ∧
      tget (phaseCopied cid bytes c s).cmds cid = some { c with aux := [c.aux.headD 0 + bytes] } ∧
      { phaseCopied cid bytes c s with pair := s.pair, cmds := s.cmds, tx := s.tx, free := s.free } = s := by
  have htold := copyPhase_told s.pair.phase (modCmd cid (fun x => { x with aux := [c.aux.headD 0 + bytes] }) s)
  unfold phaseCopied
  generalize copyPhase s.pair.phase _ = t at htold
  refine ⟨(congrArg (fun p : Pair => { p with phase := s.pair.phase + 1 }) htold.unowed :), ?_, ?_⟩
  · refine (congrArg (fun l => tget l cid) (congrArg State.cmds htold.frame :)).trans ((tget_tmod_same ..).trans ?_)
    rw [hc]
    rfl
  · exact (congrArg (fun x : State => { x with pair := s.pair, cmds := s.cmds, tx := s.tx, free := s.free }) htold.frame :)

theorem takeWaiting_of_none {s : State} (h : s.pair.waiting = []) (n : Nat) :
    takeWaiting n s = modPair (fun p => { p with waiting := [] }) s := by
  unfold takeWaiting
  rw [h]
  rfl

/-- Phase 2 on a spare for which nothing waits. -/
theorem phaseComplete_of_spare {bytes : Nat} {copy : Option Copied} {descs : Tbl (BitVec 256)} {s : State} {k : Copied}
    (hlink : (hubOn s && s.pair.linkUp) = true) (hrole : s.pair.role = .spare) (hphase : s.pair.phase = 2) (hcopy : copy = some k)
    (hwaiting : s.pair.waiting = []) (hawaiting : s.pair.awaiting = []) : phaseComplete bytes copy descs s =
      modPair (fun p => { p with phase := min 3 (p.phase + 1), waiting := [] }) (install k descs s) := by
  obtain ⟨-, -, -, -, -, -, -, hpair⟩ := install_tables k descs s
  unfold phaseComplete
  rw [if_neg (by rw [hlink]; decide), if_pos (by rw [hrole]; decide)]
  unfold sparePhase
  rw [hphase, hcopy]
  refine (congrArg reportApplied (takeWaiting_of_none ?_ _)).trans (reportApplied_of_none ?_)
  · exact (congrArg Pair.waiting hpair).trans hwaiting
  · exact (congrArg Pair.awaiting hpair).trans hawaiting

/-- Nothing lent is called back in ACTIVE/STANDBY. -/
theorem setMode_activeStandby_frame (r : Role) (s : State) :
    { setMode .activeStandby r s with pair := s.pair, arb := s.arb, health := s.health } = s := by
  have hset : setMode .activeStandby r s = if s.pair.mode = .activeStandby ∧ s.pair.role = r
      then modPair (fun p => { p with mode := .activeStandby, role := r }) s
      else postEvent 4 (modeCode .activeStandby) 0 0 .done (modPair (fun p => { p with mode := .activeStandby, role := r }) s) := rfl
  rw [hset]
  split
  · rfl
  · exact (congrArg (fun x : State => { x with pair := s.pair }) (postEvent_frame ..) :)

/-- Settles O34: the phases by `phaseCopied_keeps` and `install_tables`; the switch-back by `preemptAll_preempts`. -/
theorem pairMaintenance : Obligations.PairMaintenance := by
  unfold Obligations.PairMaintenance
  intro cid c s
  refine ⟨?start, fun bytes copy descs hon hup => ⟨?four, ?active, ?spare, ?brought⟩,
    fun compared sent taken l hmode hrole => ⟨?agreed, ?diverged, ?switchback⟩, ?switched⟩
  case start =>
    intro hready hmode hrole hnone
    have hset := setMode_of_unlent (m := .resilvering) (r := .active)
      (s := modPair (fun p => { p with resilver := some cid, phase := 1 })
        (begun cid [0] { s with tenants := tmap s.tenants fun _ t => { t with keyless := true } }))
      hnone (.inl fun hmode' => nomatch hmode.symm.trans hmode')
    obtain ⟨a, h, e⟩ := postEvent_arbHealth 4 (modeCode .resilvering) 0 0 .done
      (modPair (fun p => { p with resilver := some cid, phase := 1, mode := .resilvering, role := .active })
        (begun cid [0] { s with tenants := tmap s.tenants fun _ t => { t with keyless := true } }))
    exact ⟨_, congrArg Host.Outcome.next ((runActive_of_active hready hmode hrole _).trans (hset.trans e)), rfl, rfl, rfl, rfl, rfl,
      cmds_begun (cmds_of_begins hready.1) [0], rfl⟩
  case four =>
    intro hrole hphase
    refine congrArg Host.Outcome.next ?_
    unfold phaseComplete
    rw [if_neg (by rw [hon, hup]; decide), if_neg (by rw [hrole]; decide), if_neg (by rw [hrole]; decide), hphase]
    rfl
  case active =>
    intro hrole hcid hb
    have hlink : (hubOn s && s.pair.linkUp) = true := by rw [hon, hup]; rfl
    have hrun := phaseComplete_of_active (bytes := bytes) (copy := copy) (descs := descs) hrole hlink hcid hb
    obtain ⟨hpair, hcmd, hframe⟩ := phaseCopied_keeps (bytes := bytes) (cmds_of_inProgress hb)
    refine ⟨fun hphase => ?_, fun hphase => ?_⟩
    · rw [if_pos (by omega)] at hrun
      refine ⟨_, congrArg Host.Outcome.next (hrun (by omega)), (congrArg Pair.phase hpair :), (congrArg Pair.mode hpair :),
        (congrArg Pair.resilver hpair :).trans hcid, hcmd, fun htwo => ?_, hframe⟩
      unfold phaseCopied
      rw [htwo]
      exact copied_mem_copyPhase (modCmd cid (fun x => { x with aux := [c.aux.headD 0 + bytes] }) s)
    · rw [if_neg (by omega)] at hrun
      have hmode := setMode_unowed .activeStandby .active (modPair (fun p =>
        { p with resilver := none, storeLeft := storedBlocks (phaseCopied cid bytes c s) }) (phaseCopied cid bytes c s))
      have hset := setMode_activeStandby_frame .active (modPair (fun p =>
        { p with resilver := none, storeLeft := storedBlocks (phaseCopied cid bytes c s) }) (phaseCopied cid bytes c s))
      refine ⟨_, congrArg Host.Outcome.next (hrun (by omega)), setMode_mode .., setMode_role .., ?_, (congrArg Pair.resilver hmode :), ?_⟩
      · exact (congrArg Pair.phase hmode :).trans ((congrArg Pair.phase hpair :).trans (congrArg (· + 1) hphase))
      · exact (congrArg (fun x : State => { x with pair := s.pair, cmds := s.cmds, tx := s.tx, free := s.free, arb := s.arb, health := s.health }) hset :).trans
          (congrArg (fun x : State => { x with arb := s.arb, health := s.health }) hframe :)
  case spare =>
    intro hrole hphase
    refine congrArg Host.Outcome.next ?_
    unfold phaseComplete
    rw [if_neg (by rw [hon, hup]; decide), if_pos (by rw [hrole]; decide)]
    unfold sparePhase
    extract_lets next
    split
    · next h => exact absurd h hphase
    · next h => exact absurd h hphase
    · rfl
  case brought =>
    intro k hrole hphase hcopy hwaiting hawaiting
    obtain ⟨hfences, haccts, hseqs, hparts, hstreams, happs, hcfg, hpair⟩ := install_tables k descs s
    exact ⟨_, congrArg Host.Outcome.next (phaseComplete_of_spare (by rw [hon, hup]; rfl) hrole hphase hcopy hwaiting hawaiting),
      (congrArg (fun p : Pair => min 3 (p.phase + 1)) hpair).trans (congrArg (fun n => min 3 (n + 1)) hphase), hfences, haccts, hseqs, hparts, hstreams, happs, hcfg⟩
  case agreed =>
    intro hready hl
    refine congrArg Host.Outcome.next ((runActive_of_active hready hmode hrole _).trans ?_)
    rw [hl]
    rfl
  case diverged =>
    intro hready hl
    refine congrArg Host.Outcome.next ((runActive_of_active hready hmode hrole _).trans ?_)
    unfold auditReply
    rw [if_neg (fun h => hl (List.length_eq_zero_iff.1 h))]
    rfl
  case switchback =>
    intro hready hfree
    have hrun : switchback cid compared [] [] [] s = tryHandover (preemptAll (s.reqs.filter fun e => e.2.st == .running && !e.2.lent)
        (shedLent (modPair (fun p => { p with switching := some cid }) (begun cid [] s)))) :=
      (runActive_of_active hready hmode hrole _).trans ((if_neg (by rw [hfree]; decide)).trans (if_neg fun h => h rfl))
    generalize hstart : modPair (fun p => { p with switching := some cid }) (begun cid [] s) = t at hrun
    obtain ⟨hreqs, hswitching⟩ := tryHandover_keeps (preemptAll (s.reqs.filter fun e => e.2.st == .running && !e.2.lent) (shedLent t))
    refine ⟨_, congrArg Host.Outcome.next hrun, ?_, fun slot r hr hrunning hown => ?_⟩
    · rw [hswitching]
      refine (congrArg Pair.switching ((preemptAll_unowed ..).trans (shedLent_unowed t)) :).trans ?_
      rw [← hstart]
      rfl
    · rw [hreqs]
      refine preemptAll_preempts hrunning ?_ (shedLent_reqs_own (hstart ▸ hr) hown)
      exact List.mem_map_of_mem (f := Prod.fst) (List.mem_filter.2 ⟨mem_of_tget hr, by simp [hrunning, hown]⟩)
  case switched =>
    intro hb hhandover hpartner
    have hrun : switched cid s = done cid 0 0 (setMode .activeStandby .standby
        (modPair (fun p => { p with switching := none, handover := false, leaves := false }) (keepAsCopy s))) := by
      unfold switched
      rw [show inProgress s cid 0x0604 = some c from hb]
      exact if_pos (by rw [hhandover, hpartner]; rfl)
    have hpair := setMode_unowed .activeStandby .standby
      (modPair (fun p => { p with switching := none, handover := false, leaves := false }) (keepAsCopy s))
    refine ⟨_, congrArg Host.Outcome.next hrun, setMode_mode .., setMode_role .., (congrArg Pair.switching hpair :),
      (congrArg Pair.handover hpair :), fun e he => ?_⟩
    rw [(setMode_withdrawn ..).sent] at he
    obtain ⟨x, -, rfl⟩ := List.mem_map.1 he
    rfl

end Sys2Proof.Machine

namespace Sys2Proof.Machine

/-! ### A pattern's SRAM (03 R113, R114) -/

/-- What a load of wanted patterns makes of one: nothing, or, where it is wanted, it holds its SRAM and is wanted no more. -/
def Loaded (p q : Pattern) : Prop :=
  (q.sram = p.sram ∧ q.leaving = p.leaving ∧ q.want = p.want) ∨
    (p.want.isSome = true ∧ q.sram = true ∧ q.leaving = false ∧ q.want = none)

theorem Loaded.refl (p : Pattern) : Loaded p p := .inl ⟨rfl, rfl, rfl⟩

theorem Loaded.trans {p q r : Pattern} (h : Loaded p q) (g : Loaded q r) : Loaded p r := by
  rcases h with ⟨hs, hl, hw⟩ | ⟨hp, hs, hl, hw⟩
  · rcases g with ⟨gs, gl, gw⟩ | ⟨gp, g⟩
    · exact .inl ⟨gs.trans hs, gl.trans hl, gw.trans hw⟩
    · exact .inr ⟨hw ▸ gp, g⟩
  · rcases g with ⟨gs, gl, gw⟩ | ⟨gp, g⟩
    · exact .inr ⟨hp, gs.trans hs, gl.trans hl, gw.trans hw⟩
    · exact .inr ⟨hp, g⟩

/-- Every pattern of `s` is in `t`, loaded or left alone. -/
def PatsLoaded (s t : State) : Prop := ∀ k p, tget s.pats k = some p → ∃ q, tget t.pats k = some q ∧ Loaded p q

theorem PatsLoaded.refl (s : State) : PatsLoaded s s := fun _ p h => ⟨p, h, .refl p⟩

theorem PatsLoaded.trans {s t u : State} (h : PatsLoaded s t) (g : PatsLoaded t u) : PatsLoaded s u := by
  intro k p hp
  obtain ⟨q, hq, hpq⟩ := h k p hp
  obtain ⟨r, hr, hqr⟩ := g k q hq
  exact ⟨r, hr, hpq.trans hqr⟩

theorem PatsLoaded.foldl {α : Type} {f : State → α → State} (h : ∀ s x, PatsLoaded s (f s x)) (l : List α) (s : State) :
    PatsLoaded s (l.foldl f s) :=
  List.foldlRecOn l f (motive := PatsLoaded s) (.refl s) fun t ht x _ => ht.trans (h t x)

theorem modPat_loaded (k : Nat) {f : Pattern → Pattern} (hf : ∀ p, Loaded p (f p)) (s : State) : PatsLoaded s (modPat k f s) := by
  intro j p hp
  by_cases hj : j = k
  · subst hj
    exact ⟨f p, (tget_tmod_same ..).trans (congrArg (Option.map f) hp), hf p⟩
  · exact ⟨p, (tget_tmod_other _ _ _ _ hj).trans hp, .refl p⟩

theorem migrateParts_loaded (s : State) : PatsLoaded s (migrateParts s) := by
  refine .foldl (fun t e => .foldl (fun u o => ?_) _ t) _ s
  unfold migratePart
  split
  · exact .refl u
  · split
    · exact .refl u
    · split
      · exact modPat_loaded _ (by exact fun p => .inl ⟨rfl, rfl, rfl⟩) u
      · exact .refl u

theorem loadWanted_loaded (s : State) : PatsLoaded s (loadWanted s) := by
  have hone (p : Pattern) : Loaded p (if p.want.isSome then { p with sram := true, want := none, leaving := false } else p) := by
    split
    · next h => exact .inr ⟨h, rfl, rfl, rfl⟩
    · exact .refl p
  have hstock (t : State) : PatsLoaded t (stockHalves t) := fun _ p h => ⟨p, h, .refl p⟩
  unfold loadWanted
  extract_lets want
  refine ((PatsLoaded.foldl (fun t e => ?_) want s).trans (hstock _)).trans (migrateParts_loaded _)
  split
  · exact modPat_loaded _ hone t
  · exact .refl t

/-- A pattern that is not wanted keeps what it holds. -/
theorem Loaded.of_unwanted {p q : Pattern} (h : Loaded p q) (hp : p.want = none) :
    q.sram = p.sram ∧ q.leaving = p.leaving ∧ q.want = none := by
  rcases h with ⟨hs, hl, hw⟩ | ⟨hw, -⟩
  · exact ⟨hs, hl, hw.trans hp⟩
  · rw [hp] at hw
    cases hw

theorem Loaded.sram_of_sram {p q : Pattern} (h : Loaded p q) (hp : p.sram = true) : q.sram = true := by
  rcases h with ⟨hs, -⟩ | ⟨-, hs, -⟩
  · exact hs.trans hp
  · exact hs

/-! ### Slices (03 R113) -/

/-- A rotating pattern as a slice's start turns it. -/
def sliceTurn (s : State) (k : Nat) (p : Pattern) : Pattern :=
  if !rotating p then p
  else if (chosen s (patsWith s pinning) (ranking s)).contains k then
    if p.sram then { p with leaving := false, want := none } else { p with want := some (1 + (ranking s).idxOf k) }
  else { p with leaving := p.sram, want := none }

theorem sliceTurn_of_left {s : State} {k : Nat} {p : Pattern} (hrotating : rotating p = true)
    (h : (chosen s (patsWith s pinning) (ranking s)).contains k = false) : sliceTurn s k p = { p with leaving := p.sram, want := none } := by
  unfold sliceTurn
  rw [if_neg (by rw [hrotating]; decide), if_neg (Bool.eq_false_iff.1 h)]

theorem sliceTurn_of_stays {s : State} {k : Nat} {p : Pattern} (hrotating : rotating p = true)
    (h : (chosen s (patsWith s pinning) (ranking s)).contains k = true) (hsram : p.sram = true) :
    sliceTurn s k p = { p with leaving := false, want := none } := by
  unfold sliceTurn
  rw [if_neg (by rw [hrotating]; decide), if_pos h, if_pos hsram]

theorem startSlice_eq (s : State) : startSlice s = loadWanted { s with pats := tmap s.pats (sliceTurn s) } := rfl

/-- A rotating pattern where no slicing is needed. -/
def restTurn (_ : Nat) (p : Pattern) : Pattern :=
  if rotating p then { p with leaving := false, want := if p.sram then none else some 0 } else p

theorem rotate_of_fits {s : State} (h : mustSlice s = false) :
    rotate s = loadWanted { s with sliceAt := none, pats := tmap s.pats restTurn } :=
  if_neg (Bool.eq_false_iff.1 h)

theorem loaded_of_turned {s t : State} {k : Nat} {p : Pattern} {f : Nat → Pattern → Pattern} (h : PatsLoaded t (loadWanted t))
    (ht : t.pats = tmap s.pats f) (hp : tget s.pats k = some p) : ∃ q, tget (loadWanted t).pats k = some q ∧ Loaded (f k p) q :=
  h k (f k p) (by rw [ht, tget_tmap, hp]; rfl)

/-! ### An account's windows (03 R101, R102) -/

theorem window_le {b t : Nat} (w : Nat) (h : b ≤ t) : b + (t - b) / w * w ≤ t := by
  have := Nat.div_mul_le_self (t - b) w
  omega

theorem lt_next_window {b t w : Nat} (hw : w ≠ 0) : t < b + (t - b) / w * w + w := by
  have := Nat.lt_div_mul_add (a := t - b) (Nat.pos_of_ne_zero hw)
  omega

/-- Every window that has started by a tick is applied, and no other. -/
theorem refilled_of_due {a : Account} {t : Tick} (h : a.window + a.fig.windowMs * 100000 ≤ t) : ∃ n : Nat,
    let f := a.pending.getD a.fig
    let w := a.window + a.fig.windowMs * 100000 + n * (f.windowMs * 100000)
    w ≤ t ∧ (f.windowMs ≠ 0 → t < w + f.windowMs * 100000) ∧ refilled a t = { a with
      fig := f, pending := none, window := w, balance := min (min (a.balance + f.refill) f.cap + n * f.refill) f.cap } := by
  refine ⟨(t - (a.window + a.fig.windowMs * 100000)) / ((a.pending.getD a.fig).windowMs * 100000), ?_⟩
  extract_lets f w
  refine ⟨window_le _ h, fun hf => lt_next_window (Nat.mul_ne_zero hf (by decide)), ?_⟩
  unfold refilled
  rw [if_neg (show ¬t < nextWindow a from Nat.not_lt.2 h)]
  extract_lets fig first n
  split
  · next hn =>
    have hn' : (t - (a.window + a.fig.windowMs * 100000)) / (f.windowMs * 100000) = 0 := hn
    unfold w
    rw [hn']
    simp only [Nat.zero_mul, Nat.add_zero, Nat.cast_zero, Int.zero_mul, Int.add_zero, min_assoc, min_self]
    rfl
  · rfl

/-- Settles O15: windows by `refilled_of_due`, slices and releases by what `loadWanted` does to a pattern. -/
theorem windowsAndSlices : Obligations.WindowsAndSlices := by
  unfold Obligations.WindowsAndSlices
  intro s
  refine ⟨fun i a ha => ⟨fun hdue => ?started, fun hearly => ?notYet⟩, fun t0 hat hlt => ⟨fun hturn => ?slice, fun hbetween => ?between⟩,
    fun i p hp hleaving => ⟨fun hidle hwant => ?released, fun hbusy => ?busy⟩⟩
  case started =>
    obtain ⟨n, hw, hnext, e⟩ := refilled_of_due hdue
    have hrun : budgetRefill i s = tell (.budget (refilled a (now s)).balance (refilled a (now s)).window) i 0 (some a.tenant)
        { s with accts := tset s.accts i (refilled a (now s)) } := by
      unfold budgetRefill
      rw [ha]
      exact if_neg (Nat.not_lt.2 hdue)
    have htold := (tell_told (.budget (refilled a (now s)).balance (refilled a (now s)).window) i 0 (some a.tenant)
      { s with accts := tset s.accts i (refilled a (now s)) }).frame
    refine ⟨_, n, congrArg Host.Outcome.next hrun, hw, hnext, ?_, ?_⟩
    · exact (congrArg State.accts htold :).trans (congrArg (tset s.accts i) e)
    · exact (congrArg (fun x : State => { x with accts := s.accts }) htold :)
  case notYet =>
    refine congrArg Host.Outcome.next ?_
    unfold budgetRefill
    rw [ha]
    exact if_pos hearly
  case slice =>
    have hrun : sliceStart s = if mustSlice s then startSlice s else rotate s := by
      unfold sliceStart
      rw [hat]
      exact if_pos ⟨hlt, hturn⟩
    cases hmust : mustSlice s with
    | true =>
      rw [hmust, if_pos rfl] at hrun
      have hloaded := loadWanted_loaded { s with pats := tmap s.pats (sliceTurn s) }
      have hframe := loadWanted_frame { s with pats := tmap s.pats (sliceTurn s) }
      refine ⟨_, congrArg Host.Outcome.next (hrun.trans (startSlice_eq s)), fun k p hp hrotating => ?_,
        (congrArg State.sliceAt hframe :).trans hat,
        (congrArg (fun x : State => { x with pats := s.pats, halves := s.halves, sliceAt := s.sliceAt }) hframe :)⟩
      obtain ⟨q, hq, hpq⟩ := loaded_of_turned hloaded rfl hp
      refine ⟨q, hq, fun _ hleft => ?_, fun _ hchosen hsram => ?_, fun h => nomatch h⟩
      · rw [sliceTurn_of_left hrotating hleft] at hpq
        exact hpq.of_unwanted rfl
      · rw [sliceTurn_of_stays hrotating hchosen hsram] at hpq
        obtain ⟨hs, hl, hw⟩ := hpq.of_unwanted rfl
        exact ⟨hs.trans hsram, hl, hw⟩
    | false =>
      rw [hmust, if_neg (by decide), rotate_of_fits hmust] at hrun
      have hloaded := loadWanted_loaded { s with sliceAt := none, pats := tmap s.pats restTurn }
      have hframe := loadWanted_frame { s with sliceAt := none, pats := tmap s.pats restTurn }
      refine ⟨_, congrArg Host.Outcome.next hrun, fun k p hp hrotating => ?_, (congrArg State.sliceAt hframe :),
        (congrArg (fun x : State => { x with pats := s.pats, halves := s.halves, sliceAt := s.sliceAt }) hframe :)⟩
      obtain ⟨q, hq, hpq⟩ := loaded_of_turned hloaded rfl hp
      rw [restTurn, if_pos hrotating] at hpq
      refine ⟨q, hq, (fun h => nomatch h), (fun h => nomatch h), fun _ => ⟨?_, fun hsram => hpq.sram_of_sram hsram⟩⟩
      rcases hpq with ⟨-, hl, -⟩ | ⟨-, -, hl, -⟩
      · exact hl
      · exact hl
  case between =>
    refine congrArg Host.Outcome.next ?_
    unfold sliceStart
    rw [hat]
    exact if_neg fun h => hbetween h.2
  case released =>
    have hrun : sramRelease i s = loadWanted (modPat i (fun p => { p with sram := false, leaving := false }) s) := by
      unfold sramRelease
      rw [hp]
      exact if_pos (by rw [hleaving, hidle]; rfl)
    have hloaded := loadWanted_loaded (modPat i (fun p => { p with sram := false, leaving := false }) s)
    obtain ⟨q, hq, hpq⟩ := hloaded i { p with sram := false, leaving := false } ((tget_tmod_same ..).trans (congrArg _ hp))
    obtain ⟨hsram, hleft, -⟩ := hpq.of_unwanted hwant
    refine ⟨_, q, congrArg Host.Outcome.next hrun, hq, hsram, hleft, fun k x hk hx hxsram => ?_, ?_⟩
    · obtain ⟨y, hy, hxy⟩ := hloaded k x ((tget_tmod_other _ _ _ _ hk).trans hx)
      exact (congrArg (Option.map _) hy).trans (congrArg some (hxy.sram_of_sram hxsram))
    · exact (congrArg (fun x : State => { x with pats := s.pats, halves := s.halves }) (loadWanted_frame _) :)
  case busy =>
    refine congrArg Host.Outcome.next ?_
    unfold sramRelease
    rw [hp]
    exact if_neg (by rw [hbusy]; simp)

end Sys2Proof.Machine

namespace Sys2Proof.Machine

/-! ### Admission (03 R80, R105) -/

/-- A state with what an admission touches beside the request's own tables taken from another: the rotation, the picture it names and the
records sent. -/
def withTellings (s x : State) : State :=
  { x with apps := s.apps, pats := s.pats, halves := s.halves, sliceAt := s.sliceAt, streams := s.streams, pair := s.pair, tx := s.tx
           free := s.free }

theorem withTellings_trans {s t u : State} (h : withTellings s t = s) (g : withTellings t u = t) : withTellings s u = s :=
  (congrArg (withTellings s) g).trans h

theorem Told.withTellings {s t : State} (h : Told s t) : withTellings s t = s := (congrArg (Machine.withTellings s) h.frame :)

/-- The state of an admitted request's own tables. -/
def placed (cid : Nat) (c : Cmd) (r : Ring) (pi : Nat) (pat : Pattern) (io tree : Nat) (s : State) : State :=
  let made := openSeq s c.pkt pi (r.tenant.getD 0)
  let seqIdx := if newSeq c.pkt then some made.1 else
    if opcodeOf c.pkt = 0x0202 ∨ opcodeOf c.pkt = 0x0203 then some (le c.pkt 32 4 % 2 ^ 18) else none
  let q := newReq s cid c r pi pat io tree (freeSlot s) seqIdx
  let s' := { s with
    accts := tmod s.accts r.account fun a => { a with balance := a.balance - q.charged, lastAdmit := some (now s) }
    seqs := if newSeq c.pkt then tset s.seqs made.1 made.2 else s.seqs, nextReq := s.nextReq + 1
    reqs := tset s.reqs (freeSlot s) q, cmds := tdel s.cmds cid }
  { s' with sent := { s.sent with entries := tset s.sent.entries (freeSlot s) (newEntry q (reqSeqHandle s' q) (hemLead pat)) } }

/-- What an admission tells the rotation, the picture it names and the partner. -/
def placedTold (q : Req) (opened : Bool) (i slot : Nat) (s : State) : State :=
  let s := match q.adapt, q.applique with
    | some a, some (i, _) =>
      if a.apply then rotate (modApp i (fun x => { x with place := some (.req slot), nextBytes := x.bytes }) s) else s
    | _, _ => s
  let s := match q.picture with
    | some (ref, _) => namePicture ref (holdPicture ref (· + 1) s)
    | none => s
  let s := if opened then tellSeq i s else s
  tellReq slot s

theorem placedTold_frame (q : Req) (opened : Bool) (i slot : Nat) (s : State) : withTellings s (placedTold q opened i slot s) = s := by
  unfold placedTold
  extract_lets a b c
  have happly (j : Nat) (f : Applique → Applique) : withTellings s (rotate (modApp j f s)) = s :=
    withTellings_trans (t := modApp j f s) rfl (congrArg (withTellings (modApp j f s)) (rotate_frame (modApp j f s)) :)
  have ha : withTellings s a = s := by
    unfold a
    split
    · split
      · exact happly ..
      · rfl
    · rfl
  have hb : withTellings a b = a := by
    unfold b
    split
    · have hhold (ref : Nat) (f : Nat → Nat) (t : State) : withTellings t (holdPicture ref f t) = t := by
        unfold holdPicture
        split <;> rfl
      exact withTellings_trans (hhold ..) rfl
    · rfl
  have hc : withTellings b c = b := by
    unfold c
    split
    · exact (tellSeq_told ..).withTellings
    · rfl
  exact withTellings_trans (withTellings_trans (withTellings_trans ha hb) hc) (tellReq_told ..).withTellings

theorem admitWith_eq (cid : Nat) (c : Cmd) (r : Ring) (pi : Nat) (pat : Pattern) (io tree : Nat) (s : State) :
    ∃ q opened i, admitWith cid c r pi pat io tree s = placedTold q opened i (freeSlot s) (placed cid c r pi pat io tree s) :=
  ⟨newReq s cid c r pi pat io tree (freeSlot s) (if newSeq c.pkt then some (openSeq s c.pkt pi (r.tenant.getD 0)).1 else
    if opcodeOf c.pkt = 0x0202 ∨ opcodeOf c.pkt = 0x0203 then some (le c.pkt 32 4 % 2 ^ 18) else none),
    newSeq c.pkt, (openSeq s c.pkt pi (r.tenant.getD 0)).1, rfl⟩

/-! ### A fetched request that is first of its ring (02 R58, 03 R80, R103) -/

section
variable {op cid : Nat} {b : Blocks} {i : Instr} {c : Cmd} {r : Ring} {s : State} (hi : admits op cid b = some i)
  (hc : begins s cid op = some c) (hr : tget s.rings c.ring = some r) (hstop : stopping s = false) (hheld : heldUnbound s = false)
  (hfirst : firstUnadmitted s cid c.ring = true) (hpicked : namesPicked s c r b = false)
include hi hc

theorem exec_of_admits : exec i s = .next (admitRequest cid b s) := by
  have hrun : admitAs op cid b s = admitRequest cid b s := by
    unfold admitAs
    rw [hc]
  unfold admits at hi
  split at hi
  · next hop =>
    cases hi
    exact congrArg Host.Outcome.next (hop ▸ hrun)
  · split at hi
    · next hop =>
      cases hi
      exact congrArg Host.Outcome.next (hop ▸ hrun)
    · split at hi
      · next hop =>
        cases hi
        exact congrArg Host.Outcome.next (hop ▸ hrun)
      · split at hi
        · next hop =>
          cases hi
          exact congrArg Host.Outcome.next (hop ▸ hrun)
        · cases hi

omit hi in
theorem begins_spec : tget s.cmds cid = some c ∧ hubRuns s = true ∧ ending s = false ∧ c.phase = .ready ∧ opcodeOf c.pkt = op := by
  have hcmd := cmds_of_begins hc
  unfold begins at hc
  rw [hcmd] at hc
  dsimp only at hc
  split at hc
  · next h => exact ⟨hcmd, h⟩
  · cases hc

include hr hstop hheld hfirst hpicked

theorem admitRequest_of_first : admitRequest cid b s =
    match admitCheck (budgetRefill r.account s) c r b with
    | .inl (pi, pat, io, tree) => admitWith cid c r pi pat io tree (budgetRefill r.account s)
    | .inr (st, d, v) => finish cid st d v 0 .none (budgetRefill r.account s) := by
  obtain ⟨hcmd, hruns, hends, hready, _⟩ := begins_spec hc
  unfold admitRequest
  rw [hcmd]
  dsimp only
  rw [hr]
  dsimp only
  refine (if_neg ?_).trans ((if_neg (Bool.eq_false_iff.1 hstop)).trans (if_neg (Bool.eq_false_iff.1 hheld)))
  rw [hruns, hends, hfirst, hpicked, hready]
  decide

end

theorem budgetRefill_frame (k : Nat) (s : State) : { budgetRefill k s with accts := s.accts, pair := s.pair, tx := s.tx, free := s.free } = s := by
  unfold budgetRefill
  split
  · rfl
  · next a _ =>
    split
    · rfl
    · exact (congrArg (fun x : State => { x with accts := s.accts })
        (tell_told _ k 0 (some a.tenant) { s with accts := tset s.accts k (refilled a (now s)) }).frame :)


theorem budgetRefill_changes (k : Nat) (s : State) :
    ∃ a p x f, budgetRefill k s = { s with accts := a, pair := p, tx := x, free := f } :=
  ⟨_, _, _, _, (congrArg (fun x : State => { x with
    accts := (budgetRefill k s).accts, pair := (budgetRefill k s).pair, tx := (budgetRefill k s).tx, free := (budgetRefill k s).free })
    (budgetRefill_frame k s) :)⟩

/-- Settles O17. -/
theorem requestsRefused : Obligations.RequestsRefused := by
  unfold Obligations.RequestsRefused
  intro op cid b i c r st d v s hi hc hr hstop hheld hfirst hpicked hcheck
  have hrun := admitRequest_of_first hi hc hr hstop hheld hfirst hpicked
  rw [hcheck] at hrun
  obtain ⟨a, p, x, f, e⟩ := budgetRefill_changes r.account s
  have hframe := finish_frame cid st d v 0 .none (budgetRefill r.account s)
  refine ⟨_, rfl, (exec_of_admits hi hc).trans (congrArg Host.Outcome.next hrun), ?_, (congrArg State.accts hframe :), ?_, ?_⟩
  · exact (congrArg State.reqs hframe :).trans (congrArg State.reqs e :)
  · exact (congrArg State.seqs hframe :).trans (congrArg State.seqs e :)
  · exact (congrArg State.sent hframe :).trans (congrArg State.sent e :)

/-- Settles O16: the request's own tables by `placed`, the rest by `placedTold_frame`. -/
theorem requestsAdmitted : Obligations.RequestsAdmitted := by
  unfold Obligations.RequestsAdmitted
  intro op cid b i c r pi p io tree s hi hc hr hstop hheld hfirst hpicked hcheck
  obtain ⟨-, -, -, -, hop⟩ := begins_spec hc
  have hrun := admitRequest_of_first hi hc hr hstop hheld hfirst hpicked
  rw [hcheck] at hrun
  obtain ⟨q, opened, j, htold⟩ := admitWith_eq cid c r pi p io tree (budgetRefill r.account s)
  have hframe := placedTold_frame q opened j (freeSlot (budgetRefill r.account s)) (placed cid c r pi p io tree (budgetRefill r.account s))
  rw [← htold] at hframe
  have hexec := (exec_of_admits hi hc).trans (congrArg Host.Outcome.next hrun)
  dsimp only at hexec
  clear htold hrun hcheck
  generalize admitWith cid c r pi p io tree (budgetRefill r.account s) = t at hframe hexec
  obtain ⟨a, pr, x, f, e⟩ := budgetRefill_changes r.account s
  rw [e] at hframe ⊢
  have hrest := congrArg (fun x : State => { x with
    reqs := s.reqs, nextReq := s.nextReq, cmds := s.cmds, accts := s.accts, sent := s.sent, seqs := s.seqs, apps := s.apps, pats := s.pats
    halves := s.halves, sliceAt := s.sliceAt, streams := s.streams, pair := s.pair, tx := s.tx, free := s.free }) hframe
  refine ⟨t, _, _, hexec, (congrArg State.reqs hframe :), rfl, rfl, hop, rfl, rfl, rfl, rfl, rfl, rfl, rfl, rfl, rfl, rfl,
    (congrArg State.nextReq hframe :), (congrArg State.cmds hframe :), (congrArg State.accts hframe :), (congrArg State.sent hframe :), rfl, rfl,
    rfl, rfl, (hrest :)⟩

end Sys2Proof.Machine

namespace Sys2Proof.Machine

/-! ### An appliqué that drains (03 R116, R118) -/

/-- A state with what a drained appliqué's release touches taken from another. -/
def withDrained (s x : State) : State :=
  { withPages s x with apps := s.apps, appGens := s.appGens, pats := s.pats, sliceAt := s.sliceAt }

theorem withDrained_trans {s t u : State} (h : withDrained s t = s) (g : withDrained t u = t) : withDrained s u = s :=
  (congrArg (withDrained s) g).trans h

/-- Pages freed, an event, and the rotation. -/
theorem rotate_event_frame (p : PageUse → Bool) (code object detail : Nat) (v : BitVec 64) (st : Status) (s : State) :
    withDrained s (rotate (postEvent code object detail v st (freePagesOf p s))) = s := by
  have hfree : withDrained s (freePagesOf p s) = s :=
    (congrArg (fun x : State => { x with apps := s.apps, appGens := s.appGens, pats := s.pats, sliceAt := s.sliceAt }) (freePagesOf_frame p s) :)
  have hpost (t : State) : withDrained t (postEvent code object detail v st t) = t := (congrArg (withDrained t) (postEvent_frame ..) :)
  have hrotate (t : State) : withDrained t (rotate t) = t := (congrArg (withDrained t) (rotate_frame t) :)
  exact withDrained_trans (withDrained_trans hfree (hpost _)) (hrotate _)

theorem drainApplique_frame (i : Nat) (s : State) : withDrained s (drainApplique i s) = s := by
  have hprevious : withDrained s (drainPrevious i s) = s := by
    unfold drainPrevious
    split
    · rfl
    · split
      · rfl
      · split
        · rfl
        · exact withDrained_trans (t := modApp i _ s) rfl (rotate_event_frame ..)
  have hretired (t : State) : withDrained t (freeRetired i t) = t := by
    unfold freeRetired
    split
    · rfl
    · next a _ =>
      split
      · exact withDrained_trans (t := { t with apps := tdel t.apps i, appGens := tset t.appGens i (nextGen 62 a.gen) }) rfl
          (rotate_event_frame ..)
      · rfl
  exact withDrained_trans hprevious (hretired _)

/-! ### Retirement (03 R77, R103, R107, R108) -/

theorem holdPicture_frame (ref : Nat) (f : Nat → Nat) (s : State) : { holdPicture ref f s with streams := s.streams } = s := by
  unfold holdPicture
  split <;> rfl

/-- A retiring request whose account has been reconciled, its pages, its hold on a picture and its slot given up. -/
def slotFreed (slot : Nat) (r : Req) (s : State) : State :=
  let s := releasePages slot r s
  let s := match r.picture with
    | some (ref, _) => holdPicture ref (· - 1) s
    | none => s
  let bal := ((tget s.accts r.account).map (·.balance)).getD 0
  let s := tell (.final (r.final.getD .done) bal (committedOf s r)) slot r.order (some r.tenant) s
  { s with reqs := tdel s.reqs slot, reqGens := tset s.reqGens slot (nextGen 65535 r.gen),
           sent := { s.sent with entries := tdel s.sent.entries slot } }

/-- What the slot's release ends: a hold on an appliqué and on a key generation. -/
def holdsEnded (r : Req) (s : State) : State :=
  retireKeys r.tenant (match r.applique with
    | some (i, _) => drainApplique i s
    | none => s)

theorem holdsEnded_frame (r : Req) (s : State) : withDrained s (holdsEnded r s) = s := by
  have hretire (t : State) : withDrained t (retireKeys r.tenant t) = t :=
    (congrArg (fun x : State => { x with apps := t.apps, appGens := t.appGens, pats := t.pats, sliceAt := t.sliceAt }) (retireKeys_frame r.tenant t) :)
  unfold holdsEnded
  refine withDrained_trans ?_ (hretire _)
  split
  · exact drainApplique_frame ..
  · rfl

theorem slotFreed_tables (slot : Nat) (r : Req) (s : State) : (slotFreed slot r s).reqs = tdel s.reqs slot ∧
    (slotFreed slot r s).reqGens = tset s.reqGens slot (nextGen 65535 r.gen) ∧
    (slotFreed slot r s).sent.entries = tdel s.sent.entries slot ∧ (slotFreed slot r s).accts = s.accts := by
  have hpages := releasePages_frame slot r s
  unfold slotFreed
  extract_lets t u bal v
  have hu : { u with streams := t.streams } = t := by
    unfold u
    split
    · exact holdPicture_frame ..
    · rfl
  have hv := (tell_told (.final (r.final.getD .done) bal (committedOf u r)) slot r.order (some r.tenant) u).frame
  let back (x : State) : State := { withPages s x with streams := s.streams, pair := s.pair, tx := s.tx, free := s.free }
  have hall : back v = s := (congrArg back hv :).trans ((congrArg back hu :).trans (congrArg back hpages :))
  exact ⟨(congrArg (fun x : State => tdel x.reqs slot) hall :), (congrArg (fun x : State => tset x.reqGens slot _) hall :),
    (congrArg (fun x : State => tdel x.sent.entries slot) hall :), (congrArg State.accts hall :)⟩

theorem requestRetired_of_retiring {slot : Nat} {r : Req} {s : State} (hr : tget s.reqs slot = some r) (hcopy : holdsCopy s = false)
    (hruns : hubRuns s = true) (hst : r.st = .retiring) (hadmitted : admittedThisTick s r.account = false) :
    requestRetired slot s = holdsEnded r (slotFreed slot r { budgetRefill r.account s with
      accts := tmod (budgetRefill r.account s).accts r.account fun a => { a with balance := reconcile a r.charged r.used } }) := by
  unfold requestRetired
  rw [hr]
  refine (if_neg ?_).trans rfl
  rw [hst, hcopy, hruns, hadmitted]
  decide

/-- The positions and tokens that ran are counted for a request that was cut short. -/
def cutShort (full : Bool) (ran : Nat) (r : Req) : Req := if r.ran && !full then countUse ran r else r

/-- Settles O14: the units' stop by `countUse`, the retirement by what its slot's release and the holds it ends leave alone. -/
theorem requestsRetired : Obligations.RequestsRetired := by
  unfold Obligations.RequestsRetired
  intro slot r s hr hcopy hruns
  refine ⟨fun ran hst => ?stopped, fun hst hadmitted => ?retired⟩
  case stopped =>
    have hrun : unitsStopped slot ran s =
        setReqState slot .retiring (modReq slot (cutShort ((r.result.map (·.1)) == some .done) ran) s) := by
      unfold unitsStopped
      rw [hr]
      refine (if_neg ?_).trans rfl
      rw [hst, hcopy, hruns]
      decide
    have htold := (tellReq_told slot (modReq slot (fun r => { r with st := .retiring })
      (modReq slot (cutShort ((r.result.map (·.1)) == some .done) ran) s))).frame
    refine ⟨_, congrArg Host.Outcome.next hrun, ?_, (congrArg (fun x : State => { x with reqs := s.reqs }) htold :)⟩
    rw [setReqState_reqs, tget_tmod_same, show tget (modReq slot _ s).reqs slot = _ from tget_tmod_same .., hr]
    refine congrArg some ?_
    show ({ cutShort _ ran r with st := .retiring } : Req) = _
    by_cases h : r.ran = false ∨ r.result.map (·.1) = some .done
    · have hfull : (r.ran && !((r.result.map (·.1)) == some .done)) = false := by
        rcases h with h | h <;> simp [h]
      rw [if_pos h, cutShort, hfull]
      rfl
    · have hcut : (r.ran && !((r.result.map (·.1)) == some .done)) = true := by
        rw [not_or] at h
        simp [h.1, h.2]
      rw [if_neg h, cutShort, hcut]
      rfl
  case retired =>
    have hrun := requestRetired_of_retiring hr hcopy hruns hst hadmitted
    obtain ⟨a, p, x, f, e⟩ := budgetRefill_changes r.account s
    generalize hu : { budgetRefill r.account s with
      accts := tmod (budgetRefill r.account s).accts r.account fun a => { a with balance := reconcile a r.charged r.used } } = u at hrun
    obtain ⟨hreqs, hgens, hentries, haccts⟩ := slotFreed_tables slot r u
    have hframe := holdsEnded_frame r (slotFreed slot r u)
    generalize slotFreed slot r u = v at hrun hreqs hgens hentries haccts hframe
    refine ⟨_, congrArg Host.Outcome.next hrun, ?_, ?_, ?_, ?_⟩
    · rw [show (holdsEnded r v).reqs = v.reqs from (congrArg State.reqs hframe :), hreqs, tget_tdel_same]
    · rw [show (holdsEnded r v).reqGens = v.reqGens from (congrArg State.reqGens hframe :), hgens, tget_tset_same]
      rfl
    · rw [show (holdsEnded r v).sent = v.sent from (congrArg State.sent hframe :), hentries, tget_tdel_same]
    · rw [show (holdsEnded r v).accts = v.accts from (congrArg State.accts hframe :), haccts, ← hu]

end Sys2Proof.Machine

namespace Sys2Proof.Machine

/-! ### What a dispatch touches beside the request's entry -/

/-- A state with what a dispatch touches beside the request table taken from another. -/
def withRun (s x : State) : State :=
  { x with pages := s.pages, cores := s.cores, halves := s.halves, stages := s.stages, mem := s.mem, svc := s.svc, tx := s.tx
           free := s.free }

theorem withRun_trans {s t u : State} (h : withRun s t = s) (g : withRun t u = t) : withRun s u = s := (congrArg (withRun s) g).trans h

theorem withRun_foldl {α : Type} {f : State → α → State} (h : ∀ s x, withRun s (f s x) = s) (l : List α) (s : State) :
    withRun s (l.foldl f s) = s :=
  List.foldlRecOn l f (motive := fun t => withRun s t = s) rfl fun t ht x _ => withRun_trans ht (h t x)

theorem armCores_frame (slot : Nat) (r : Req) (s : State) : { armCores slot r s with cores := s.cores } = s := by
  unfold armCores
  extract_lets parents tree arm
  exact List.foldlRecOn _ _ (motive := fun t : State => { t with cores := s.cores } = s) rfl fun t ht k _ => ht

/-- A sequence's page lists are bytes of LPDDR4X. -/
theorem storeLists_mem (i : Nat) (s : State) : { storeLists i s with mem := s.mem } = s := by
  unfold storeLists
  extract_lets put
  have hput (t : State) (h : Nat) (ht : { t with mem := s.mem } = s) : { put t h with mem := s.mem } = s := by
    unfold put
    extract_lets mine ws
    exact List.foldlRecOn _ _ (motive := fun u : State => { u with mem := s.mem } = s) ht fun u hu e _ => hu
  exact hput _ 1 (hput s 0 rfl)

theorem heatPages_withRun (i base : Nat) (ls : List AttnLayer) (s : State) : withRun s (heatPages i base ls s) = s := by
  unfold heatPages
  extract_lets hit heat cold t l put
  refine withRun_trans (t := put (put t 0) 1) rfl ?_
  exact (congrArg (withRun (put (put t 0) 1)) (storeLists_mem i (put (put t 0) 1)) :)

theorem traceReq_changes (code handle : Nat) (s : State) :
    ∃ v x f, traceReq code handle s = { s with svc := v, tx := x, free := f } := by
  unfold traceReq
  split
  · unfold traceAny traceRec
    dsimp only
    split
    · exact ⟨_, _, _, rfl⟩
    · split <;> exact ⟨_, _, _, rfl⟩
  · exact ⟨_, _, _, rfl⟩

/-- What counts and traces a dispatch. -/
theorem dispatchCounted_frame (id index n code handle : Nat) (s : State) :
    { traceReq code handle (profile id index n s) with svc := s.svc, tx := s.tx, free := s.free } = s := by
  obtain ⟨v, x, f, e⟩ := traceReq_changes code handle (profile id index n s)
  rw [e]
  exact (congrArg (fun x : State => { x with tx := s.tx, free := s.free }) (profile_frame id index n s) :)

theorem setReqState_withRun (slot : Nat) (st : ReqState) (s : State) :
    withRun s (setReqState slot st s) =
      { s with reqs := tmod s.reqs slot fun r => { r with st := st }, pair := (setReqState slot st s).pair } :=
  (congrArg (fun x : State => { withRun s x with pair := (setReqState slot st s).pair })
    (tellReq_told slot (modReq slot (fun r => { r with st := st }) s)).frame :)


/-- Well-formed prickings go to the halves' pricking stores. -/
theorem takePricks_of_ok {p : Pattern} {pricks : List (Nat × Nat)} (h : ∀ e ∈ reqPricks p pricks, prickOk e.2.1 e.2.2 = true)
    (slot pi : Nat) (s : State) : { takePricks slot p pi pricks s with halves := s.halves } = s := by
  have hnone : (reqPricks p pricks).find? (fun e => !prickOk e.2.1 e.2.2) = none := List.find?_eq_none.2 fun e he => by simp [h e he]
  have hall : takePricks slot p pi pricks s = (reqPricks p pricks).foldl (fun s e => modHalf e.1.1.half (fun x =>
      { x with pricks := x.pricks ++ [{ pattern := pi, slot := some slot, layer := e.1.2, bytes := e.2 }] }) s) s := by
    unfold takePricks
    extract_lets l
    rw [show l.find? (fun e => !prickOk e.2.1 e.2.2) = none from hnone]
  rw [hall]
  exact List.foldlRecOn _ _ (motive := fun t : State => { t with halves := s.halves } = s) rfl fun t ht e _ => ht

/-- Reserved pages and an entry's change are all that a reservation for it touches. -/
theorem reserved_frame (slot t : Nat) (f : Req → Req) (west east : List PageUse) (s : State) :
    { modReq slot f (allocPages 1 t east (allocPages 0 t west s)) with reqs := s.reqs, pages := s.pages } = s := by
  have hpages (h : Nat) (uses : List PageUse) (u : State) : ∃ l, allocPages h t uses u = { u with pages := l } := ⟨_, rfl⟩
  obtain ⟨l, hl⟩ := hpages 0 west s
  obtain ⟨m, hm⟩ := hpages 1 east (allocPages 0 t west s)
  rw [hm, hl]
  rfl

/-- The first malformed pricking ends the request. -/
theorem takePricks_of_bad {p : Pattern} {pricks : List (Nat × Nat)} {e : (AttnLayer × Nat) × Nat × Nat}
    (h : (reqPricks p pricks).find? (fun e => !prickOk e.2.1 e.2.2) = some e) (slot pi : Nat) (s : State) :
    takePricks slot p pi pricks s =
      endReq slot .integrityMismatch (0x8000 + e.1.1.offset) (modReq slot (fun r => { r with stopped := true }) s) := by
  unfold takePricks
  extract_lets l
  rw [show l.find? (fun e => !prickOk e.2.1 e.2.2) = some e from h]

/-! ### Dispatch on this module's cores (03 R85, R107, 05 R156) -/

/-- The entry of a request that is dispatched to a set of cores. -/
def runOn (s : State) (l : List Nat) (p : Pattern) (r : Req) : Req :=
  { r with cores := l, baseLen := committedOf s r, used := r.used + unitTokens p, ran := true, table := tablePath s p, empties := 0 }

/-- A dispatched request's state before its prickings are taken. -/
def dispatched (slot : Nat) (l : List Nat) (r : Req) (p : Pattern) (s : State) : State :=
  let t := armCores slot (runOn s l p r) (beginFrame r.pattern (modReq slot (fun _ => runOn s l p r) s))
  let t := match r.seqIdx with
    | some i => heatPages i (committedOf s r) p.plan.attn t
    | none => t
  traceReq 0x0100 (reqHandle r.gen slot) (profile 0x0105 (dispatcher r) 1 (setReqState slot .running t))

/-- A dispatch makes the request RUNNING; of the pair it touches the records alone. -/
theorem dispatched_frame (slot : Nat) (l : List Nat) (r : Req) (p : Pattern) (s : State) :
    withRun s (dispatched slot l r p s) = { s with
        reqs := tmod (tmod s.reqs slot fun _ => runOn s l p r) slot fun r => { r with st := .running }
        pair := (dispatched slot l r p s).pair } ∧
      unowed (dispatched slot l r p s) = unowed s := by
  unfold dispatched
  extract_lets t u
  have ht : withRun s t = modReq slot (fun _ => runOn s l p r) s :=
    (congrArg (withRun s) (armCores_frame slot (runOn s l p r) (beginFrame r.pattern (modReq slot (fun _ => runOn s l p r) s))) :)
  have hu : withRun t u = t := by
    unfold u
    split
    · exact heatPages_withRun ..
    · rfl
  have hback : withRun s u = modReq slot (fun _ => runOn s l p r) s := (congrArg (withRun s) hu :).trans ht
  have hafter (v : State) : withRun v (traceReq 0x0100 (reqHandle r.gen slot) (profile 0x0105 (dispatcher r) 1 v)) = v :=
    (congrArg (withRun v) (dispatchCounted_frame 0x0105 (dispatcher r) 1 0x0100 (reqHandle r.gen slot) v) :)
  have hstate := setReqState_withRun slot .running u
  have hpair := (setReqState_unowed slot .running u).trans (congrArg unowed hback :)
  generalize setReqState slot .running u = v at hstate hpair
  have hv := hafter v
  generalize traceReq 0x0100 (reqHandle r.gen slot) (profile 0x0105 (dispatcher r) 1 v) = w at hv
  have hsame : w.pair = v.pair := (congrArg State.pair hv :)
  rw [hsame]
  refine ⟨?_, (congrArg unowed hv :).trans hpair⟩
  calc withRun s w
      = withRun s v := (congrArg (withRun s) hv :)
    _ = withRun s { u with reqs := tmod u.reqs slot fun r => { r with st := .running }, pair := v.pair } := (congrArg (withRun s) hstate :)
    _ = _ := (congrArg (fun x : State => { x with reqs := tmod x.reqs slot fun r => { r with st := .running }, pair := v.pair }) hback :)

theorem leftToPartner_of_unowed {s t : State} (h : unowed t = unowed s) (m : Bool) : leftToPartner t m = leftToPartner s m :=
  (congrArg (fun p : Pair => (p.leaves && m) || (p.role == .standby || p.role == .spare || p.copies)) h :)

/-- A request without a final reply, which this module answers, gets its candidate. -/
theorem endReq_of_live {slot : Nat} {r : Req} {s : State} (hr : tget s.reqs slot = some r) (hfinal : r.final = none)
    (hleft : leftToPartner s r.mirror = false) (st : Status) (d : Nat) : ∃ k : Cand,
    endReq slot st d s = { s with arb := { s.arb with cands := s.arb.cands ++ [k] } } ∧ k.target = .req slot ∧ k.status = st ∧
      k.detail = d := by
  refine ⟨reqCand s slot r st d (reqValue s slot r) 0 false, ?_, rfl, rfl, rfl⟩
  unfold endReq
  rw [hr]
  dsimp only
  unfold submit
  show (match tget s.reqs slot with | none => s | some r' => _) = _
  rw [hr]
  dsimp only
  rw [if_neg (fun h => h rfl), hfinal]
  exact (if_neg (by decide)).trans (if_neg (Bool.eq_false_iff.1 hleft))

/-- The entry of a request that the active places on its partner's cores. -/
def lentOut (s : State) (p : Pattern) (r : Req) : Req :=
  { r with cores := [], lent := true, baseLen := committedOf s r, used := r.used + unitTokens p, ran := true, table := false, empties := 0 }

/-- The copy's entry of a request that this module's cores run for the active. -/
def hosted (s : State) (l : List Nat) (p : Pattern) (r : Req) : Req :=
  { r with cores := l, lent := true, st := .running, baseLen := committedOf s r, table := tablePath s p, empties := 0 }

section
variable {slot : Nat} {r : Req} {p : Pattern} {s : State} (hr : tget s.reqs slot = some r) (hp : tget s.pats r.pattern = some p)
include hr hp

theorem requestDispatch_of_free {l : List Nat} (hdispatch : dispatchable s r = true) (hpowered : coresPowered s = true)
    (hroom : inFlight s < 1024) (hrole : s.pair.role ≠ .standby)
    (hset : (coreSets s p).find? (fun l => setFree s r.cls l && !outranked s l r) = some l) (pricks : List (Nat × Nat)) :
    requestDispatch slot pricks false s = takePricks slot p r.pattern pricks (dispatched slot l r p s) := by
  unfold requestDispatch
  rw [hr]
  dsimp only
  rw [hp]
  dsimp only
  rw [if_neg hrole, if_neg (by decide), if_neg (by rw [hdispatch, hpowered, decide_eq_true hroom]; decide), hset]
  rfl

theorem requestDispatch_of_lent (hdispatch : dispatchable s r = true) (hlend : lendable s r = true) (hrole : s.pair.role = .active)
    (hserving : serving s = true) (hswitching : s.pair.switching = none) (hruns : hubRuns s = true) (hroom : inFlight s < 1024)
    (pricks : List (Nat × Nat)) : requestDispatch slot pricks true s = traceReq 0x0100 (reqHandle r.gen slot)
      (profile 0x0105 (dispatcher r) 1 (setReqState slot .running (modReq slot (fun _ => lentOut s p r) s))) := by
  unfold requestDispatch
  rw [hr]
  dsimp only
  rw [hp]
  dsimp only
  rw [if_neg (by rw [hrole]; decide)]
  refine (if_pos rfl).trans (if_pos ?_)
  rw [hdispatch, hlend, hrole, hserving, hswitching, hruns, decide_eq_true hroom]
  rfl

theorem requestDispatch_of_hosted {l : List Nat} (hrole : s.pair.role = .standby) (hst : r.st = .admitted) (hlend : lendable s r = true)
    (hpowered : coresPowered s = true) (hsram : p.sram = true) (hstays : p.leaving = false) (hclear : halvesClear s p = true)
    (hpages : pagesRoom s slot r = true) (hset : (coreSets s p).find? (setFree s r.cls) = some l) (pricks : List (Nat × Nat)) :
    requestDispatch slot pricks true s = takePricks slot p r.pattern pricks (armCores slot (hosted s l p r)
      (modReq slot (fun _ => hosted s l p r)
        (allocPages 1 r.tenant (needPages s slot r 1) (allocPages 0 r.tenant (needPages s slot r 0) s)))) := by
  unfold requestDispatch
  rw [hr]
  dsimp only
  rw [hp]
  dsimp only
  rw [if_pos hrole]
  refine (if_pos rfl).trans ?_
  unfold hostLent
  rw [if_neg (by rw [hst, hlend, hpowered, hsram, hstays, hclear, hpages]; decide), hset]
  rfl

end

/-! ### What a preemption leaves alone (03 R86) -/

theorem preemptAll_frame (l : List (Nat × Req)) (s : State) :
    { preemptAll l s with reqs := s.reqs, svc := s.svc, pair := s.pair, tx := s.tx, free := s.free } = s := by
  refine List.foldlRecOn _ _ (motive := fun t : State =>
    { t with reqs := s.reqs, svc := s.svc, pair := s.pair, tx := s.tx, free := s.free } = s) rfl fun t ht e _ => ?_
  have hprofile (n : Nat) (u : State) : { profile 0x0104 n 1 u with svc := u.svc } = u := profile_frame ..
  unfold preemptOne
  split
  · refine List.foldlRecOn _ _ (motive := fun u : State =>
      { u with reqs := s.reqs, svc := s.svc, pair := s.pair, tx := s.tx, free := s.free } = s) ?_ fun u hu n _ => ?_
    · exact (congrArg (fun x : State => { x with reqs := s.reqs, svc := s.svc, pair := s.pair, tx := s.tx, free := s.free })
        (tellReq_told e.1 (modReq e.1 (fun r => { r with st := .preempted }) t)).frame :).trans ht
    · exact (congrArg (fun x : State => { x with reqs := s.reqs, svc := s.svc, pair := s.pair, tx := s.tx, free := s.free }) (hprofile n u) :).trans hu
  · exact ht

/-- A preemption leaves a request as it is, or stops it. -/
theorem preemptAll_reqs_some {k : Nat} {q : Req} {s : State} (h : tget s.reqs k = some q) (l : List (Nat × Req)) :
    tget (preemptAll l s).reqs k = some q ∨ tget (preemptAll l s).reqs k = some { q with st := .preempted } := by
  refine List.foldlRecOn _ _ (motive := fun t : State => tget t.reqs k = some q ∨ tget t.reqs k = some { q with st := .preempted })
    (.inl h) fun t ht e _ => ?_
  rw [preemptOne_reqs]
  split
  · by_cases hk : k = e.1
    · rw [← hk, tget_tmod_same]
      rcases ht with ht | ht <;> exact .inr (by rw [ht]; rfl)
    · rw [tget_tmod_other _ _ _ _ hk]
      exact ht
  · exact ht

theorem requestReady_of_clear {slot : Nat} {r : Req} {p : Pattern} {s : State} (hr : tget s.reqs slot = some r)
    (hp : tget s.pats r.pattern = some p) (hst : r.st = .admitted) (hready : canLeaveAdmitted s slot r = true) : ∃ l,
    requestReady slot s = preemptAll l (setReqState slot .queued
      (allocPages 1 r.tenant (needPages s slot r 1) (allocPages 0 r.tenant (needPages s slot r 0) s))) := by
  refine ⟨toPreempt (setReqState slot .queued (allocPages 1 r.tenant (needPages s slot r 1)
    (allocPages 0 r.tenant (needPages s slot r 0) s))) r.cls (coreSets (setReqState slot .queued (allocPages 1 r.tenant
    (needPages s slot r 1) (allocPages 0 r.tenant (needPages s slot r 0) s))) p), ?_⟩
  have hpats : (setReqState slot .queued (allocPages 1 r.tenant (needPages s slot r 1) (allocPages 0 r.tenant (needPages s slot r 0) s))).pats =
      s.pats := (congrArg State.pats (setReqState_withRun ..) :)
  unfold requestReady
  rw [hr]
  refine (if_pos ⟨hst, hready⟩).trans ?_
  dsimp only
  rw [hpats, hp]

/-- Settles O11. -/
theorem requestsScheduled : Obligations.RequestsScheduled := by
  unfold Obligations.RequestsScheduled
  intro slot r p s hr hp
  refine ⟨fun hst hready => ?ready, fun l pricks hst hdispatch hpowered hroom hrole hset => ?dispatch, fun pricks hdispatch hlend => ?lent,
    fun l pricks hrole hst hlend hpowered hsram hstays hclear hpages hset hok => ?hosted,
    fun hst hstopped hserves hpowered hnone hturn => ?resumed⟩
  case ready =>
    obtain ⟨l, hrun⟩ := requestReady_of_clear hr hp hst hready
    generalize hu : allocPages 1 r.tenant (needPages s slot r 1) (allocPages 0 r.tenant (needPages s slot r 0) s) = u at hrun
    have hpages : { u with pages := s.pages } = s := by
      rw [← hu]
      rfl
    have hreqs : u.reqs = s.reqs := (congrArg State.reqs hpages :)
    have hqueued := (tellReq_told slot (modReq slot (fun r => { r with st := .queued }) u)).frame
    have hframe := preemptAll_frame l (setReqState slot .queued u)
    refine ⟨_, congrArg Host.Outcome.next hrun, ?_, ?_, fun k hk q hq => ?_, ?_⟩
    · refine preemptAll_reqs_idle ?_ (show ReqState.queued ≠ .running by decide) l
      rw [setReqState_reqs, tget_tmod_same, hreqs, hr]
      rfl
    · exact (congrArg State.pages hframe :).trans (congrArg State.pages hqueued :)
    · refine preemptAll_reqs_some ?_ l
      rw [setReqState_reqs, tget_tmod_other _ _ _ _ hk, hreqs, hq]
    · exact (congrArg (fun x : State => { x with reqs := s.reqs, pages := s.pages, svc := s.svc, pair := s.pair, tx := s.tx, free := s.free }) hframe :).trans
        ((congrArg (fun x : State => { x with reqs := s.reqs, pages := s.pages, svc := s.svc, pair := s.pair, tx := s.tx, free := s.free }) hqueued :).trans
          (congrArg (fun x : State => { x with reqs := s.reqs, svc := s.svc, pair := s.pair, tx := s.tx, free := s.free }) hpages :))
  case dispatch =>
    have hrun := requestDispatch_of_free hr hp hdispatch hpowered hroom hrole hset pricks
    obtain ⟨hframe, hpair⟩ := dispatched_frame slot l r p s
    generalize dispatched slot l r p s = u at hrun hframe hpair
    have hreqs : u.reqs = tmod (tmod s.reqs slot fun _ => runOn s l p r) slot fun r => { r with st := .running } :=
      (congrArg State.reqs hframe :)
    have hslot : tget u.reqs slot = some { runOn s l p r with st := .running } := by
      rw [hreqs, tget_tmod_same, tget_tmod_same, hr]
      rfl
    refine ⟨fun hok => ?_, fun e he hfinal hleft => ?_⟩
    · have hpricks := takePricks_of_ok hok slot r.pattern u
      refine ⟨_, congrArg Host.Outcome.next hrun, ?_, fun k hk => ?_, ?_⟩
      · exact (congrArg (fun x : State => tget x.reqs slot) hpricks :).trans hslot
      · refine (congrArg (fun x : State => tget x.reqs k) hpricks :).trans ?_
        rw [hreqs, tget_tmod_other _ _ _ _ hk, tget_tmod_other _ _ _ _ hk]
      · exact (congrArg (fun x : State => { withRun s x with reqs := s.reqs, pair := s.pair }) hpricks :).trans
          (congrArg (fun x : State => { x with reqs := s.reqs, pair := s.pair }) hframe :)
    · rw [takePricks_of_bad he] at hrun
      have hstopped : tget (modReq slot (fun r => { r with stopped := true }) u).reqs slot =
          some { runOn s l p r with st := .running, stopped := true } := by
        show tget (tmod u.reqs slot _) slot = _
        rw [tget_tmod_same, hslot]
        rfl
      have hmine : leftToPartner (modReq slot (fun r => { r with stopped := true }) u) r.mirror = false :=
        (leftToPartner_of_unowed hpair r.mirror).trans hleft
      obtain ⟨k, hend, htarget, hstatus, hdetail⟩ := endReq_of_live hstopped hfinal hmine .integrityMismatch (0x8000 + e.1.1.offset)
      have harb : u.arb = s.arb := (congrArg State.arb hframe :)
      exact ⟨_, k, congrArg Host.Outcome.next (hrun.trans hend), hstopped,
        (congrArg (fun a : Arbiter => { a with cands := a.cands ++ [k] }) harb :), htarget, hstatus, hdetail⟩
  case lent =>
    intro hrole hserving hswitching hruns hroom
    have hrun := requestDispatch_of_lent hr hp hdispatch hlend hrole hserving hswitching hruns hroom pricks
    have htold := (tellReq_told slot (modReq slot (fun r => { r with st := .running }) (modReq slot (fun _ => lentOut s p r) s))).frame
    have hcounted := dispatchCounted_frame 0x0105 (dispatcher r) 1 0x0100 (reqHandle r.gen slot)
      (setReqState slot .running (modReq slot (fun _ => lentOut s p r) s))
    refine ⟨_, congrArg Host.Outcome.next hrun, ?_, ?_⟩
    · refine (congrArg (fun x : State => tget x.reqs slot) hcounted :).trans ?_
      rw [setReqState_reqs, tget_tmod_same, show tget (modReq slot _ s).reqs slot = _ from tget_tmod_same .., hr]
      rfl
    · exact (congrArg (fun x : State => { x with reqs := s.reqs, svc := s.svc, pair := s.pair, tx := s.tx, free := s.free }) hcounted :).trans
        (congrArg (fun x : State => { x with reqs := s.reqs, svc := s.svc, pair := s.pair, tx := s.tx, free := s.free }) htold :)
  case hosted =>
    have hrun := requestDispatch_of_hosted hr hp hrole hst hlend hpowered hsram hstays hclear hpages hset pricks
    generalize hu : modReq slot (fun _ => hosted s l p r)
      (allocPages 1 r.tenant (needPages s slot r 1) (allocPages 0 r.tenant (needPages s slot r 0) s)) = u at hrun
    have hslot : tget u.reqs slot = some (hosted s l p r) := by
      rw [← hu]
      exact (tget_tmod_same ..).trans (congrArg (Option.map fun _ => hosted s l p r) hr)
    have hframe : { u with reqs := s.reqs, pages := s.pages } = s := by
      rw [← hu]
      exact reserved_frame ..
    have harmed := armCores_frame slot (hosted s l p r) u
    have hpricks := takePricks_of_ok hok slot r.pattern (armCores slot (hosted s l p r) u)
    refine ⟨_, congrArg Host.Outcome.next hrun, ?_, ?_⟩
    · exact (congrArg (fun x : State => tget x.reqs slot) hpricks :).trans ((congrArg (fun x : State => tget x.reqs slot) harmed :).trans hslot)
    · exact (congrArg (fun x : State => { x with reqs := s.reqs, pages := s.pages, cores := s.cores, halves := s.halves }) hpricks :).trans
        ((congrArg (fun x : State => { x with reqs := s.reqs, pages := s.pages, cores := s.cores, halves := s.halves }) harmed :).trans
          (congrArg (fun x : State => { x with cores := s.cores, halves := s.halves }) hframe :))
  case resumed =>
    have hrun : requestResume slot s = setReqState slot .running s := by
      unfold requestResume
      rw [hr]
      exact if_pos ⟨hst, hstopped, hserves, hpowered, by rw [hnone]; rfl, hturn⟩
    refine ⟨_, congrArg Host.Outcome.next hrun, ?_, ?_⟩
    · rw [setReqState_reqs, tget_tmod_same, hr]
      rfl
    · exact (congrArg (fun x : State => { x with reqs := s.reqs, svc := s.svc }) (tellReq_told slot _).frame :)

end Sys2Proof.Machine

namespace Sys2Proof.Machine

/-! ### A store by a request's core (04 R142) -/

theorem countActive_frame (slot : Nat) (l : List UnitOp) (s : State) : { countActive slot l s with svc := s.svc } = s := by
  unfold countActive
  split
  · rfl
  · refine List.foldlRecOn _ _ (motive := fun t : State => { t with svc := s.svc } = s) rfl fun t ht k _ => ?_
    dsimp only
    exact (congrArg (fun x : State => { x with svc := s.svc }) (profile_frame ..) :).trans ht

/-- What a host read brings is stored in the core. -/
theorem runUnits_hostRead {slot k addr n data : Nat} {r : Req} {s : State} (hr : tget s.reqs slot = some r)
    (hclk : coresClocked s = true) (hruns : occupies r = true) (hstopped : r.stopped = false) (htenant : tenantActive s r.tenant = true)
    (hmine : r.cores.contains k = true) (hcore : (coreOf s k).halted = none) (hfits : addr + n ≤ 64 * 2 ^ 20) :
    ∃ v, runUnits slot [[.hostRead k (.core k addr) n data]] s =
      modCore k (fun c => { c with store := writeBytes c.store addr n (data % 2 ^ (8 * n)) }) { s with svc := v } := by
  have hcounted := countActive_frame slot [.hostRead k (.core k addr) n data] s
  obtain ⟨v, e⟩ : ∃ v, countActive slot [.hostRead k (.core k addr) n data] s = { s with svc := v } :=
    ⟨_, (congrArg (fun x : State => { x with svc := (countActive slot [.hostRead k (.core k addr) n data] s).svc }) hcounted :)⟩
  refine ⟨v, ?_⟩
  show runUnit slot (.hostRead k (.core k addr) n data) (countActive slot [.hostRead k (.core k addr) n data] s) = _
  rw [e]
  have hruns' : unitRuns { s with svc := v } r (.hostRead k (.core k addr) n data) = true := by
    show (coresClocked s && occupies r && !r.stopped && tenantActive s r.tenant && (r.cores.contains k && (coreOf s k).halted.isNone)) = true
    rw [hclk, hruns, hstopped, htenant, hmine, hcore]
    rfl
  have hreach : reaches { s with svc := v } r (.core k addr) n = true := by
    show (r.cores.contains k && decide (addr + n ≤ 64 * 2 ^ 20)) = true
    rw [hmine, decide_eq_true hfits]
    rfl
  unfold runUnit
  rw [show tget ({ s with svc := v } : State).reqs slot = some r from hr]
  refine (if_pos hruns').trans ?_
  show transfer slot r [(.core k addr, n)] (writeAt (.core k addr) n (data % 2 ^ (8 * n))) { s with svc := v } = _
  unfold transfer
  refine (if_neg ?_).trans rfl
  rw [List.all_cons, hreach, List.all_nil]
  decide

/-- After the units' operations a hem changes request entries and sentinel entries alone. -/
theorem hemComplete_changes (slot hem : Nat) (ops : List (List UnitOp)) (s : State) :
    ∃ a b, hemComplete slot hem ops s = { runUnits slot ops s with reqs := a, sent := b } := by
  unfold hemComplete
  extract_lets u
  split
  · exact ⟨u.reqs, u.sent, rfl⟩
  · split
    · exact ⟨u.reqs, u.sent, rfl⟩
    · split
      · exact ⟨_, _, rfl⟩
      · exact ⟨u.reqs, u.sent, rfl⟩

theorem byte_of_mod (data : Nat) {n i : Nat} (h : i < n) :
    BitVec.ofNat 8 ((data % 2 ^ (8 * n)) >>> (8 * i)) = BitVec.ofNat 8 (data >>> (8 * i)) := by
  refine BitVec.eq_of_getLsbD_eq fun j hj => ?_
  have hlt : 8 * i + j < 8 * n := by omega
  simp only [BitVec.getLsbD_ofNat, Nat.testBit_shiftRight, Nat.testBit_mod_two_pow, hlt, decide_true, Bool.true_and]

/-! ### Results (03 R84, R107, 08 R266, R267) -/

section
variable {slot : Nat} {r : Req} {s : State} (hr : tget s.reqs slot = some r)
include hr

/-- A result whose input is still to be checked, or none, goes nowhere. -/
theorem submitResult_of_none (hresult : r.result = none) : submitResult slot s = s := by
  unfold submitResult
  rw [hr]
  dsimp only
  rw [hresult]

theorem submitResult_of_result {st : Status} {d : Nat} {v : BitVec 64} {fl : BitVec 16} (hresult : r.result = some (st, d, v, fl))
    (hlive : liveState r.st = true) (hin : r.inOk = true) (hfinal : r.final = none) (hmirror : (r.mirror && mirroring s) = false)
    (hleft : leftToPartner s r.mirror = false) :
    submitResult slot s = { s with arb := { s.arb with cands := s.arb.cands ++ [reqCand s slot r st d v fl false] } } := by
  unfold submitResult
  rw [hr]
  dsimp only
  rw [hresult]
  refine (if_neg ?_).trans ((if_neg (Bool.eq_false_iff.1 hmirror)).trans ?_)
  · rw [hlive, hin]
    decide
  · unfold submit
    show (match tget s.reqs slot with | none => s | some r' => _) = _
    rw [hr]
    dsimp only
    rw [if_neg (fun h => h rfl), hfinal]
    exact (if_neg (by decide)).trans (if_neg (Bool.eq_false_iff.1 hleft))

end

/-- The output goes to host memory first, while Bus Master Enable is 1. -/
theorem writeOutput_changes {r : Req} (hplain : sealedOut r = false) (p : Pattern) (w : WorkResult) (s : State) :
    ∃ x f, writeOutput r p w false s = { s with tx := x, free := f } ∧ (s.link.busMaster = true →
      Tx.host r.outAddr (outputBytes s r p w false).1 ((outputBytes s r p w false).2 % 2 ^ (8 * (outputBytes s r p w false).1)) ∈ x) := by
  have hobject : outputObject s r p w false = outputBytes s r p w false := if_neg (Bool.eq_false_iff.1 hplain)
  have hwrite (a n d : Nat) (t : State) : ∃ l, writeHost a n d t = { t with tx := t.tx ++ l } ∧
      (t.link.busMaster = true → l = [Tx.host a n (d % 2 ^ (8 * n))]) := by
    unfold writeHost
    split
    · exact ⟨_, rfl, fun _ => rfl⟩
    · next h => exact ⟨[], by rw [List.append_nil], fun hm => absurd hm h⟩
  unfold writeOutput
  rw [hobject]
  generalize outputBytes s r p w false = o
  obtain ⟨l, e, hl⟩ := hwrite r.outAddr o.1 o.2 s
  extract_lets _ t u v
  have ht : t = { s with tx := s.tx ++ l } := e
  obtain ⟨m, hu⟩ : ∃ m, u = { s with tx := s.tx ++ l ++ m } := by
    unfold u
    split
    · obtain ⟨m, hm, -⟩ := hwrite (r.ioAddr + 0x1C) 4 (crc32c o.1 o.2) t
      exact ⟨m, hm.trans (by rw [ht])⟩
    · exact ⟨[], by rw [ht, List.append_nil]⟩
  have hv : v = u := if_neg (Bool.eq_false_iff.1 hplain)
  rw [hv, hu]
  have hmem (hm : s.link.busMaster = true) : Tx.host r.outAddr o.1 (o.2 % 2 ^ (8 * o.1)) ∈ s.tx ++ l ++ m := by
    rw [hl hm]
    simp
  split
  · exact ⟨_, _, rfl, hmem⟩
  · exact ⟨_, _, rfl, hmem⟩

theorem outputBytes_modReq (slot : Nat) (f : Req → Req) (s : State) (q : Req) (p : Pattern) (w : WorkResult) (hem : Bool) :
    outputBytes (modReq slot f s) q p w hem = outputBytes s q p w hem := rfl

/-- A request's entry with the result that its full run gives; its units' work is counted. -/
def withResult (s : State) (slot : Nat) (p : Pattern) (w : WorkResult) (q r : Req) : Req :=
  { countUse (if r.adapt.isSome then w.positions else countable r) r with
    result := some (.done, doneDetail s q p w, doneValue s slot q, resultFlags q false)
    adapt := q.adapt.map fun a => { a with grads := w.grads } }

/-- A full result of a request that runs here and seals nothing. -/
theorem workComplete_of_due {slot : Nat} {q : Req} {p : Pattern} {w : WorkResult} {s u : State} (hu : runUnits slot w.ops s = u)
    (hq : tget (modReq slot (fun r => if r.lent then { r with empties := w.empties } else r) u).reqs slot = some q)
    (hp : tget u.pats q.pattern = some p) (hst : q.st = (if q.verify.isSome then .verifying else .running)) (hstopped : q.stopped = false)
    (hresult : q.result = none) (hclk : coresClocked u = true) (hcopy : holdsCopy u = false) (htenant : tenantActive u q.tenant = true)
    (hplain : sealedOut q = false) : workComplete slot w s =
      (let v := modReq slot (fun r => if r.lent then { r with empties := w.empties } else r) u
       submitResult slot (modReq slot (withResult v slot p w q) (writeOutput q p w false v))) := by
  unfold workComplete
  rw [hu]
  extract_lets v
  rw [hq]
  dsimp only
  rw [show tget v.pats q.pattern = some p from hp]
  dsimp only
  rw [show (if sealedOut q = true then sealFault v q.tenant q.keyGen else none) = none from if_neg (Bool.eq_false_iff.1 hplain)]
  refine (if_neg ?_).trans rfl
  have hdue : (if q.verify.isSome then q.st == .verifying else q.st == .running) = true := by
    rw [hst]
    split <;> rfl
  rw [hdue, show holdsCopy v = false from hcopy, hstopped, hresult, show coresClocked v = true from hclk,
    show tenantActive v q.tenant = true from htenant]
  decide

/-- Settles O12. -/
theorem requestResults : Obligations.RequestResults := by
  unfold Obligations.RequestResults
  intro slot r p s
  refine ⟨?hem, ?store, ?verify, ?work, ?input⟩
  case hem =>
    intro n ops e u hu hr hp hst hstopped hcopy hpolicy hdeeper hcount hclk he
    have hrun : hemComplete slot n ops s = modEntry slot (fun e => { e with deepest := max e.deepest n })
        (modReq slot (fun r => { r with deepest := n, used := r.used + hemTokens p }) u) := by
      unfold hemComplete
      rw [← hu]
      dsimp only
      rw [hr]
      dsimp only
      rw [hp]
      exact if_pos ⟨hst, hcopy, hstopped, hpolicy, hdeeper, hcount, hclk⟩
    refine congrArg Host.Outcome.next (hrun.trans ?_)
    unfold modEntry modReq
    rw [show tmod u.reqs slot _ = _ from tmod_some _ hr, show tmod u.sent.entries slot _ = _ from tmod_some _ he]
  case store =>
    intro hem k addr n data hr hp hclk hruns hstopped htenant hmine hk hcore hfits
    obtain ⟨v, e⟩ := runUnits_hostRead hr hclk hruns hstopped htenant hmine hcore hfits
    obtain ⟨a, b, e'⟩ := hemComplete_changes slot hem [[.hostRead k (.core k addr) n data]] s
    rw [e] at e'
    have hsame := coreOf_modCore_same (fun c : Core => { c with store := writeBytes c.store addr n (data % 2 ^ (8 * n)) }) (s := { s with svc := v }) hk
    have hother {j : Nat} (hj : j ≠ k) := coreOf_modCore_other (fun c : Core => { c with store := writeBytes c.store addr n (data % 2 ^ (8 * n)) })
      { s with svc := v } hj
    have hframe := modCore_frame k (fun c : Core => { c with store := writeBytes c.store addr n (data % 2 ^ (8 * n)) }) { s with svc := v }
    generalize modCore k (fun c : Core => { c with store := writeBytes c.store addr n (data % 2 ^ (8 * n)) }) { s with svc := v } = t at *
    have hstore : (coreOf t k).store = writeBytes (coreOf s k).store addr n (data % 2 ^ (8 * n)) := congrArg Core.store hsame
    refine ⟨_, congrArg Host.Outcome.next e', fun j => ?_, fun j hj => hother hj, (congrArg State.mem hframe :), (congrArg State.halves hframe :),
      (congrArg State.pages hframe :), fun hwf => ?_⟩
    · show byteAt (coreOf t k).store j = _
      rw [hstore, byteAt_writeBytes]
      split
      · exact byte_of_mod data (by omega)
      · rfl
    · show bytesWf (coreOf t k).store = true
      rw [hstore]
      exact bytesWf_writeBytes _ _ _ _ hwf
  case verify =>
    intro rows ops v u hu hr hv hst hstopped hcopy hclk
    let done : Verify := if v.greedy then
        { v with
          path := (acceptFrom v.parents v.tokens rows 64 0xFF).1, bonus := (acceptFrom v.parents v.tokens rows 64 0xFF).2,
          rows := rows }
      else { v with rows := rows }
    have hrun : verifyPass slot rows ops s = setReqState slot .verifying (modReq slot (fun r => { r with verify := some done }) u) := by
      unfold verifyPass
      rw [← hu]
      dsimp only
      rw [hr]
      dsimp only
      rw [hv]
      refine (if_neg ?_).trans rfl
      rw [hst, hcopy, hstopped, hclk]
      decide
    refine ⟨_, congrArg Host.Outcome.next hrun, ?_, ?_⟩
    · rw [setReqState_reqs, tget_tmod_same, show tget (modReq slot _ u).reqs slot = _ from tget_tmod_same .., hr]
      rfl
    · exact (congrArg (fun x : State => { x with reqs := u.reqs }) (tellReq_told slot _).frame :)
  case work =>
    intro w q u hu hr hp hq hst hstopped hresult hin hfinal hclk hcopy htenant hplain hmirror hleft
    have hslot : tget (modReq slot (fun r => if r.lent then { r with empties := w.empties } else r) u).reqs slot = some q := by
      rw [hq]
      exact (tget_tmod_same ..).trans (congrArg (Option.map _) hr)
    have hpat : q.pattern = r.pattern := by
      rw [hq]
      split <;> rfl
    have hrun := workComplete_of_due (u := u) hu.symm hslot (hpat ▸ hp) hst hstopped hresult hclk hcopy htenant hplain
    dsimp only at hrun
    have hbytes : outputBytes (modReq slot (fun r => if r.lent then { r with empties := w.empties } else r) u) q p w false = outputBytes u q p w false :=
      outputBytes_modReq ..
    obtain ⟨x, f, e, hsent⟩ := writeOutput_changes hplain p w (modReq slot (fun r => if r.lent then { r with empties := w.empties } else r) u)
    rw [hbytes] at hsent
    rw [e] at hrun
    have hdone : tget (modReq slot (withResult (modReq slot (fun r => if r.lent then { r with empties := w.empties } else r) u) slot p w q)
        { modReq slot (fun r => if r.lent then { r with empties := w.empties } else r) u with tx := x, free := f }).reqs slot =
        some (withResult (modReq slot (fun r => if r.lent then { r with empties := w.empties } else r) u) slot p w q q) :=
      (tget_tmod_same ..).trans (congrArg (Option.map _) hslot)
    have hlive : liveState q.st = true := by
      rw [hst]
      split <;> rfl
    have hsubmit := submitResult_of_result hdone rfl hlive hin hfinal hmirror hleft
    exact ⟨_, _, congrArg Host.Outcome.next (hrun.trans hsubmit), rfl, rfl, rfl, rfl, rfl, rfl, rfl, rfl, rfl, hsent, rfl⟩
  case input =>
    intro crc g ok hr hlive hin hplain hresult hcopy hruns
    have hrun : inCrcCheck slot crc g ok s = if r.bufFlags.getLsbD 1 && crc != r.inCrc
        then endReq slot .integrityMismatch 0x800C (modReq slot (fun r => { r with stopped := true }) s)
        else submitResult slot (modReq slot (fun r => { r with inOk := true }) s) := by
      unfold inCrcCheck
      rw [hr]
      refine (if_neg ?_).trans ?_
      · rw [hlive, hin, hcopy, hruns]
        decide
      · dsimp only
        rw [if_neg (Bool.eq_false_iff.1 hplain)]
    have hreqs (f : Req → Req) : modReq slot f s = { s with reqs := tset s.reqs slot (f r) } :=
      congrArg (fun l => { s with reqs := l }) (tmod_some f hr)
    refine ⟨fun hchecked hcrc => ?_, fun hchecked hcrc => ?_⟩
    · rw [if_neg (by rw [hcrc]; simp), hreqs] at hrun
      exact congrArg Host.Outcome.next (hrun.trans (submitResult_of_none (r := { r with inOk := true }) (tget_tset_same ..) hresult))
    · rw [if_pos (by rw [hchecked]; simpa using hcrc), hreqs] at hrun
      exact congrArg Host.Outcome.next hrun

end Sys2Proof.Machine

namespace Sys2Proof.Machine

/-! ### A command's final reply leaves every other command as it was -/

theorem submit_cmds (k : Cand) (s : State) : (submit k s).cmds = s.cmds := (congrArg State.cmds (submit_frame k s) :)

theorem finish_cmds (cid : Nat) (st : Status) (d : Nat) (v : BitVec 64) (fl : BitVec 16) (a : OnAccept) (s : State) :
    (finish cid st d v fl a s).cmds = tmod s.cmds cid fun c => { c with phase := .replied } := by
  unfold finish
  split
  · next h => rw [tmod_none _ h]
  · dsimp only
    split
    · rfl
    · split
      · rfl
      · exact submit_cmds _ _

theorem finish_cmds_same {cid : Nat} {c : Cmd} {s : State} (st : Status) (d : Nat) (v : BitVec 64) (fl : BitVec 16) (a : OnAccept)
    (h : tget s.cmds cid = some c) : tget (finish cid st d v fl a s).cmds cid = some { c with phase := .replied } := by
  rw [finish_cmds, tget_tmod_same, h]
  rfl

theorem finish_cmds_other {cid k : Nat} (st : Status) (d : Nat) (v : BitVec 64) (fl : BitVec 16) (a : OnAccept) (s : State)
    (h : k ≠ cid) : tget (finish cid st d v fl a s).cmds k = tget s.cmds k := by
  rw [finish_cmds, tget_tmod_other _ _ _ _ h]

theorem refuseAll_cmds_other {l : List Nat} {k : Nat} (st : Status) (d : Nat) (s : State) (h : k ∉ l) :
    tget (refuseAll l st d s).cmds k = tget s.cmds k :=
  List.foldlRecOn l _ (motive := fun t : State => tget t.cmds k = tget s.cmds k) rfl fun t ht j hj =>
    (finish_cmds_other st d 0 0 .none t (ne_of_mem_of_not_mem hj h).symm).trans ht

/-- Each command of the list ends, however often it stands there. -/
theorem refuseAll_cmds_mem {l : List Nat} {k : Nat} {c : Cmd} (st : Status) (d : Nat) {s : State} (hk : k ∈ l)
    (hc : tget s.cmds k = some c) : tget (refuseAll l st d s).cmds k = some { c with phase := .replied } := by
  induction l generalizing s c with
  | nil => nomatch hk
  | cons j rest ih =>
    show tget (refuseAll rest st d (refuse j st d s)).cmds k = _
    rcases eq_or_ne k j with rfl | hne
    · have hnow : tget (refuse k st d s).cmds k = some { c with phase := .replied } := finish_cmds_same st d 0 0 .none hc
      by_cases hrest : k ∈ rest
      · exact ih (c := { c with phase := .replied }) hrest hnow
      · exact (refuseAll_cmds_other st d _ hrest).trans hnow
    · exact ih ((List.mem_cons.1 hk).resolve_left hne) ((finish_cmds_other st d 0 0 .none s hne).trans hc)

/-! ### Streams open, take feeds and close (07 R219, R221, R226, R236) -/

section
variable {cid i : Nat} {c : Cmd} {x : Stream} {s : State}

/-- Pages of a stream's pool. -/
def poolPages (i : Nat) (u : PageUse) : Bool := match u with | .pool k => k = i | _ => false

theorem poolPages_gone (i : Nat) (s : State) : ∀ e ∈ (freePagesOf (poolPages i) s).pages, e.2.use ≠ .pool i := by
  rw [freePagesOf_pages]
  intro e he hu
  have h := (List.mem_filter.1 he).2
  simp [hu, poolPages] at h

theorem allocPages_streams (h t : Nat) (uses : List PageUse) (s : State) : (allocPages h t uses s).streams = s.streams :=
  (congrArg State.streams (allocPages_frame h t uses s) :)

theorem allocPages_streamGens (h t : Nat) (uses : List PageUse) (s : State) : (allocPages h t uses s).streamGens = s.streamGens :=
  (congrArg State.streamGens (allocPages_frame h t uses s) :)

theorem streamOpen_of_ready {e : Nat} (h : Ready s cid 0x0301 c) (hg : c.given = none) (hvideo : videoDenied s (le c.pkt 23 1) = none)
    (hi : tfree s.streams 64 = some i)
    (he : chooseEngine (decodeLoad s) 8 (videoRate (le c.pkt 24 2) (le c.pkt 26 2) (le c.pkt 28 4)) = some e)
    (hroom : streamsFull s (c.tenant.getD 0) = false)
    (hpages : bufferUnits (le c.pkt 24 2) (le c.pkt 26 2) (le c.pkt 32 1) * le c.pkt 34 1 ≤
      freePages s (le c.pkt 23 1) (c.tenant.getD 0)) :
    streamOpen cid s = done cid (bufferUnits (le c.pkt 24 2) (le c.pkt 26 2) (le c.pkt 32 1))
      (BitVec.ofNat 64 (i + tgetD s.streamGens i 1 * 2 ^ 16 + e * 2 ^ 32))
      { allocPages (le c.pkt 23 1) (c.tenant.getD 0)
          (List.replicate (bufferUnits (le c.pkt 24 2) (le c.pkt 26 2) (le c.pkt 32 1) * le c.pkt 34 1) (.pool i)) s with
        streams := tset s.streams i (streamOf s c i e), streamGens := tset s.streamGens i (tgetD s.streamGens i 1) } := by
  have hx : { streamOf s c i e with gen := tgetD s.streamGens i 1 } = streamOf s c i e := rfl
  unfold streamOpen
  rw [runCmd_of_ready h]
  dsimp only
  rw [hvideo, pickSlot_of_own h.1 hg, hi]
  dsimp only
  rw [he]
  dsimp only
  rw [if_neg (Bool.eq_false_iff.1 hroom), if_neg (Nat.not_lt.2 hpages), pickGen_of_own h.1 hg, hx]
  simp only [allocPages_streams, allocPages_streamGens]
  rfl

theorem streamFaults_of_named (hx : findStream s (le c.pkt 20 4) = some (i, x)) : streamFaults c s = [] := by
  simp [streamFaults, hx]

theorem tget_of_findStream {h : Nat} (hx : findStream s h = some (i, x)) : tget s.streams i = some x := by
  unfold findStream at hx
  split at hx
  · next y hy =>
    split at hx
    · cases hx
      exact hy
    · cases hx
  · cases hx

theorem replyFeed_of_stream (cid : Nat) (st : Status) (d : Nat) (v : BitVec 64) (fl : BitVec 16) (hx : tget s.streams i = some x) :
    replyFeed cid i st d v fl s = finish cid st d v fl .none { s with streams := tset s.streams i { x with dropsReply := 0 } } := by
  rw [replyFeed, modStream, tmod_some _ hx]

section
variable {crc : BitVec 32} {g : Nat} {ok : Bool} (h : Ready s cid 0x0302 c) (hx : findStream s (le c.pkt 20 4) = some (i, x))
  (hring : x.ring = c.ring) (hopen : closedFault s x cid = none)
include h hx hring hopen

theorem streamFeed_of_empty (hlen : le c.pkt 32 4 = 0) :
    streamFeed cid crc g ok s = replyFeed cid i .done 0 (feedValue none 0 x.dropsReply) 0 s := by
  unfold streamFeed
  rw [runCmdWith_of_ready h (streamFaults_of_named hx)]
  rw [hx]
  dsimp only
  rw [if_neg (not_not.2 hring), hopen]
  dsimp only
  rw [if_pos hlen]

theorem streamFeed_of_data (hlen : le c.pkt 32 4 ≠ 0) (hturn : feedBehind s c.ring cid (le c.pkt 20 4) = false)
    (hvideo : videoDenied s x.half = none) (hroom : x.feeds.length < 8) (hdata : feedDataFault s x.tenant c.pkt crc g ok = none) :
    streamFeed cid crc g ok s = { s with
      streams := tset s.streams i { x with feeds := x.feeds ++ [cid] }
      cmds := tset s.cmds cid { c with phase := .begun, since := s.clk.localTime, aux := [] } } := by
  unfold streamFeed
  rw [runCmdWith_of_ready h (streamFaults_of_named hx)]
  rw [hx]
  dsimp only
  rw [if_neg (not_not.2 hring), hopen]
  dsimp only
  rw [if_neg hlen, if_neg (Bool.eq_false_iff.1 hturn), hvideo]
  dsimp only
  rw [if_neg (Nat.not_le.2 hroom), hdata]
  dsimp only
  rw [begun_eq [] (s := modStream i _ s) (cmds_of_begins h.1), modStream, tmod_some _ (tget_of_findStream hx)]

end

theorem streamClose_of_ready (h : Ready s cid 0x0303 c) (hx : findStream s (le c.pkt 20 4) = some (i, x)) (hring : x.ring = c.ring)
    (hopen : x.closing = none) : streamClose cid s = closeStream i cid (c.pkt.getLsbD 192) (begun cid [i] s) := by
  unfold streamClose
  rw [runCmdWith_of_ready h (streamFaults_of_named hx)]
  rw [hx]
  dsimp only
  rw [if_neg (not_not.2 hring), hopen]
  rfl

/-- A stream as its close leaves it: no mark but the holds of vision (07 R236). -/
def closingStream (closer : Nat) (x : Stream) : Stream := { x with
  closing := some closer, slots := List.replicate 8 none
  bufs := x.bufs.map fun b => { b with shortRef := false, longRef := false, outPend := false } }

/-- The feeds that a close with CANCEL ends: those that have begun and of which no picture is or was at work. -/
def cancelledFeeds (i : Nat) (x : Stream) (s : State) : List Nat :=
  x.feeds.filter fun f => !((s.engines.filter fun e => e.2.stream = i).map fun e => e.2.cid).contains f &&
    (tget s.cmds f).any fun k => k.phase == .begun && k.aux == []

theorem closeStream_of_stream (cid : Nat) (cancel : Bool) (hx : tget s.streams i = some x) :
    closeStream i cid cancel s =
      (if cancel then refuseAll (cancelledFeeds i x s) .cancelled 3 { s with streams := tset s.streams i (closingStream cid x) }
        else { s with streams := tset s.streams i (closingStream cid x) }) := by
  unfold closeStream
  rw [hx]
  dsimp only [modStream]
  rw [tmod_some _ hx]
  rfl

theorem mem_cancelledFeeds {f : Nat} {k : Cmd} (hf : f ∈ x.feeds) (hk : tget s.cmds f = some k) (hphase : k.phase = .begun)
    (haux : k.aux = []) (hidle : ∀ e ∈ s.engines, e.2.stream = i → e.2.cid ≠ f) : f ∈ cancelledFeeds i x s := by
  have hrest : f ∉ (s.engines.filter fun e => e.2.stream = i).map fun e => e.2.cid := by
    rintro h
    obtain ⟨e, he, hcid⟩ := List.mem_map.1 h
    obtain ⟨hmem, hstream⟩ := List.mem_filter.1 he
    exact hidle e hmem (of_decide_eq_true hstream) hcid
  simp [cancelledFeeds, hf, hk, hphase, haux, List.contains_iff_mem, hrest, -List.mem_map]

theorem not_mem_cancelledFeeds {f : Nat} {c : Cmd} (hc : tget s.cmds f = some c) (haux : c.aux ≠ []) : f ∉ cancelledFeeds i x s := by
  simp [cancelledFeeds, hc, haux]

theorem streamClosed_of_quiet {k : Nat} (hx : tget s.streams i = some x) (hk : x.closing = some k) (hquiet : streamQuiet s i x = true) :
    streamClosed i s = done k 0 0 (retireKeys x.tenant (freePagesOf (poolPages i)
      { s with streams := tdel s.streams i, streamGens := tset s.streamGens i (nextGen 65535 x.gen) })) := by
  simp only [streamClosed, hx, hk, hquiet]
  rfl

end

/-- Settles O28, command by command. -/
theorem streams : Obligations.Streams := by
  unfold Obligations.Streams
  intro cid i c x s
  refine ⟨?opens, ?feed, ?close, ?closed⟩
  case opens =>
    intro e h hg hvideo hi he hroom units hpages t
    exact congrArg Host.Outcome.next (streamOpen_of_ready h hg hvideo hi he hroom hpages)
  case feed =>
    intro crc g ok h hx hring hopen
    refine ⟨fun hlen => congrArg Host.Outcome.next ?_, fun hlen hturn hvideo hroom hdata => congrArg Host.Outcome.next
      (streamFeed_of_data h hx hring hopen hlen hturn hvideo hroom hdata)⟩
    have hvalue : feedValue none 0 x.dropsReply = BitVec.ofNat 64 (0xFFFFFFFF + min x.dropsReply 65535 * 2 ^ 40) := by
      simp [feedValue, sat]
    rw [streamFeed_of_empty h hx hring hopen hlen, replyFeed_of_stream _ _ _ _ _ (tget_of_findStream hx), hvalue]
    rfl
  case close =>
    intro h hx hring hopen
    have hc := cmds_of_begins h.1
    have hrun := (streamClose_of_ready h hx hring hopen).trans
      (closeStream_of_stream (s := begun cid [i] s) cid (c.pkt.getLsbD 192) (tget_of_findStream hx))
    have hcmds : (begun cid [i] s).cmds = tset s.cmds cid { c with phase := .begun, since := s.clk.localTime, aux := [i] } :=
      congrArg State.cmds (begun_eq [i] hc)
    have hown : tget (begun cid [i] s).cmds cid = some { c with phase := .begun, since := s.clk.localTime, aux := [i] } := by
      rw [hcmds, tget_tset_same]
    have hself : cid ∉ cancelledFeeds i x (begun cid [i] s) := not_mem_cancelledFeeds hown (List.cons_ne_nil _ _)
    refine ⟨_, congrArg Host.Outcome.next hrun, ?_⟩
    cases hcancel : c.pkt.getLsbD 192
    · exact ⟨rfl, hown, fun _ => rfl, fun f k hdo => nomatch hdo⟩
    · refine ⟨(congrArg State.streams (refuseAll_frame ..) :), (refuseAll_cmds_other _ _ _ hself).trans hown,
        (fun hkeep => nomatch hkeep), fun f k _ hf hk hphase haux hidle => ?_⟩
      have hne : f ≠ cid := by
        rintro rfl
        obtain ⟨-, -, -, hready, -⟩ := begins_spec h.1
        rw [Option.some.inj (hk.symm.trans hc), hready] at hphase
        nomatch hphase
      have hk' : tget (begun cid [i] s).cmds f = some k := by
        rw [hcmds, tget_tset_other _ _ _ _ hne, hk]
      exact refuseAll_cmds_mem _ _ (mem_cancelledFeeds hf hk' hphase haux hidle) hk'
  case closed =>
    intro k q hx hk hq hquiet
    have hrun := streamClosed_of_quiet hx hk hquiet
    have hpages := poolPages_gone i
      { s with streams := tdel s.streams i, streamGens := tset s.streamGens i (nextGen 65535 x.gen) }
    have hfreed := withPages_trans (freePagesOf_frame (poolPages i)
      { s with streams := tdel s.streams i, streamGens := tset s.streamGens i (nextGen 65535 x.gen) }) (retireKeys_frame x.tenant _)
    rw [← retireKeys_pages x.tenant] at hpages
    generalize retireKeys x.tenant _ = u at hrun hpages hfreed
    have hdone := done_frame k 0 0 u
    refine ⟨_, congrArg Host.Outcome.next hrun, (congrArg State.streams hdone :).trans (congrArg State.streams hfreed :),
      (congrArg State.streamGens hdone :).trans (congrArg State.streamGens hfreed :),
      finish_cmds_same .done 0 0 0 .none ((congrArg (fun t : State => tget t.cmds k) hfreed :).trans hq), ?_⟩
    rw [(congrArg State.pages hdone :)]
    exact hpages

end Sys2Proof.Machine

namespace Sys2Proof.Machine

/-! ### Pictures start and end (07 R220, R224, R228, R231) -/

theorem tset_tset {α : Type} (t : Tbl α) (k : Nat) (v w : α) : tset (tset t k v) k w = tset t k w := by
  induction t with
  | nil => simp [tset]
  | cons e t ih =>
    obtain ⟨j, u⟩ := e
    rcases lt_trichotomy k j with h | rfl | h
    · simp [tset, h]
    · simp [tset]
    · simp [tset, Nat.not_lt.2 h.le, h.ne', ih]

section
variable {en i cid : Nat} {x : Stream} {s : State}

theorem takeSets_eq (x : Stream) (p : PictureHead) : takeSets x p = { x with sets := (takeSets x p).sets } := by
  unfold takeSets
  rfl

theorem pictureStart_of_idle {p : PictureHead} {a : Pick} (hidle : tget s.engines en = none) (hruns : videoRuns s = true)
    (hloop : decodeLooped s en = false) (hdev : s.dev.state ≠ .updating) (hnext : nextFeed s en = some (i, cid))
    (hx : tget s.streams i = some x) (hsupported : unsupported (takeSets x p) p = false) (hshow : p.showExisting = none)
    (ha : selectAll s cid (takeSets x p) p = some a) :
    pictureStart en p s = decodeStart en i cid (takeSets x p) p a { s with streams := tset s.streams i (takeSets x p) } := by
  have hgo : ¬((tget s.engines en).isSome || !videoRuns s || decodeLooped s en || s.dev.state == .updating) = true := by
    simp [hidle, hruns, hloop, hdev]
  have hshown : shown (takeSets x p) p = none := by simp [shown, hshow]
  unfold pictureStart
  rw [if_neg hgo, hnext]
  dsimp only
  rw [hx]
  dsimp only
  rw [if_neg (Bool.eq_false_iff.1 hsupported), hshown]
  dsimp only
  rw [ha]
  dsimp only [modStream]
  rw [tmod_some _ hx]

/-- A stream with the buffers selected for a picture of it (07 R224). -/
def pickedStream (a : Pick) (now : Tick) (x : Stream) : Stream := { x with
  bufs := a.bufs, slots := a.slots, nextPic := a.next, picked := some now, dropsReply := x.dropsReply + a.drops
  dropsReport := x.dropsReport + a.drops }

theorem decodeStart_of_stream (en cid : Nat) (st : Stream) (p : PictureHead) (a : Pick) (hx : tget s.streams i = some x) :
    ∃ picture made f, decodeStart en i cid st p a s = { s with
      streams := tset s.streams i (pickedStream a s.clk.localTime x)
      engines := tset s.engines en (decodingOf s st i cid a.last picture made p false), free := f } := by
  unfold decodeStart
  dsimp only [modStream]
  rw [tmod_some _ hx]
  exact ⟨_, _, _, rfl⟩

/-! #### The marks and samples of a picture's end (07 Table 7-5, R236) -/

theorem getElem?_modify_some {α : Type} {l : List α} {k : Nat} {v : α} (f : α → α) (h : l[k]? = some v) :
    (l.modify k f)[k]? = some (f v) := by
  rw [List.getElem?_modify_eq, h]
  rfl

theorem markBufs_pictures (marks : List (Nat × Option Bool)) (bufs : List Buf) :
    (markBufs marks bufs).map (·.picture) = bufs.map (·.picture) := by
  unfold markBufs
  rw [List.map_map]
  refine List.map_congr_left fun b _ => ?_
  dsimp only [Function.comp_apply]
  split <;> rfl

/-- An open stream's marks at a picture's end: its buffer holds the samples, under the picture that it was selected for. -/
theorem settleMarks_buffer {d : Decoding} {b : Buf} (p : PictureDone) (data : Nat) (hopen : x.closing = none)
    (hb : x.bufs[d.buffer]? = some b) :
    (∃ b', (settleMarks d p data x).bufs[d.buffer]? = some b' ∧ b'.data = data ∧ b'.picture = b.picture) ∧
      (settleMarks d p data x).slots = refreshSlots p.refresh d.buffer x.slots := by
  unfold settleMarks
  extract_lets slots marked bufs closed
  rw [if_neg (by simp [hopen])]
  have hmarked : ∃ m, marked[d.buffer]? = some m ∧ m.picture = b.picture := by
    by_cases hcodec : x.codec = 2
    · simp only [marked, if_pos hcodec]
      simp [List.getElem?_zipIdx, hb]
    · simp only [marked, if_neg hcodec]
      have hpic := congrArg (·[d.buffer]?) (markBufs_pictures p.marks x.bufs)
      simp only [List.getElem?_map, hb, Option.map_some, Option.map_eq_some_iff] at hpic
      obtain ⟨m, hm, hsame⟩ := hpic
      exact ⟨_, getElem?_modify_some _ hm, hsame⟩
  obtain ⟨m, hm, hsame⟩ := hmarked
  exact ⟨⟨_, getElem?_modify_some _ hm, rfl, hsame⟩, rfl⟩

/-! #### The feed of a picture that ends (07 R228) -/

theorem finish_engines (cid : Nat) (st : Status) (d : Nat) (v : BitVec 64) (fl : BitVec 16) (a : OnAccept) (s : State) :
    (finish cid st d v fl a s).engines = s.engines := (congrArg State.engines (finish_frame cid st d v fl a s) :)

theorem finish_streams (cid : Nat) (st : Status) (d : Nat) (v : BitVec 64) (fl : BitVec 16) (a : OnAccept) (s : State) :
    (finish cid st d v fl a s).streams = s.streams := (congrArg State.streams (finish_frame cid st d v fl a s) :)

theorem replyFeed_engines (cid i : Nat) (st : Status) (d : Nat) (v : BitVec 64) (fl : BitVec 16) (s : State) :
    (replyFeed cid i st d v fl s).engines = s.engines := finish_engines ..

/-- A feed's report, where its packet asks for one, and the count of drops that it has taken (07 R228). -/
def reportedFeed (i : Nat) (x : Stream) (c : Cmd) (d : Decoding) (r : DecodeResult) (t : Totals) (s : State) : State :=
  if le c.pkt 48 8 = 0 then s
  else modStream i (fun x => { x with dropsReport := 0 })
    (useSpares 2 (writeFields (le c.pkt 48 8) (pictureReport s x c d r t) s))

theorem feedDone_of_stream (cid : Nat) (c : Cmd) (d : Decoding) (r : DecodeResult) (t : Totals) (hx : tget s.streams i = some x) :
    ∃ detail v fl, feedDone cid i c d r t s = replyFeed cid i .done detail v fl (reportedFeed i x c d r t s) := by
  unfold feedDone
  rw [hx]
  exact ⟨_, _, _, rfl⟩

theorem reportedFeed_frame (i : Nat) (x : Stream) (c : Cmd) (d : Decoding) (r : DecodeResult) (t : Totals) (s : State) :
    { reportedFeed i x c d r t s with streams := s.streams, tx := s.tx, free := s.free } = s := by
  unfold reportedFeed
  split
  · rfl
  · exact (congrArg (fun u : State => { u with streams := s.streams, free := s.free }) (writeHost_frame _ _ _ s) :)

theorem reportedFeed_streams (c : Cmd) (d : Decoding) (r : DecodeResult) (t : Totals) (hx : tget s.streams i = some x) :
    ∃ n, tget (reportedFeed i x c d r t s).streams i = some { x with dropsReport := n } := by
  unfold reportedFeed
  split
  · exact ⟨_, hx⟩
  · refine ⟨0, (tget_tmod_same ..).trans ?_⟩
    rw [show (useSpares 2 (writeFields _ _ s)).streams = s.streams from (congrArg State.streams (writeHost_frame _ _ _ s) :), hx]
    rfl

theorem feedDone_engines (cid i : Nat) (c : Cmd) (d : Decoding) (r : DecodeResult) (t : Totals) (s : State) :
    (feedDone cid i c d r t s).engines = s.engines := by
  cases hx : tget s.streams i with
  | none => rw [feedDone, hx]
  | some x =>
    obtain ⟨_, _, _, h⟩ := feedDone_of_stream cid c d r t hx
    rw [h]
    exact (finish_engines ..).trans (congrArg State.engines (reportedFeed_frame i x c d r t s) :)

/-- A feed's report and reply leave its stream's buffers and slots alone, and end no other command. -/
theorem feedDone_answers {c : Cmd} (d : Decoding) (r : DecodeResult) (t : Totals) (hx : tget s.streams i = some x)
    (hc : tget s.cmds cid = some c) :
    (∃ y, tget (feedDone cid i c d r t s).streams i = some y ∧ y.bufs = x.bufs ∧ y.slots = x.slots) ∧
      tget (feedDone cid i c d r t s).cmds cid = some { c with phase := .replied } := by
  obtain ⟨_, _, _, h⟩ := feedDone_of_stream cid c d r t hx
  obtain ⟨n, hn⟩ := reportedFeed_streams c d r t hx
  rw [h]
  refine ⟨⟨{ x with dropsReport := n, dropsReply := 0 }, ?_, rfl, rfl⟩, finish_cmds_same _ _ _ _ _ ?_⟩
  · refine (congrArg (tget · i) (finish_streams ..)).trans ((tget_tmod_same ..).trans ?_)
    rw [hn]
    rfl
  · exact ((congrArg State.cmds (reportedFeed_frame i x c d r t s) :) ▸ hc)

/-! #### The engine and the stream of a picture that ends (07 R228, R231) -/

/-- A picture has ended on its engine: its marks and samples stand in its stream. -/
def pictureSettled (en : Nat) (d : Decoding) (p : PictureDone) (st : Stream) (r : DecodeResult) (s : State) : State :=
  let t := restitchPages (fun k => (tget s.pages k).any fun x => x.use == .pool d.stream) st.tenant
    (modStream d.stream (settleMarks d p r.data) { s with engines := tdel s.engines en })
  if r.bounds then bobPost 0x10 0x0012 d.stream t else t

/-- What is left of a picture's end: its feed counts it, or ends with it. -/
def pictureCounted (d : Decoding) (p : PictureDone) (st : Stream) (r : DecodeResult) (s : State) : State :=
  match tget s.cmds d.cid with
  | none => s
  | some k =>
    let sum := addPicture (totalsOf k.aux) d r
    if k.phase ≠ .begun then s
    else if p.last then feedDone d.cid d.stream k d r sum s
    else if st.codec = 2 ∧ 8 ≤ sum.pics then feedDone d.cid d.stream k d r { sum with cause := 6 } s
    else modCmd d.cid (fun c => { c with aux := auxOf sum }) s

theorem pictureEnds_of_none {d : Decoding} (p : PictureDone) (limit : Option Nat) (hx : tget s.streams d.stream = none) :
    pictureEnds en d p limit s = { s with engines := tdel s.engines en } := by
  unfold pictureEnds
  rw [hx]

theorem pictureEnds_of_active {d : Decoding} {limit : Option Nat} (p : PictureDone) (hx : tget s.streams d.stream = some x)
    (hactive : tenantActive s x.tenant = true) :
    pictureEnds en d p limit s =
      pictureCounted d p x (decodePicture x d p limit) (pictureSettled en d p x (decodePicture x d p limit) s) := by
  unfold pictureEnds
  rw [hx]
  dsimp only
  rw [if_neg (by exact (show ¬(!tenantActive s x.tenant) = true by simp [hactive]))]
  rfl

theorem pictureEnds_of_leaving {d : Decoding} (p : PictureDone) (limit : Option Nat) (hx : tget s.streams d.stream = some x)
    (hleaving : tenantActive s x.tenant = false) : pictureEnds en d p limit s = { s with engines := tdel s.engines en } := by
  unfold pictureEnds
  rw [hx]
  dsimp only
  rw [if_pos (by exact (show (!tenantActive s x.tenant) = true by simp [hleaving]))]

/-- Pages are restitched without a change of an engine, a stream or a command. -/
theorem restitchPages_frame (hit : Nat → Bool) (t : Nat) (s : State) : withPages s (restitchPages hit t s) = s := by
  unfold restitchPages
  split
  · rfl
  · split
    · split
      · rfl
      · exact (congrArg (withPages s) (retireKeys_frame t { s with pages := _ }) :)
    · rfl

theorem pictureSettled_frame (en : Nat) (d : Decoding) (p : PictureDone) (st : Stream) (r : DecodeResult) (s : State) :
    (pictureSettled en d p st r s).engines = tdel s.engines en ∧
      (pictureSettled en d p st r s).streams = tmod s.streams d.stream (settleMarks d p r.data) ∧
      (pictureSettled en d p st r s).cmds = s.cmds := by
  unfold pictureSettled
  extract_lets t
  have ht : withPages (modStream d.stream (settleMarks d p r.data) { s with engines := tdel s.engines en }) t = _ :=
    restitchPages_frame ..
  split
  · exact ⟨(congrArg State.engines ht :), (congrArg State.streams ht :), (congrArg State.cmds ht :)⟩
  · exact ⟨(congrArg State.engines ht :), (congrArg State.streams ht :), (congrArg State.cmds ht :)⟩

theorem pictureCounted_engines (d : Decoding) (p : PictureDone) (st : Stream) (r : DecodeResult) (s : State) :
    (pictureCounted d p st r s).engines = s.engines := by
  unfold pictureCounted
  split
  · rfl
  · dsimp only
    split
    · rfl
    · split
      · exact feedDone_engines ..
      · split
        · exact feedDone_engines ..
        · rfl

/-- A picture's end frees its engine, whatever becomes of its feed. -/
theorem pictureEnds_engines (en : Nat) (d : Decoding) (p : PictureDone) (limit : Option Nat) (s : State) :
    (pictureEnds en d p limit s).engines = tdel s.engines en := by
  cases hx : tget s.streams d.stream with
  | none => rw [pictureEnds_of_none p limit hx]
  | some x =>
    cases hactive : tenantActive s x.tenant with
    | false => rw [pictureEnds_of_leaving p limit hx hactive]
    | true =>
      rw [pictureEnds_of_active p hx hactive]
      exact (pictureCounted_engines ..).trans (pictureSettled_frame ..).1

/-- What the count of a picture in its feed leaves of the stream, and what becomes of the feed. -/
theorem pictureCounted_of_begun {d : Decoding} {c : Cmd} (p : PictureDone) (r : DecodeResult) (st : Stream)
    (hx : tget s.streams d.stream = some x) (hc : tget s.cmds d.cid = some c) (hbegun : c.phase = .begun) :
    (∃ y, tget (pictureCounted d p st r s).streams d.stream = some y ∧ y.bufs = x.bufs ∧ y.slots = x.slots) ∧
      (p.last = false → st.codec ≠ 2 →
        tget (pictureCounted d p st r s).cmds d.cid = some { c with aux := auxOf (addPicture (totalsOf c.aux) d r) }) ∧
      (p.last = true → tget (pictureCounted d p st r s).cmds d.cid = some { c with phase := .replied }) := by
  unfold pictureCounted
  rw [hc]
  dsimp only
  rw [if_neg (not_not.2 hbegun)]
  cases hlast : p.last with
  | true =>
    rw [if_pos rfl]
    obtain ⟨hy, hend⟩ := feedDone_answers d r (addPicture (totalsOf c.aux) d r) hx hc
    exact ⟨hy, (fun h => nomatch h), fun _ => hend⟩
  | false =>
    rw [if_neg Bool.false_ne_true]
    split
    · next hmany =>
      exact ⟨(feedDone_answers d r _ hx hc).1, fun _ hcodec => absurd hmany.1 hcodec, (fun h => nomatch h)⟩
    · refine ⟨⟨x, hx, rfl, rfl⟩, fun _ _ => (tget_tmod_same ..).trans ?_, (fun h => nomatch h)⟩
      rw [hc]
      rfl

/-! #### The watchdog (07 R231) -/

theorem expired_of_decoding {d : Decoding} (s : State) (hshow : d.showing = false) :
    expired s d = decide (d.start + 4 * ceilDiv (10 * (d.set.width * d.set.height)) 108 ≤ s.clk.localTime) := by
  have hat : watchdogAt d = some (d.start + watchdogTicks d.set.width d.set.height) := if_neg (Bool.eq_false_iff.1 hshow)
  unfold expired
  rw [hat]
  rfl


end

/-- Settles O29: a picture's start, its end, and its watchdog. -/
theorem pictures : Obligations.Pictures := by
  unfold Obligations.Pictures
  intro en i cid x s
  refine ⟨?start, ?ended, ?watchdog⟩
  case start =>
    intro p a hidle hruns hloop hdev hnext hx hsupported hshow ha
    have hrun := pictureStart_of_idle hidle hruns hloop hdev hnext hx hsupported hshow ha
    obtain ⟨picture, made, f, hstart⟩ := decodeStart_of_stream (s := { s with streams := tset s.streams i (takeSets x p) })
      en cid (takeSets x p) p a (tget_tset_same ..)
    refine ⟨_, _, congrArg Host.Outcome.next (hrun.trans hstart), rfl, rfl, rfl, rfl, rfl, rfl, rfl, rfl, ?_, rfl⟩
    exact (tset_tset ..).trans (by rw [takeSets_eq]; rfl)
  case ended =>
    intro p d c b hd hearly hruns hcid hi hc hbegun hx hactive hopen hb
    subst hcid hi
    have hrun : pictureEnd en p s = pictureCounted d p x (decodePicture x d p none)
        (pictureSettled en d p x (decodePicture x d p none) s) := by
      rw [pictureEnd, hd]
      dsimp only
      rw [if_neg (by simp [hearly, hruns]), pictureEnds_of_active p hx hactive]
    obtain ⟨hengines, hstreams, hcmds⟩ := pictureSettled_frame en d p x (decodePicture x d p none) s
    rw [tmod_some _ hx] at hstreams
    obtain ⟨⟨b', hb', hdata, hpicture⟩, hslots⟩ := settleMarks_buffer p (decodePicture x d p none).data hopen hb
    obtain ⟨⟨y, hy, hbufs, hsame⟩, hcounts, hends⟩ := pictureCounted_of_begun (d := d) p (decodePicture x d p none) x
      (by rw [hstreams]; exact tget_tset_same ..) (hcmds ▸ hc) hbegun
    exact ⟨_, y, b', congrArg Host.Outcome.next hrun, (pictureCounted_engines ..).trans hengines, hy, hbufs ▸ hb', hdata, hpicture,
      hsame.trans hslots, hcounts, hends⟩
  case watchdog =>
    intro p d n hd hshow
    refine ⟨fun hpast => ⟨_, congrArg Host.Outcome.next ?_, pictureEnds_engines en d p (some n) s⟩,
      fun hearly => congrArg Host.Outcome.next ?_⟩
    · rw [decodeWatchdog, hd]
      dsimp only
      rw [expired_of_decoding s hshow, if_pos (decide_eq_true hpast)]
    · rw [decodeWatchdog, hd]
      dsimp only
      rw [expired_of_decoding s hshow, if_neg (by simpa using hearly)]

end Sys2Proof.Machine

namespace Sys2Proof.Machine

/-! ### An encoder whose line holds the command that closes it (07 R236) -/

/-- An ENC_CLOSE with CANCEL of the encoder of index 0 under generation 1. -/
def cancelPacket : Packet := BitVec.ofNat 512 (0x0306 + 0x10000 * 2 ^ 160 + 2 ^ 192)

/-- An ENC_FRAME of the same encoder. -/
def framePacket : Packet := BitVec.ofNat 512 (0x0305 + 0x10000 * 2 ^ 160)

/-- A command of ring 1. -/
def ringCmd (p : Packet) (phase : Phase) : Cmd :=
  { ring := 1, order := 0, pkt := p, doorbell := 0, tenant := some 0, queue := 1, phase := phase, since := 0, keyGen := 0,
    partner := false, given := none, aux := [] }

/-- An open encoder of ring 1; commands 1 and 5 stand in its line. -/
def heldEncoder : Encoder :=
  { gen := 1, ring := 1, tenant := 0, codec := 0, profile := 0, level := 0, half := 0, width := 128, height := 128, bits := 8, rc := 0,
    qpMin := 0, qpMax := 51, qpI := 0, qpP := 0, idrEvery := 0, target := 0, maxKbps := 0, vbvMs := 100, slices := 1, engine := 0,
    rate := 16384, frameNo := 0, sinceIdr := 0, closing := none
    frames := [{ cid := 1, samples := [], rois := [] }, { cid := 5, samples := [], rois := [] }] }

/-- Command 1 is a frame that its engine encodes; command 5, fetched after it, is the close. -/
def heldState : State :=
  { State.reset with
    cmds := [(1, ringCmd framePacket .begun), (5, ringCmd cancelPacket .ready)], encs := [(0, heldEncoder)] }

/-- The close has begun when its CANCEL looks for the frames to end, and finds itself among them. -/
theorem encClose_heldState : ((tget (encClose 5 heldState).cmds 5).map (·.phase)) = some .replied := by decide +kernel

/-- Refutes O30: nothing in the statement keeps the closing command out of the line of its encoder, and in `heldState` it is its second
frame, so that ENC_CLOSE with CANCEL ends itself while a frame of its encoder is left. -/
theorem not_encoders : ¬ Obligations.Encoders := by
  unfold Obligations.Encoders
  intro h
  obtain ⟨-, -, -, hclose⟩ := h 5 0 (ringCmd cancelPacket .ready) heldEncoder heldState
  obtain ⟨t, ht, -, hwaits⟩ := hclose ⟨by decide +kernel, by decide +kernel⟩ (by decide +kernel) rfl rfl
  obtain ⟨-, hbegun, -⟩ := hwaits (List.cons_ne_nil _ _)
  obtain rfl : encClose 5 heldState = t := Host.Outcome.next.inj ht
  have hphase := encClose_heldState
  rw [hbegun] at hphase
  cases hphase

end Sys2Proof.Machine
